-- ==== Sys2Proof/Word.lean ====
section
/-! DEFINITION. The word types of the machine: 64-bit scalar registers, 32-bit vector words and bytes (Table 1.1). -/

namespace Sys2Proof

/-- A scalar register's contents. -/
abbrev Word := BitVec 64

/-- One word of a vector register. -/
abbrev VWord := BitVec 32

/-- The smallest addressable unit. -/
abbrev Byte := BitVec 8

end Sys2Proof
end

