-- ==== Sys2Proof/Config.lean ====
section
/-! DEFINITION. What the spec leaves open: constants with no body, of which nothing in Lean can prove a value, and the sizes that
the spec fixes for the YM-2560. Each free value has its row in the assumption log. -/

namespace Sys2Proof

namespace Config

/-- Lane groups of a core (R2, R206). -/
def laneGroups : Nat := 4

/-- Strands of a core (R2). -/
def strandsPerCore : Nat := 8

/-- Cores of a cluster (R2). -/
def coresPerCluster : Nat := 4

/-- Clusters of the die (R2). -/
def clusters : Nat := 64

/-- Cores of the die (R2). -/
def cores : Nat := 256

/-- Bytes of the LPDDR 6 range of the physical map (R300), all populated on the 256 GB part (R3). -/
def lpddrBytes : Nat := 0x4000000000

/-- The part is the 128 GB variant, whose range is populated in its lower half only (R3; log 10). -/
opaque smallPart : Bool

/-- The byte that owner key `reader` obtains at physical address `pa` from a 16-byte block that owner key `writer` encrypted with the
plaintext `plain` (R303, R424, R425): the decryption of another key's ciphertext (log 6). -/
opaque decrypt (writer reader : Nat) (plain : List (BitVec 8)) (pa : Nat) : BitVec 8

/-- Which line of a full set is the victim (R302: a tree pseudo-LRU whose bits the spec does not lay out; log 14). -/
opaque victim (clock : Nat) : Nat

/-- Byte `i` of the `n`-th error record (R436: 32 bytes with no layout given; log 15). -/
opaque errorByte (n i : Nat) : BitVec 8

/-- The energy that the clusters of a partition have used, in mJ (Table 23.3; the spec gives no measure of it; log 13). -/
opaque energy (part clock : Nat) : Nat

/-- Nanoseconds of DTIME that pass in a step (R8, R400: the model counts no cycles; log 3). -/
opaque elapsed (clock : Nat) : Nat

/-- Which of the cores with a ready strand issues in a step (R207: the cores run side by side; log 1). -/
opaque nextCore (clock : Nat) : Nat
/-- Which of the instructions in flight processes its next beat (R220; log 9). -/
opaque nextBeat (clock : Nat) : Nat

/-- The twin's bank accepts the oldest posted write of this die in a step (R319; log 76). -/
opaque twinAccepts (clock : Nat) : Bool

/-- Which of the values that R327 allows a command's read of a word returns (log 80). -/
opaque engineWord (clock addr : Nat) : Nat

/-- The byte that a read of a host or twin address returns to an engine (R391: the other side's memory; log 16). -/
opaque linkByte (twin : Bool) (addr clock : Nat) : BitVec 8

/-- The shift of base graph 1 or 2 at a row and column for a set index (3GPP TS 38.212, Tables 5.3.2-2 and 5.3.2-3), none where the graph
has no edge (R392: the spec names the tables and does not print them; log 17). -/
opaque ldpcShift (bg2 : Bool) (set row col : Nat) : Option Nat

/-- The polar sequence of TS 38.212 Table 5.3.1.2-1: the bit index at a rank of reliability (R395; log 17). -/
opaque polarSequence (rank : Nat) : Nat

/-- The polar interleaving pattern of TS 38.212 Table 5.3.1.1-1 (R395; log 17). -/
opaque polarPattern (m : Nat) : Nat

/-- The quarter of a nanosecond past `DTIME` in a port's timestamps (R398, R400: 0.25 ns; `DTIME` counts whole ns; log 3). -/
opaque quarter (clock : Nat) : Nat

/-- The destination MAC and the VLAN tag, or nothing, of a flow of a port's flow table, and the source MAC of a port (R396: no register of
them is described; log 18). -/
opaque flowMac (port flow : Nat) : List (BitVec 8)
opaque flowTag (port flow : Nat) : List (BitVec 8)
opaque portMac (port : Nat) : List (BitVec 8)

/-- The configuration table and the firmware image in the SPI flash (R432; log 7). -/
opaque flashTable : List Nat
opaque flashImage : List Nat

/-- Both signatures of a configuration table, or of an image, verify (R431, R432; log 7). -/
opaque signatureOk (bytes : List Nat) : Bool

/-- The security version of an image, and that of the fuses (R432; log 7). -/
opaque imageVersion (bytes : List Nat) : Nat
opaque fuseVersion : Nat

/-- LPDDR 6 training succeeds (R432; log 7). -/
opaque trained : Bool

/-- The measurement of the boot ROM (R432; log 7). -/
opaque romMeasure : Nat

/-- The measurement and the security version of the incoming image at a physical address, as memory holds it at a step (R434; log 7). -/
opaque incomingMeasure (pa clock : Nat) : Nat
opaque incomingVersion (pa clock : Nat) : Nat

/-- Where a Tollhouse core begins under an image with a measurement (R432, R434; log 7). -/
opaque firmwareEntry (measure core : Nat) : BitVec 64

/-- The ticket of an export, and whether the target accepts one and its placement matches (R450, R451: opaque to the host; log 19). -/
opaque ticket (vf clock : Nat) : Nat
opaque ticketOk (vf ticket : Nat) : Bool
opaque placementOk (vf ticket : Nat) : Bool

end Config

end Sys2Proof
end

