-- ==== Sys2Proof/Machine/Num.lean ====
section
/-! DEFINITION. Number formats and exact arithmetic (chapter 2): a value is an exact dyadic number, an infinity or a NaN; every
result is the exact value put through one rounding. -/

namespace Sys2Proof.Machine

/-- The floating-point formats of Table 2.1. -/
inductive Fmt where
  | f64 | f32 | f16 | bf16 | e5m2 | e4m3
  deriving DecidableEq, Repr

/-- Fraction bits F (Table 2.1). -/
def Fmt.frac : Fmt → Nat
  | .f64 => 52 | .f32 => 23 | .f16 => 10 | .bf16 => 7 | .e5m2 => 2 | .e4m3 => 3

/-- Exponent bits (Table 2.1). -/
def Fmt.expBits : Fmt → Nat
  | .f64 => 11 | .f32 => 8 | .f16 => 5 | .bf16 => 8 | .e5m2 => 5 | .e4m3 => 4

/-- Exponent bias (Table 2.1). -/
def Fmt.bias : Fmt → Nat
  | .f64 => 1023 | .f32 => 127 | .f16 => 15 | .bf16 => 127 | .e5m2 => 15 | .e4m3 => 7

/-- The bit position of the sign. -/
def Fmt.signPos (f : Fmt) : Nat := f.frac + f.expBits

/-- The magnitude bits of infinity; E4M3 has none (R34). -/
def Fmt.infBits (f : Fmt) : Nat := (2 ^ f.expBits - 1) * 2 ^ f.frac

/-- The magnitude bits of the largest finite value (Table 2.1; R34 for E4M3). -/
def Fmt.maxBits : Fmt → Nat
  | .e4m3 => 0x7E
  | f => f.infBits - 1

/-- The canonical NaN (Table 2.1). -/
def Fmt.nanBits : Fmt → Nat
  | .f64 => 0x7FF8000000000000 | .f32 => 0x7FC00000 | .f16 => 0x7E00 | .bf16 => 0x7FC0 | .e5m2 => 0x7E | .e4m3 => 0x7F

/-- The exponent of the smallest normal value, 1 minus the bias. -/
def Fmt.emin (f : Fmt) : Int := 1 - (f.bias : Int)

/-- The rounding modes (R39). -/
inductive Mode where
  | rne | rtz | rup | rdn
  deriving DecidableEq, Repr

/-- An operand's exact value: a NaN (signalling or not), an infinity, or the dyadic number m times 2 to the e with its sign, so
that −0 and +0 differ. -/
inductive FV where
  | nan (signalling : Bool)
  | inf (neg : Bool)
  | fin (neg : Bool) (m : Nat) (e : Int)
  deriving DecidableEq, Repr

/-- The flags of FCSR[4:0]: NV, DZ, OF, UF, NX (Table 1.5). -/
abbrev Flags := BitVec 5

/-- NV, invalid. -/
def fNV : Flags := 16
/-- DZ, divide by zero. -/
def fDZ : Flags := 8
/-- OF, overflow. -/
def fOF : Flags := 4
/-- UF, underflow. -/
def fUF : Flags := 2
/-- NX, inexact. -/
def fNX : Flags := 1

/-- A flag when its condition holds. -/
def flagIf (c : Bool) (f : Flags) : Flags := if c then f else 0

/-- The value that the bits of a format encode (R33, R34). -/
def FV.ofBits (f : Fmt) (b : Nat) : FV :=
  let neg := b / 2 ^ f.signPos % 2 == 1
  let mag := b % 2 ^ f.signPos
  let fr := mag % 2 ^ f.frac
  let ex := mag / 2 ^ f.frac
  if f = .e4m3 then
    if mag = 0x7F then .nan false
    else if ex = 0 then .fin neg fr (f.emin - f.frac)
    else .fin neg (2 ^ f.frac + fr) ((ex : Int) - f.bias - f.frac)
  else if ex = 2 ^ f.expBits - 1 then
    if fr = 0 then .inf neg else .nan (fr < 2 ^ (f.frac - 1))
  else if ex = 0 then .fin neg fr (f.emin - f.frac)
  else .fin neg (2 ^ f.frac + fr) ((ex : Int) - f.bias - f.frac)

/-- An exact integer as a value. -/
def FV.ofInt (i : Int) : FV := .fin (decide (i < 0)) i.natAbs 0

/-- Sign change, NaN unchanged. -/
def FV.neg : FV → FV
  | .nan s => .nan s
  | .inf n => .inf (!n)
  | .fin n m e => .fin (!n) m e

/-- The magnitude. -/
def FV.abs : FV → FV
  | .nan s => .nan s
  | .inf _ => .inf false
  | .fin _ m e => .fin false m e

/-- Sign change under a condition (the conjugate and negate modifiers of R42). -/
def FV.negIf (c : Bool) (x : FV) : FV := if c then x.neg else x

def FV.isNan : FV → Bool
  | .nan _ => true
  | _ => false

def FV.isSig : FV → Bool
  | .nan s => s
  | _ => false

def FV.isZero : FV → Bool
  | .fin _ m _ => m == 0
  | _ => false

def FV.isInf : FV → Bool
  | .inf _ => true
  | _ => false

/-- The sign bit of a value that is no NaN. -/
def FV.sign : FV → Bool
  | .nan _ => false
  | .inf n => n
  | .fin n _ _ => n

/-- Below zero, −∞ included. -/
def FV.isNeg : FV → Bool
  | .nan _ => false
  | .inf n => n
  | .fin n m _ => n && m != 0

/-- NV for a signalling NaN operand (R36). -/
def FV.sigFlag (x : FV) : Flags := flagIf x.isSig fNV

/-- Whether a discarded remainder r of 2^d, above a kept integer k, rounds the magnitude up (R39). -/
def roundsUp (mode : Mode) (neg : Bool) (k r d : Nat) : Bool :=
  match mode with
  | .rne => 2 * r > 2 ^ d || (2 * r == 2 ^ d && k % 2 == 1)
  | .rtz => false
  | .rup => !neg && r != 0
  | .rdn => neg && r != 0

/-- The integer magnitude of m times 2 to the e in units of 2 to the q, rounded, and whether that was inexact. -/
def roundAt (mode : Mode) (neg : Bool) (m : Nat) (e q : Int) : Nat × Bool :=
  if q ≤ e then (m * 2 ^ (e - q).toNat, false)
  else
    let d := (q - e).toNat
    let k := m / 2 ^ d
    let r := m % 2 ^ d
    (if roundsUp mode neg k r d then k + 1 else k, r != 0)

/-- What a rounded magnitude above the largest finite value becomes (R39; Table 2.2 for FP8). -/
def overflowBits (f : Fmt) (mode : Mode) (sat8 neg : Bool) : Nat × Flags :=
  let toMax := match mode with
    | .rne => false
    | .rtz => true
    | .rup => neg
    | .rdn => !neg
  let base := fOF ||| fNX
  if f = .e4m3 ∨ f = .e5m2 then
    if sat8 || toMax then (f.maxBits, base) else (f.nanBits, base ||| fNV)
  else if toMax then (f.maxBits, base) else (f.infBits, base)

/-- `round(x, F)` of R39 and R41 for x = ±m·2^e: the bits of the format and the flags. -/
def roundFin (f : Fmt) (mode : Mode) (sat8 neg : Bool) (m : Nat) (e : Int) : Nat × Flags :=
  let s := if neg then 2 ^ f.signPos else 0
  if m = 0 then (s, 0)
  else
    let top : Int := (m.log2 : Int) + e
    let full := top - f.frac
    let low := f.emin - f.frac
    let q := if full < low then low else full
    let (k, inexact) := roundAt mode neg m e q
    let bits := (q - low).toNat * 2 ^ f.frac + k
    if bits > f.maxBits then
      let (b, fl) := overflowBits f mode sat8 neg
      (if b = f.nanBits then b else s + b, fl)
    else
      let (ku, _) := roundAt mode neg m e full
      let tiny := full < low ∧ ku < 2 ^ f.frac * 2 ^ (low - full).toNat
      (s + bits, flagIf inexact fNX ||| flagIf (inexact && decide tiny) fUF)

/-- A value rounded into a format: a NaN gives the canonical NaN (R36), an infinity stays one (Table 2.2 for FP8,
where ±∞ that becomes ±448 raises no flag; log 79). -/
def FV.round (f : Fmt) (mode : Mode) (sat8 : Bool) : FV → Nat × Flags
  | .nan _ => (f.nanBits, 0)
  | .inf n =>
    let s := if n then 2 ^ f.signPos else 0
    match f with
    | .e4m3 => if sat8 then (s + f.maxBits, 0) else (f.nanBits, fNV)
    | _ => (s + f.infBits, 0)
  | .fin n m e => roundFin f mode sat8 n m e

/-- The exact product (R36, R38). -/
def FV.mul (a b : FV) : FV × Flags :=
  match a, b with
  | .nan s, y => (.nan false, flagIf (s || y.isSig) fNV)
  | x, .nan s => (.nan false, flagIf (s || x.isSig) fNV)
  | .inf n, .inf k => (.inf (xor n k), 0)
  | .inf n, .fin k m _ => if m = 0 then (.nan false, fNV) else (.inf (xor n k), 0)
  | .fin k m _, .inf n => if m = 0 then (.nan false, fNV) else (.inf (xor n k), 0)
  | .fin n m e, .fin k m' e' => (.fin (xor n k) (m * m') (e + e'), 0)

/-- The least exponent of the non-zero finite terms. -/
def minExp : List FV → Option Int
  | [] => none
  | .fin _ m e :: t =>
    match minExp t with
    | none => if m = 0 then none else some e
    | some x => some (if m ≠ 0 ∧ e < x then e else x)
  | _ :: t => minExp t

/-- The exact sum of the finite terms in units of 2 to the x. -/
def sumAt (x : Int) : List FV → Int
  | [] => 0
  | .fin n m e :: t => (if n then -((m * 2 ^ (e - x).toNat : Nat) : Int) else ((m * 2 ^ (e - x).toNat : Nat) : Int)) + sumAt x t
  | _ :: t => sumAt x t

/-- The exact sum of real terms with its flags: infinities of opposite sign give a NaN and NV (R36); a zero sum is +0 unless
every term is −0 (R38). -/
def sumFV (ts : List FV) : FV × Flags :=
  let pos := ts.any fun t => t = .inf false
  let neg := ts.any fun t => t = .inf true
  let fl := flagIf (ts.any FV.isSig || (pos && neg)) fNV
  if ts.any FV.isNan || (pos && neg) then (.nan false, fl)
  else if pos then (.inf false, fl)
  else if neg then (.inf true, fl)
  else match minExp ts with
    | none => (.fin (ts.all FV.sign) 0 0, fl)
    | some x =>
      let v := sumAt x ts
      if v = 0 then (.fin false 0 0, fl) else (.fin (decide (v < 0)) v.natAbs x, fl)

/-- A sum of products and terms, exact: the forms of Table 2.3. -/
def dotFV (ts : List FV) (ps : List (FV × FV)) : FV × Flags :=
  let qs := ps.map fun p => p.1.mul p.2
  let (v, fl) := sumFV (ts ++ qs.map Prod.fst)
  (v, qs.foldl (fun f q => f ||| q.2) fl)

/-- The integer square root, the largest r with r·r ≤ n. -/
def isqrt (n : Nat) : Nat := go (n.log2 / 2 + 1) 0
where
  go : Nat → Nat → Nat
    | 0, r => r
    | k + 1, r => if (r + 2 ^ k) * (r + 2 ^ k) ≤ n then go k (r + 2 ^ k) else go k r

/-- A quotient of magnitudes to at least 128 bits with its sticky bit, as a dyadic number that rounds as the exact quotient. -/
def divMag (m : Nat) (e : Int) (m' : Nat) (e' : Int) : Nat × Int :=
  let s := 128 + m'.log2
  let q := m * 2 ^ s / m'
  (2 * q + (if m * 2 ^ s % m' = 0 then 0 else 1), e - e' - s - 1)

/-- A square root of a magnitude to at least 64 bits with its sticky bit, as a dyadic number that rounds as the exact root. -/
def sqrtMag (m : Nat) (e : Int) : Nat × Int :=
  let s : Nat := if (e % 2) = 0 then 130 else 131
  let n := m * 2 ^ s
  let r := isqrt n
  (2 * r + (if r * r = n then 0 else 1), (e - s) / 2 - 1)

/-- Division (R36, R95): 0/0 and ∞/∞ are invalid, a finite non-zero value by zero raises DZ. -/
def FV.div (a b : FV) : FV × Flags :=
  match a, b with
  | .nan s, y => (.nan false, flagIf (s || y.isSig) fNV)
  | x, .nan s => (.nan false, flagIf (s || x.isSig) fNV)
  | .inf _, .inf _ => (.nan false, fNV)
  | .inf n, .fin k _ _ => (.inf (xor n k), 0)
  | .fin n _ _, .inf k => (.fin (xor n k) 0 0, 0)
  | .fin n m e, .fin k m' e' =>
    if m' = 0 then (if m = 0 then (.nan false, fNV) else (.inf (xor n k), fDZ))
    else if m = 0 then (.fin (xor n k) 0 0, 0)
    else let (q, x) := divMag m e m' e'; (.fin (xor n k) q x, 0)

/-- Square root (R36, R95): of −0 it is −0, below zero it is invalid. -/
def FV.sqrt : FV → FV × Flags
  | .nan s => (.nan false, flagIf s fNV)
  | .inf n => if n then (.nan false, fNV) else (.inf false, 0)
  | .fin n m e =>
    if m = 0 then (.fin n 0 0, 0)
    else if n then (.nan false, fNV)
    else let (r, x) := sqrtMag m e; (.fin false r x, 0)

/-- The signed real of two finite values in a common unit, for comparison. -/
def cmpFin (n : Bool) (m : Nat) (e : Int) (k : Bool) (m' : Nat) (e' : Int) : Int :=
  let x := if e < e' then e else e'
  let a : Int := (m * 2 ^ (e - x).toNat : Nat)
  let b : Int := (m' * 2 ^ (e' - x).toNat : Nat)
  (if n then -a else a) - (if k then -b else b)

/-- a < b as reals with infinities; false where either is a NaN; −0 equals +0 (R96). -/
def FV.lt : FV → FV → Bool
  | .nan _, _ => false
  | _, .nan _ => false
  | .inf n, .inf k => n && !k
  | .inf n, .fin _ _ _ => n
  | .fin _ _ _, .inf k => !k
  | .fin n m e, .fin k m' e' => cmpFin n m e k m' e' < 0

/-- a = b as reals with infinities; false where either is a NaN (R96). -/
def FV.eq (a b : FV) : Bool := !a.isNan && !b.isNan && !a.lt b && !b.lt a

/-- The lesser or the greater by R37: −0 orders below +0, one NaN gives the other operand, NV only for a signalling NaN. -/
def FV.minMax (greater : Bool) (a b : FV) : FV × Flags :=
  let fl := a.sigFlag ||| b.sigFlag
  match a.isNan, b.isNan with
  | true, true => (.nan false, fl)
  | true, false => (b, fl)
  | false, true => (a, fl)
  | false, false =>
    let less := a.lt b || (!b.lt a && a.sign && !b.sign)
    (if less == greater then b else a, fl)

/-- Rounded to an integer and clamped to [lo, hi] (R40): NV where it is out of range or a NaN, NX where it is inexact. -/
def FV.toInt (mode : Mode) (lo hi : Int) : FV → Int × Flags
  | .nan _ => (0, fNV)
  | .inf n => (if n then lo else hi, fNV)
  | .fin n m e =>
    let (k, inexact) := roundAt mode n m e 0
    let v : Int := if n then -(k : Int) else k
    if v < lo then (lo, fNV) else if v > hi then (hi, fNV) else (v, flagIf inexact fNX)

/-- FCLASS, Table 4.10: the one-hot class of the bits of a format. -/
def fclass (f : Fmt) (b : Nat) : Nat :=
  match FV.ofBits f b with
  | .nan s => if s then 2 ^ 8 else 2 ^ 9
  | .inf n => if n then 2 ^ 0 else 2 ^ 7
  | .fin n m _ =>
    if m = 0 then (if n then 2 ^ 3 else 2 ^ 4)
    else if m < 2 ^ f.frac then (if n then 2 ^ 2 else 2 ^ 5)
    else if n then 2 ^ 1 else 2 ^ 6

/-- Clamp an integer to a range (R35). -/
def clampInt (lo hi x : Int) : Int := if x < lo then lo else if x > hi then hi else x

/-- An integer's low w bits. -/
def wrapBits (w : Nat) (x : Int) : Nat := (x % (2 ^ w : Nat)).toNat

/-- The low w bits of a number read as two's complement. -/
def toSigned (w : Nat) (x : Nat) : Int :=
  let v := x % 2 ^ w
  if v < 2 ^ (w - 1) then v else (v : Int) - (2 ^ w : Nat)

/-- `sat16` of R46. -/
def sat16 (x : Int) : Int := clampInt (-32768) 32767 x

end Sys2Proof.Machine
end

