-- ==== Sys2Proof/Machine/Sparse.lean ====
section
/-! DEFINITION. Sparse storage in one canonical form: a list of key and value pairs, keys strictly rising, no entry equal to what an
unlisted key reads as. Memory, vector words, tiles and register blocks are all held so. -/

namespace Sys2Proof.Machine

/-- The value at a key; `d` is what an unlisted key reads as. -/
def sget {α : Type} (d : α) : List (Nat × α) → Nat → α
  | [], _ => d
  | (k, v) :: t, a => if a = k then v else sget d t a

/-- Remove a key. -/
def sdel {α : Type} : List (Nat × α) → Nat → List (Nat × α)
  | [], _ => []
  | (k, v) :: t, a => if a = k then sdel t a else (k, v) :: sdel t a

/-- Insert a key that the list does not hold, before the first greater one. -/
def sins {α : Type} : List (Nat × α) → Nat → α → List (Nat × α)
  | [], a, x => [(a, x)]
  | (k, v) :: t, a, x => if a < k then (a, x) :: (k, v) :: t else (k, v) :: sins t a x

/-- Write a key, keeping the canonical form: writing what an unlisted key reads as removes the entry. -/
def sset {α : Type} [DecidableEq α] (d : α) (m : List (Nat × α)) (a : Nat) (x : α) : List (Nat × α) :=
  if x = d then sdel m a else sins (sdel m a) a x

/-- Every key of the list is above `lo` (or the list is empty) and they rise strictly; no value is the default. -/
def swfFrom {α : Type} [DecidableEq α] (d : α) : Option Nat → List (Nat × α) → Bool
  | _, [] => true
  | lo, (k, v) :: t => (match lo with | none => true | some l => decide (l < k)) && decide (v ≠ d) && swfFrom d (some k) t

/-- The canonical form. -/
def swf {α : Type} [DecidableEq α] (d : α) (m : List (Nat × α)) : Bool := swfFrom d none m

/-- Keep the entries whose key satisfies a test. -/
def sfilter {α : Type} (p : Nat → Bool) (m : List (Nat × α)) : List (Nat × α) := m.filter fun e => p e.1

/-- Write a list of values at consecutive keys from `a`. -/
def ssetAll {α : Type} [DecidableEq α] (d : α) (m : List (Nat × α)) : Nat → List α → List (Nat × α)
  | _, [] => m
  | a, x :: xs => ssetAll d (sset d m a x) (a + 1) xs

/-- The values of `n` consecutive keys from `a`. -/
def sgetAll {α : Type} (d : α) (m : List (Nat × α)) (a n : Nat) : List α := (List.range n).map fun i => sget d m (a + i)

end Sys2Proof.Machine
end

