-- ==== Sys2Proof/Syntax.lean ====
section
/-! DEFINITION. The instructions and machine events of Ramtu version 1 (spec/opcode_table.json), one constructor a row.
An instruction constructor carries the fields of its word under the letters of the opcode table, raw: a one-bit field is a
Bool, a wider one a Fin. An event constructor (a step the spec numbers that has no word) carries what the outside world or
the schedule supplies to it. Meaning is in Machine/ alone. -/

namespace Sys2Proof

/-- One row of the opcode table: the 260 instructions of chapter 3, then the 154 machine events of the other chapters. -/
inductive Instr where
  /-- ADD, R84. -/
  | add (d a b : Fin 32) (w : Bool)
  /-- SUB, R84. -/
  | sub (d a b : Fin 32) (w : Bool)
  /-- AND, R84. -/
  | and (d a b : Fin 32)
  /-- OR, R84. -/
  | or (d a b : Fin 32)
  /-- XOR, R84. -/
  | xor (d a b : Fin 32)
  /-- ANDN, R84. -/
  | andn (d a b : Fin 32)
  /-- ORN, R84. -/
  | orn (d a b : Fin 32)
  /-- SLL, R84. -/
  | sll (d a b : Fin 32) (w : Bool)
  /-- SRL, R84. -/
  | srl (d a b : Fin 32) (w : Bool)
  /-- SRA, R84. -/
  | sra (d a b : Fin 32) (w : Bool)
  /-- ROTR, R84. -/
  | rotr (d a b : Fin 32) (w : Bool)
  /-- SLT, R84. -/
  | slt (d a b : Fin 32)
  /-- SLTU, R84. -/
  | sltu (d a b : Fin 32)
  /-- MIN, R84. -/
  | min (d a b : Fin 32)
  /-- MAX, R84. -/
  | max (d a b : Fin 32)
  /-- MINU, R84. -/
  | minu (d a b : Fin 32)
  /-- MAXU, R84. -/
  | maxu (d a b : Fin 32)
  /-- MUL, R84. -/
  | mul (d a b : Fin 32) (w : Bool)
  /-- MULH, R84. -/
  | mulh (d a b : Fin 32)
  /-- MULHU, R84. -/
  | mulhu (d a b : Fin 32)
  /-- DIV, R85. -/
  | div (d a b : Fin 32) (w : Bool)
  /-- DIVU, R85. -/
  | divu (d a b : Fin 32) (w : Bool)
  /-- REM, R85. -/
  | rem (d a b : Fin 32) (w : Bool)
  /-- REMU, R85. -/
  | remu (d a b : Fin 32) (w : Bool)
  /-- CLZ, R84. -/
  | clz (d a : Fin 32) (w : Bool)
  /-- CTZ, R84. -/
  | ctz (d a : Fin 32) (w : Bool)
  /-- POPC, R84. -/
  | popc (d a : Fin 32) (w : Bool)
  /-- BREV, R84. -/
  | brev (d a : Fin 32)
  /-- SEXT, R84. -/
  | sext (d a s : Fin 32)
  /-- ZEXT, R84. -/
  | zext (d a s : Fin 32)
  /-- SHADD, R86. -/
  | shadd (d a b : Fin 32) (w : Bool)
  /-- CMOVZ, R86. -/
  | cmovz (d a b : Fin 32)
  /-- CMOVNZ, R86. -/
  | cmovnz (d a b : Fin 32)
  /-- ADDI, R87. -/
  | addi (d a : Fin 32) (i : Fin 65536)
  /-- ANDI, R87. -/
  | andi (d a : Fin 32) (i : Fin 65536)
  /-- ORI, R87. -/
  | ori (d a : Fin 32) (i : Fin 65536)
  /-- XORI, R87. -/
  | xori (d a : Fin 32) (i : Fin 65536)
  /-- SLTI, R87. -/
  | slti (d a : Fin 32) (i : Fin 65536)
  /-- SLTIU, R87. -/
  | sltiu (d a : Fin 32) (i : Fin 65536)
  /-- SLLI, R87. -/
  | slli (d a : Fin 32) (w : Bool) (n : Fin 64)
  /-- SRLI, R87. -/
  | srli (d a : Fin 32) (w : Bool) (n : Fin 64)
  /-- SRAI, R87. -/
  | srai (d a : Fin 32) (w : Bool) (n : Fin 64)
  /-- ROTRI, R87. -/
  | rotri (d a : Fin 32) (w : Bool) (n : Fin 64)
  /-- LUH, R87. -/
  | luh (d : Fin 32) (i : Fin 2097152)
  /-- PCADD, R87. -/
  | pcadd (d : Fin 32) (i : Fin 2097152)
  /-- LD, R88. -/
  | ld (d a : Fin 32) (s : Fin 8) (i : Fin 8192)
  /-- ST, R88. -/
  | st (t a : Fin 32) (s : Fin 8) (i : Fin 8192)
  /-- LDA, R91. -/
  | lda (d a : Fin 32) (w : Bool) (o : Fin 4) (s : Fin 8)
  /-- STA, R91. -/
  | sta (a b : Fin 32) (w : Bool) (o : Fin 4) (s : Fin 8)
  /-- SWAP, R91. -/
  | swap (d a b : Fin 32) (w : Bool) (o : Fin 4) (s : Fin 8)
  /-- CAS, R91. -/
  | cas (d a b : Fin 32) (w : Bool) (o : Fin 4) (s : Fin 8)
  /-- AMO_FADD, R91. -/
  | amoFadd (d a b : Fin 32) (w : Bool) (o : Fin 4) (s : Fin 8)
  /-- AMO_FAND, R91. -/
  | amoFand (d a b : Fin 32) (w : Bool) (o : Fin 4) (s : Fin 8)
  /-- AMO_FOR, R91. -/
  | amoFor (d a b : Fin 32) (w : Bool) (o : Fin 4) (s : Fin 8)
  /-- AMO_FXOR, R91. -/
  | amoFxor (d a b : Fin 32) (w : Bool) (o : Fin 4) (s : Fin 8)
  /-- AMO_FMIN, R91. -/
  | amoFmin (d a b : Fin 32) (w : Bool) (o : Fin 4) (s : Fin 8)
  /-- AMO_FMAX, R91. -/
  | amoFmax (d a b : Fin 32) (w : Bool) (o : Fin 4) (s : Fin 8)
  /-- AMO_FMINU, R91. -/
  | amoFminu (d a b : Fin 32) (w : Bool) (o : Fin 4) (s : Fin 8)
  /-- AMO_FMAXU, R91. -/
  | amoFmaxu (d a b : Fin 32) (w : Bool) (o : Fin 4) (s : Fin 8)
  /-- AMO_FADDF, R91. -/
  | amoFaddf (d a b : Fin 32) (o : Fin 4) (s : Fin 8)
  /-- FADD, R95. -/
  | fadd (d a b : Fin 32) (f : Fin 4) (z : Bool)
  /-- FSUB, R95. -/
  | fsub (d a b : Fin 32) (f : Fin 4) (z : Bool)
  /-- FMUL, R95. -/
  | fmul (d a b : Fin 32) (f : Fin 4) (z : Bool)
  /-- FDIV, R95. -/
  | fdiv (d a b : Fin 32) (f : Fin 4) (z : Bool)
  /-- FSQRT, R95. -/
  | fsqrt (d a : Fin 32) (f : Fin 4) (z : Bool)
  /-- FMIN, R37. -/
  | fmin (d a b : Fin 32) (f : Fin 4)
  /-- FMAX, R37. -/
  | fmax (d a b : Fin 32) (f : Fin 4)
  /-- FMADD, R95. -/
  | fmadd (d a b : Fin 32) (f : Fin 4) (z : Bool)
  /-- FEQ, R96. -/
  | feq (d a b : Fin 32) (f : Fin 4)
  /-- FLT, R96. -/
  | flt (d a b : Fin 32) (f : Fin 4)
  /-- FLE, R96. -/
  | fle (d a b : Fin 32) (f : Fin 4)
  /-- FCLASS, R96. -/
  | fclass (d a : Fin 32) (f : Fin 4)
  /-- FCVT_I, R97. -/
  | fcvtI (d a : Fin 32) (f : Fin 4) (z : Bool) (t : Fin 4)
  /-- FCVT_F, R97. -/
  | fcvtF (d a : Fin 32) (f : Fin 4) (z : Bool) (t : Fin 4)
  /-- FCVT, R97. -/
  | fcvt (d a : Fin 32) (f : Fin 4) (z : Bool) (g : Fin 4)
  /-- BEQZ, R98. -/
  | beqz (a : Fin 32) (o : Fin 262144)
  /-- BNEZ, R98. -/
  | bnez (a : Fin 32) (o : Fin 262144)
  /-- BLTZ, R98. -/
  | bltz (a : Fin 32) (o : Fin 262144)
  /-- BGEZ, R98. -/
  | bgez (a : Fin 32) (o : Fin 262144)
  /-- BGTZ, R98. -/
  | bgtz (a : Fin 32) (o : Fin 262144)
  /-- BLEZ, R98. -/
  | blez (a : Fin 32) (o : Fin 262144)
  /-- BEQ, R98. -/
  | beq (a b : Fin 32) (o : Fin 8192)
  /-- BNE, R98. -/
  | bne (a b : Fin 32) (o : Fin 8192)
  /-- BLT, R98. -/
  | blt (a b : Fin 32) (o : Fin 8192)
  /-- BGE, R98. -/
  | bge (a b : Fin 32) (o : Fin 8192)
  /-- BLTU, R98. -/
  | bltu (a b : Fin 32) (o : Fin 8192)
  /-- BGEU, R98. -/
  | bgeu (a b : Fin 32) (o : Fin 8192)
  /-- J, R98. -/
  | j (o : Fin 67108864)
  /-- JAL, R98. -/
  | jal (o : Fin 67108864)
  /-- JALR, R99. -/
  | jalr (d a : Fin 32) (i : Fin 65536)
  /-- FENCE, R103. -/
  | fence (s k : Fin 8)
  /-- TLBINV, R104. -/
  | tlbinv (c a b : Fin 32) (l : Bool)
  /-- CSRR, R100. -/
  | csrr (d : Fin 32) (c : Fin 4096)
  /-- CSRW, R100. -/
  | csrw (a : Fin 32) (c : Fin 4096)
  /-- CSRSET, R100. -/
  | csrset (d a : Fin 32) (c : Fin 4096)
  /-- CSRCLR, R100. -/
  | csrclr (d a : Fin 32) (c : Fin 4096)
  /-- CSRSWAP, R100. -/
  | csrswap (d a : Fin 32) (c : Fin 4096)
  /-- SEND, R252. -/
  | send (n a b : Fin 32)
  /-- SENDC, R253. -/
  | sendc (n a : Fin 32)
  /-- CONTID, R254. -/
  | contid (d n : Fin 32)
  /-- SPAWN, R364. -/
  | spawn (d a : Fin 32)
  /-- JWAIT, R376. -/
  | jwait (d : Fin 32)
  /-- JDONE, R378. -/
  | jdone (a : Fin 32)
  /-- JSTAT, R377. -/
  | jstat (d a : Fin 32)
  /-- ENQ, R385. -/
  | enq (a b : Fin 32) (r : Bool)
  /-- ENQR, R385. -/
  | enqr (n a : Fin 32) (r : Bool)
  /-- BARARV, R293. -/
  | bararv (t : Fin 32) (d : Fin 16)
  /-- BARWT, R293. -/
  | barwt (a : Fin 32) (d : Fin 16)
  /-- BRNEXT, R286. -/
  | brnext (d a : Fin 32)
  /-- BRDONE, R287. -/
  | brdone (a : Fin 32)
  /-- SETVL, R118. -/
  | setvl (d a : Fin 32) (k : Bool)
  /-- LOOPV, R119. -/
  | loopv (a : Fin 32)
  /-- NEXTS, R120. -/
  | nexts (d : Fin 32)
  /-- VREP, R121. -/
  | vrep (r : Bool) (n : Fin 16)
  /-- VTAG, R125. -/
  | vtag (d : Fin 32) (t : Fin 16)
  /-- VMVX, R127. -/
  | vmvx (d a b : Fin 32)
  /-- VMVS, R128. -/
  | vmvs (d a b : Fin 32)
  /-- VADD, R129. -/
  | vadd (d a b : Fin 32) (z : Bool)
  /-- VSUB, R129. -/
  | vsub (d a b : Fin 32) (z : Bool)
  /-- VRSUB, R129. -/
  | vrsub (d a b : Fin 32) (z : Bool)
  /-- VMUL, R129. -/
  | vmul (d a b : Fin 32) (z : Bool)
  /-- VMULH, R129. -/
  | vmulh (d a b : Fin 32) (z : Bool)
  /-- VMIN, R129. -/
  | vmin (d a b : Fin 32) (z : Bool)
  /-- VMAX, R129. -/
  | vmax (d a b : Fin 32) (z : Bool)
  /-- VABS, R129. -/
  | vabs (d a : Fin 32)
  /-- VNEG, R129. -/
  | vneg (d a : Fin 32)
  /-- VAND, R129. -/
  | vand (d a b : Fin 32)
  /-- VOR, R129. -/
  | vor (d a b : Fin 32)
  /-- VXOR, R129. -/
  | vxor (d a b : Fin 32)
  /-- VANDN, R129. -/
  | vandn (d a b : Fin 32)
  /-- VSLL, R130. -/
  | vsll (d a b : Fin 32)
  /-- VSRL, R130. -/
  | vsrl (d a b : Fin 32)
  /-- VSRA, R130. -/
  | vsra (d a b : Fin 32)
  /-- VSADD, R131. -/
  | vsadd (d a b : Fin 32) (z : Bool)
  /-- VSSUB, R131. -/
  | vssub (d a b : Fin 32) (z : Bool)
  /-- VAVG, R131. -/
  | vavg (d a b : Fin 32) (z : Bool)
  /-- VDIV, R131. -/
  | vdiv (d a b : Fin 32) (z : Bool)
  /-- VCVT, R132. -/
  | vcvt (d a : Fin 32) (z : Bool)
  /-- VCMPEQ, R133. -/
  | vcmpeq (d a b : Fin 32)
  /-- VCMPNE, R133. -/
  | vcmpne (d a b : Fin 32)
  /-- VCMPLT, R133. -/
  | vcmplt (d a b : Fin 32)
  /-- VCMPLE, R133. -/
  | vcmple (d a b : Fin 32)
  /-- VSEL, R134. -/
  | vsel (d a b : Fin 32)
  /-- VMRG, R134. -/
  | vmrg (d a b : Fin 32)
  /-- VCLASS, R135. -/
  | vclass (d a : Fin 32)
  /-- VADD_VS, R129. -/
  | vaddVs (d a b : Fin 32) (z : Bool)
  /-- VSUB_VS, R129. -/
  | vsubVs (d a b : Fin 32) (z : Bool)
  /-- VRSUB_VS, R129. -/
  | vrsubVs (d a b : Fin 32) (z : Bool)
  /-- VMUL_VS, R129. -/
  | vmulVs (d a b : Fin 32) (z : Bool)
  /-- VMULH_VS, R129. -/
  | vmulhVs (d a b : Fin 32) (z : Bool)
  /-- VMIN_VS, R129. -/
  | vminVs (d a b : Fin 32) (z : Bool)
  /-- VMAX_VS, R129. -/
  | vmaxVs (d a b : Fin 32) (z : Bool)
  /-- VAND_VS, R129. -/
  | vandVs (d a b : Fin 32)
  /-- VOR_VS, R129. -/
  | vorVs (d a b : Fin 32)
  /-- VXOR_VS, R129. -/
  | vxorVs (d a b : Fin 32)
  /-- VANDN_VS, R129. -/
  | vandnVs (d a b : Fin 32)
  /-- VSLL_VS, R130. -/
  | vsllVs (d a b : Fin 32)
  /-- VSRL_VS, R130. -/
  | vsrlVs (d a b : Fin 32)
  /-- VSRA_VS, R130. -/
  | vsraVs (d a b : Fin 32)
  /-- VSADD_VS, R131. -/
  | vsaddVs (d a b : Fin 32) (z : Bool)
  /-- VSSUB_VS, R131. -/
  | vssubVs (d a b : Fin 32) (z : Bool)
  /-- VAVG_VS, R131. -/
  | vavgVs (d a b : Fin 32) (z : Bool)
  /-- VDIV_VS, R131. -/
  | vdivVs (d a b : Fin 32) (z : Bool)
  /-- VCMPEQ_VS, R133. -/
  | vcmpeqVs (d a b : Fin 32)
  /-- VCMPNE_VS, R133. -/
  | vcmpneVs (d a b : Fin 32)
  /-- VCMPLT_VS, R133. -/
  | vcmpltVs (d a b : Fin 32)
  /-- VCMPLE_VS, R133. -/
  | vcmpleVs (d a b : Fin 32)
  /-- VFMA, R136. -/
  | vfma (d a b c : Fin 32) (z : Bool)
  /-- VFMS, R136. -/
  | vfms (d a b c : Fin 32) (z : Bool)
  /-- VFNMA, R136. -/
  | vfnma (d a b c : Fin 32) (z : Bool)
  /-- VFNMS, R136. -/
  | vfnms (d a b c : Fin 32) (z : Bool)
  /-- VMACC, R136. -/
  | vmacc (d a b : Fin 32) (z : Bool)
  /-- VDOT2, R137. -/
  | vdot2 (d a b c : Fin 32) (z : Bool)
  /-- MAND, R138. -/
  | mand (d a b : Fin 32)
  /-- MOR, R138. -/
  | mor (d a b : Fin 32)
  /-- MXOR, R138. -/
  | mxor (d a b : Fin 32)
  /-- MANDN, R138. -/
  | mandn (d a b : Fin 32)
  /-- MNOT, R138. -/
  | mnot (d a : Fin 32)
  /-- MMOV, R138. -/
  | mmov (d a : Fin 32)
  /-- MSBF, R139. -/
  | msbf (d a : Fin 32)
  /-- MSIF, R139. -/
  | msif (d a : Fin 32)
  /-- MSOF, R139. -/
  | msof (d a : Fin 32)
  /-- MPOPC, R140. -/
  | mpopc (d a : Fin 32)
  /-- MFIRST, R140. -/
  | mfirst (d a : Fin 32)
  /-- VIOTA, R141. -/
  | viota (d a : Fin 32)
  /-- VID, R141. -/
  | vid (d : Fin 32)
  /-- MSET, R138. -/
  | mset (d a : Fin 32)
  /-- VSLIDEUP, R143. -/
  | vslideup (d a b : Fin 32)
  /-- VSLIDEDN, R143. -/
  | vslidedn (d a b : Fin 32)
  /-- VRGATHER, R144. -/
  | vrgather (d a b : Fin 32)
  /-- VCOMPRESS, R145. -/
  | vcompress (d a : Fin 32)
  /-- VEXPAND, R145. -/
  | vexpand (d a : Fin 32)
  /-- VSHUF, R146. -/
  | vshuf (d a : Fin 32) (p : Fin 8)
  /-- VXCH, R147. -/
  | vxch (d a : Fin 32) (x : Fin 16)
  /-- VBCAST, R147. -/
  | vbcast (d a b : Fin 32)
  /-- VREDSUM, R148. -/
  | vredsum (d a b : Fin 32) (z : Bool)
  /-- VREDSUMO, R148. -/
  | vredsumo (d a b : Fin 32) (z : Bool)
  /-- VREDMIN, R148. -/
  | vredmin (d a b : Fin 32) (z : Bool)
  /-- VREDMAX, R148. -/
  | vredmax (d a b : Fin 32) (z : Bool)
  /-- VCMUL, R155. -/
  | vcmul (d a b : Fin 32) (z n y x : Bool)
  /-- VCMAC, R155. -/
  | vcmac (d a b : Fin 32) (z n y x : Bool)
  /-- VCMAG2, R156. -/
  | vcmag2 (d a : Fin 32) (z : Bool)
  /-- VCONJ, R157. -/
  | vconj (d a : Fin 32) (z : Bool)
  /-- VBFLY2, R158. -/
  | vbfly2 (d a b : Fin 32) (i z : Bool)
  /-- VBFLY4, R159. -/
  | vbfly4 (d a b : Fin 32) (i z : Bool)
  /-- VCINV2, R160. -/
  | vcinv2 (d a : Fin 32) (z : Bool)
  /-- VQMUL, R161. -/
  | vqmul (d a b : Fin 32) (n y x : Bool)
  /-- VQSCL, R162. -/
  | vqscl (d a b : Fin 32)
  /-- SF_RCP, R274. -/
  | sfRcp (d a : Fin 32) (z : Bool)
  /-- SF_RSQ, R274. -/
  | sfRsq (d a : Fin 32) (z : Bool)
  /-- SF_SQRT, R274. -/
  | sfSqrt (d a : Fin 32) (z : Bool)
  /-- SF_EXP2, R274. -/
  | sfExp2 (d a : Fin 32) (z : Bool)
  /-- SF_LOG2, R274. -/
  | sfLog2 (d a : Fin 32) (z : Bool)
  /-- SF_SINPI, R274. -/
  | sfSinpi (d a : Fin 32) (z : Bool)
  /-- SF_COSPI, R274. -/
  | sfCospi (d a : Fin 32) (z : Bool)
  /-- SF_ATAN2PI, R274. -/
  | sfAtan2pi (d a b : Fin 32) (z : Bool)
  /-- VLD, R176. -/
  | vld (d : Fin 32) (s : Fin 16) (c : Bool)
  /-- VST, R176. -/
  | vst (t : Fin 32) (s : Fin 16) (c : Bool)
  /-- VSTU, R176. -/
  | vstu (t : Fin 32) (s : Fin 16)
  /-- VLDFF, R178. -/
  | vldff (d : Fin 32) (s : Fin 16)
  /-- VLDS, R179. -/
  | vlds (d : Fin 32) (s : Fin 16)
  /-- VGATH, R176. -/
  | vgath (d : Fin 32) (s : Fin 16) (i : Fin 32) (c : Bool)
  /-- VSCAT, R176. -/
  | vscat (t : Fin 32) (s : Fin 16) (i : Fin 32) (c : Bool)
  /-- VSCATU, R176. -/
  | vscatu (t : Fin 32) (s : Fin 16) (i : Fin 32)
  /-- VSTCMP, R183. -/
  | vstcmp (t : Fin 32) (s : Fin 16)
  /-- VLDEXP, R184. -/
  | vldexp (d : Fin 32) (s : Fin 16)
  /-- VAMO, R180. -/
  | vamo (d : Fin 32) (s : Fin 16) (i : Fin 32) (c : Bool) (p : Fin 16)
  /-- VREDM, R180. -/
  | vredm (t : Fin 32) (s : Fin 16) (i : Fin 32) (p : Fin 16)
  /-- SDSET, R168. -/
  | sdset (a : Fin 32) (s f : Fin 16)
  /-- SDGET, R168. -/
  | sdget (d : Fin 32) (s f : Fin 16)
  /-- SDLD, R168. -/
  | sdld (a : Fin 32) (s : Fin 16)
  /-- SDST, R168. -/
  | sdst (a : Fin 32) (s : Fin 16)
  /-- SDADV, R168. -/
  | sdadv (a : Fin 32) (s : Fin 16)
  /-- SDPOS, R168. -/
  | sdpos (d : Fin 32) (s : Fin 16)
  /-- MOPA, R237. -/
  | mopa (c : Fin 4) (a b : Fin 32) (p q : Fin 4) (l z : Bool)
  /-- MOPS, R237. -/
  | mops (c : Fin 4) (a b : Fin 32) (p q : Fin 4) (l z : Bool)
  /-- CMOPA, R238. -/
  | cmopa (c : Fin 4) (a b : Fin 32) (p q : Fin 4) (l z : Bool)
  /-- MOPASP, R239. -/
  | mopasp (c : Fin 4) (a b : Fin 32) (p q : Fin 4) (l z n : Bool) (m : Fin 8)
  /-- MLD, R241. -/
  | mld (c : Fin 4) (s : Fin 16)
  /-- MST, R241. -/
  | mst (c : Fin 4) (s : Fin 16)
  /-- MRDV, R242. -/
  | mrdv (c : Fin 4) (d b : Fin 32)
  /-- MWRV, R242. -/
  | mwrv (c : Fin 4) (a b : Fin 32)
  /-- RLLD, R244. -/
  | rlld (a : Fin 32) (p : Fin 4)
  /-- RLRD, R244. -/
  | rlrd (a : Fin 32) (p : Fin 4)
  /-- ECALL, R101. -/
  | ecall
  /-- TRAPRET, R102. -/
  | trapret
  /-- BREAK, R101. -/
  | brk
  /-- PTFENCE, R345. -/
  | ptfenceStrand
  /-- PTFENCE, R345. -/
  | ptfenceCore
  /-- PTFENCE, R345. -/
  | ptfenceCluster
  /-- PTFENCE, R345. -/
  | ptfenceDie
  /-- PTFENCE, R345. -/
  | ptfenceSystem
  /-- TLBSYNC, R105. -/
  | tlbsyncStrand
  /-- TLBSYNC, R105. -/
  | tlbsyncCore
  /-- TLBSYNC, R105. -/
  | tlbsyncCluster
  /-- TLBSYNC, R105. -/
  | tlbsyncDie
  /-- TLBSYNC, R105. -/
  | tlbsyncSystem
  /-- XPFENCE, R106. -/
  | xpfence
  /-- PARK, R255. -/
  | park
  /-- YIELD, R256. -/
  | yield
  /-- JEXIT, R379. -/
  | jexit
  /-- BAR, R293. -/
  | bar0
  /-- BAR, R293. -/
  | bar1
  /-- BAR, R293. -/
  | bar2
  /-- BAR, R293. -/
  | bar3
  /-- BAR, R293. -/
  | bar4
  /-- BAR, R293. -/
  | bar5
  /-- BAR, R293. -/
  | bar6
  /-- BAR, R293. -/
  | bar7
  /-- BAR, R293. -/
  | bar8
  /-- BAR, R293. -/
  | bar9
  /-- BAR, R293. -/
  | bar10
  /-- BAR, R293. -/
  | bar11
  /-- BAR, R293. -/
  | bar12
  /-- BAR, R293. -/
  | bar13
  /-- BAR, R293. -/
  | bar14
  /-- BAR, R293. -/
  | bar15
  /-- VFORK, R123. -/
  | vfork2
  /-- VFORK, R123. -/
  | vfork4
  /-- VJOIN, R124. -/
  | vjoin
  /-- VWAIT, R126. -/
  | vwait
  /-- VPREF, R181. -/
  | vpref0
  /-- VPREF, R181. -/
  | vpref1
  /-- VPREF, R181. -/
  | vpref2
  /-- VPREF, R181. -/
  | vpref3
  /-- VPREF, R181. -/
  | vpref4
  /-- VPREF, R181. -/
  | vpref5
  /-- VPREF, R181. -/
  | vpref6
  /-- VPREF, R181. -/
  | vpref7
  /-- VPREF, R181. -/
  | vpref8
  /-- VPREF, R181. -/
  | vpref9
  /-- VPREF, R181. -/
  | vpref10
  /-- VPREF, R181. -/
  | vpref11
  /-- VPREF, R181. -/
  | vpref12
  /-- VPREF, R181. -/
  | vpref13
  /-- VPREF, R181. -/
  | vpref14
  /-- VPREF, R181. -/
  | vpref15
  /-- MZERO, R240. -/
  | mzero0
  /-- MZERO, R240. -/
  | mzero1
  /-- MZERO, R240. -/
  | mzero2
  /-- MZERO, R240. -/
  | mzero3
  /-- RLPASS, R245. -/
  | rlpass
  /-- FRONT_END_ISSUE, R207. -/
  | frontEndIssue (core : Nat)
  /-- SYNC_TRAP_ENTRY, R199. -/
  | syncTrapEntry (strand code tval telem : Nat)
  /-- ASYNC_TRAP_ENTRY, R200. -/
  | asyncTrapEntry (strand : Nat)
  /-- POSTED_STORE_ERROR, R89. -/
  | postedStoreError (strand code addr : Nat)
  /-- WATCHDOG_EXPIRY, R230. -/
  | watchdogExpiry (strand : Nat)
  /-- WATCHDOG_RESET, R230. -/
  | watchdogReset (strand : Nat)
  /-- REGISTER_FILE_ERROR, R229. -/
  | registerFileError (strand : Nat) (scalarReg : Bool) (reg word : Nat)
  /-- HANDLER_START, R250. -/
  | handlerStart (core : Nat)
  /-- RESERVATION_TIMEOUT, R211. -/
  | reservationTimeout (core : Nat)
  /-- GROW_OFFER, R212. -/
  | growOffer (core : Nat)
  /-- LANE_CHANGE, R214. -/
  | laneChange (strand : Nat)
  /-- MESSAGE_ARRIVAL, R257. -/
  | messageArrival (core : Nat)
  /-- MESSAGE_REOFFER, R257. -/
  | messageReoffer (core : Nat)
  /-- CONTINUATION_DELIVERY, R251. -/
  | continuationDelivery (strand : Nat)
  /-- PREEMPT_REQUEST, R266. -/
  | preemptRequest (strand : Nat)
  /-- SAVE_COMPLETE, R268. -/
  | saveComplete (strand : Nat)
  /-- RESUME, R269. -/
  | resume (handle core : Nat)
  /-- RESUME_COMPLETE, R269. -/
  | resumeComplete (strand : Nat)
  /-- VECTOR_INSTRUCTION_START, R219. -/
  | vectorInstructionStart (strand : Nat)
  /-- VECTOR_BEAT, R220. -/
  | vectorBeat (strand : Nat)
  /-- VECTOR_LOAD_DATA_RETURN, R175. -/
  | vectorLoadDataReturn (strand elem addr : Nat)
  /-- REPETITION_REISSUE, R122. -/
  | repetitionReissue (strand : Nat)
  /-- VFORK_SPLIT, R218. -/
  | vforkSplit (strand : Nat)
  /-- VJOIN_REASSEMBLE, R218. -/
  | vjoinReassemble (strand : Nat)
  /-- SFU_REQUEST_SEND, R275. -/
  | sfuRequestSend (core : Nat)
  /-- SFU_SERVICE_START, R277. -/
  | sfuServiceStart (cluster : Nat)
  /-- SFU_RESULT_RETURN, R277: the cluster, and whether an uncorrectable error is the answer (R296). -/
  | sfuResultReturn (cluster : Nat × Bool)
  /-- RLPASS_SEND, R245. -/
  | rlpassSend (strand : Nat)
  /-- RLPASS_TAKE, R245. -/
  | rlpassTake (strand : Nat)
  /-- FENCE_RETIRE, R103. -/
  | fenceRetire (strand : Nat)
  /-- XPFENCE_RETIRE, R106. -/
  | xpfenceRetire (strand : Nat)
  /-- PTFENCE_RETIRE, R345. -/
  | ptfenceRetire (strand : Nat)
  /-- TLBINV_DROP, R346. -/
  | tlbinvDrop (strand : Nat)
  /-- TLBSYNC_RETIRE, R347. -/
  | tlbsyncRetire (strand : Nat)
  /-- PAGE_WALK, R339. -/
  | pageWalk (strand : Nat) (vas : List Nat)
  /-- WALKER_READ_RETURN, R344. -/
  | walkerReadReturn (strand : Nat)
  /-- MG_WAIT_POLL, R352. -/
  | mgWaitPoll (strand : Nat)
  /-- MG_WAIT_TIMEOUT, R352. -/
  | mgWaitTimeout (strand : Nat)
  /-- LOAD_DATA_RETURN, R88. -/
  | loadDataReturn (strand reg size va : Nat) (uncorrectable : Bool)
  /-- HOST_REQUEST_COMPLETION, R445. -/
  | hostRequestCompletion (strand : Nat) (ok : Bool) (data : Nat)
  /-- HOST_COMPLETION_TIMEOUT, R445. -/
  | hostCompletionTimeout (strand : Nat)
  /-- CLM_BANK_ACCESS, R227. -/
  | clmBankAccess (core off owner : Nat) (data : List Nat)
  /-- CSP_BANK_ACCESS, R280. -/
  | cspBankAccess (cluster off owner : Nat) (data : List Nat)
  /-- L2_BANK_ACCESS, R302. -/
  | l2BankAccess (pa owner : Nat) (write : Bool)
  /-- L2_FILL_RETURN, R302. -/
  | l2FillReturn (pa owner : Nat)
  /-- CSM_ACCESS, R307. -/
  | csmAccess (off owner : Nat) (data : List Nat)
  /-- NEAR_BANK_OPERATION, R310. -/
  | nearBankOperation (pa owner op operand : Nat)
  /-- OWNER_SCRUB, R309. -/
  | ownerScrub (granule : Nat)
  /-- L2_PATROL_SCRUB, R312: the visit finds no error (0), a correctable one (1) or an uncorrectable one (any other `found`). -/
  | l2PatrolScrub (bank pa found : Nat)
  /-- LPDDR_SECTOR_SERVICE, R427. -/
  | lpddrSectorService (controller owner : Nat)
  /-- REGULATOR_TOKEN_FILL, R427. -/
  | regulatorTokenFill (controller owner : Nat)
  /-- LPDDR_PATROL_SCRUB, R426. -/
  | lpddrPatrolScrub (sector : Nat)
  /-- DOM_JOIN, R292. -/
  | domJoin (strand slot value : Nat)
  /-- DOM_LEAVE, R295. -/
  | domLeave (strand slot : Nat)
  /-- BARRIER_COUNTER_ERROR, R296. -/
  | barrierCounterError (level unit id : Nat)
  /-- VL_WRITE, R22. -/
  | vlWrite (strand value : Nat)
  /-- VMC_WRITE, R22. -/
  | vmcWrite (strand value : Nat)
  /-- FCSR_WRITE, R24. -/
  | fcsrWrite (strand value : Nat)
  /-- TPRV_HOLD_CLEAR, R201. -/
  | tprvHoldClear (strand : Nat)
  /-- XASID_WRITE, R336. -/
  | xasidWrite (strand value : Nat)
  /-- BERTH_RECORD_PLACE, R284. -/
  | berthRecordPlace (cluster ring flags eaxc sym prb : Nat) (payload : List Nat)
  /-- BRCTL_ENABLE, R282. -/
  | brctlEnable (cluster ring value : Nat)
  /-- BRCTL_CURSOR_ENABLE, R282. -/
  | brctlCursorEnable (cluster ring cursor : Nat)
  /-- ECPRI_UPLANE_FRAME, R398. -/
  | ecpriUplaneFrame (port eaxc sym startPrb numPrb comp : Nat) (bytes : List Nat)
  /-- ECPRI_CPLANE_FRAME, R398. -/
  | ecpriCplaneFrame (port eaxc sym startPrb : Nat) (bytes : List Nat)
  /-- ECPRI_DELAY_MEASUREMENT, R398. -/
  | ecpriDelayMeasurement (port t1 : Nat)
  /-- UNMATCHED_FRAME, R398. -/
  | unmatchedFrame (port : Nat)
  /-- PTP_EVENT_FRAME, R400. -/
  | ptpEventFrame (port offset : Nat) (locked : Bool)
  /-- SYNCE_LOCK_CHANGE, R400. -/
  | synceLockChange (locked : Bool)
  /-- PTM_REQUEST, R449. -/
  | ptmRequest
  /-- JOB_RELEASE, R363. -/
  | jobRelease (handle : Nat)
  /-- PROMOTION_SWEEP, R369. -/
  | promotionSweep
  /-- TIMETABLE_POP, R370. -/
  | timetablePop
  /-- DISPATCH_WITHDRAW, R372. -/
  | dispatchWithdraw (handle : Nat)
  /-- SERVER_BUDGET_EXHAUSTED, R367. -/
  | serverBudgetExhausted (vf : Nat)
  /-- SERVER_SUSPENSION_END, R367. -/
  | serverSuspensionEnd (vf : Nat)
  /-- JSRV_WRITE, R367. -/
  | jsrvWrite (vf value : Nat)
  /-- JOB_END, R378. -/
  | jobEnd (handle status word : Nat)
  /-- DEADLINE_EXPIRY, R380. -/
  | deadlineExpiry (handle : Nat)
  /-- EXIT_ROUTINE_START, R381. -/
  | exitRoutineStart (handle : Nat)
  /-- EXIT_BUDGET_EXPIRY, R381. -/
  | exitBudgetExpiry (handle : Nat)
  /-- COMMAND_ACCEPT, R387. -/
  | commandAccept (engine : Nat)
  /-- FERRY_COPY, R391. -/
  | ferryCopy (engine : Nat)
  /-- FERRY_COPY3, R391. -/
  | ferryCopy3 (engine : Nat)
  /-- FERRY_GATHER, R391. -/
  | ferryGather (engine : Nat)
  /-- FERRY_SCATTER, R391. -/
  | ferryScatter (engine : Nat)
  /-- FERRY_FILL, R391. -/
  | ferryFill (engine : Nat)
  /-- FERRY_MIGRATE, R391. -/
  | ferryMigrate (engine : Nat)
  /-- FERRY_UPDATE, R391. -/
  | ferryUpdate (engine : Nat)
  /-- LDPC_DECODE, R394. -/
  | ldpcDecode (engine : Nat)
  /-- LDPC_ENCODE, R393. -/
  | ldpcEncode (engine : Nat)
  /-- POLAR_ENCODE, R395. -/
  | polarEncode (engine : Nat)
  /-- POLAR_DECODE, R395. -/
  | polarDecode (engine : Nat)
  /-- TX_UPLANE, R396. -/
  | txUplane (engine : Nat)
  /-- TX_CPLANE, R396. -/
  | txCplane (engine : Nat)
  /-- TX_RAW_FRAME, R396. -/
  | txRawFrame (engine : Nat)
  /-- TX_LAUNCH, R396. -/
  | txLaunch (engine : Nat)
  /-- TX_LATE, R396. -/
  | txLate (engine : Nat)
  /-- COMMAND_COMPLETION, R389. -/
  | commandCompletion (engine : Nat)
  /-- CLEARANCE_GO, R409. -/
  | clearanceGo (part : Nat)
  /-- CLEARANCE_DECISION, R413. -/
  | clearanceDecision (part : Nat)
  /-- CLEARANCE_STOP_POINT, R414. -/
  | clearanceStopPoint (part : Nat)
  /-- CLEARANCE_HORIZON, R415. -/
  | clearanceHorizon (part : Nat)
  /-- CLEARANCE_VACANCY, R415. -/
  | clearanceVacancy (part : Nat)
  /-- CLUSTER_RETIREMENT, R419. -/
  | clusterRetirement (cluster : Nat)
  /-- CHANNEL_RETIREMENT, R428. -/
  | channelRetirement (controller : Nat)
  /-- L2CFG_CSMW_WRITE, R308. -/
  | l2cfgCsmwWrite (value : Nat)
  /-- CSM_RESIZE_COMPLETE, R308. -/
  | csmResizeComplete
  /-- L2ERR_DISCARD, R313. -/
  | l2errDiscard (bank : Nat)
  /-- XDIR_WRITE, R337. -/
  | xdirWrite (owner value : Nat)
  /-- XHLOG_DISABLE, R355. -/
  | xhlogDisable (owner : Nat)
  /-- PARTITION_REGISTER_WRITE, R404. -/
  | partitionRegisterWrite (addr value : Nat)
  /-- ACCESS_TABLE_WRITE, R405. -/
  | accessTableWrite (addr value : Nat)
  /-- CLRLOG_WRITE, R418. -/
  | clrlogWrite (value : Nat)
  /-- MKEY_REGEN, R425. -/
  | mkeyRegen (owner : Nat)
  /-- KEY_REGEN_COMPLETE, R425. -/
  | keyRegenComplete (owner : Nat)
  /-- MREG_WRITE, R427. -/
  | mregWrite (controller owner value : Nat)
  /-- PWRCAP_WRITE, R435. -/
  | pwrcapWrite (value : Nat)
  /-- POWER_CAP_EXCEEDED, R435. -/
  | powerCapExceeded
  /-- PARTITION_CAP_EXCEEDED, R435. -/
  | partitionCapExceeded (part : Nat)
  /-- THERMAL_THROTTLE, R436. -/
  | thermalThrottle
  /-- THERMAL_STOP, R436. -/
  | thermalStop
  /-- THERMAL_SUPPLY_REMOVAL, R436. -/
  | thermalSupplyRemoval
  /-- POWER_ON_BOOT, R432. -/
  | powerOnBoot
  /-- HOST_RECOVERY_SUPPLY, R432. -/
  | hostRecoverySupply (table image : List Nat)
  /-- SPDM_REQUEST, R433. -/
  | spdmRequest
  /-- FWHO_START, R434. -/
  | fwhoStart (value : Nat)
  /-- HANDOVER_VERIFIED, R434. -/
  | handoverVerified (ok : Bool)
  /-- HANDOVER_COMMIT, R434. -/
  | handoverCommit
  /-- HOST_MEMORY_REQUEST, R330: of its data, 0 for a read or a write or the number of an AtomicOp, the Relaxed Ordering attribute, the bytes. -/
  | hostMemoryRequest (vf bar off : Nat) (data : Nat × Bool × List Nat)
  /-- ATS_TRANSLATION_RESPONSE, R439. -/
  | atsTranslationResponse (strand : Nat) (found allowed : Bool)
  /-- ATS_TIMEOUT, R439. -/
  | atsTimeout (strand : Nat)
  /-- PRI_RESPONSE, R439. -/
  | priResponse (strand : Nat) (success : Bool)
  /-- PRI_TIMEOUT, R439. -/
  | priTimeout (strand : Nat)
  /-- ATS_INVALIDATION, R439. -/
  | atsInvalidation (vf : Nat)
  /-- SQ_ENABLE, R440. -/
  | sqEnable (vf queue value : Nat)
  /-- SQ_DOORBELL, R440. -/
  | sqDoorbell (vf queue value : Nat)
  /-- SQ_DESCRIPTOR_FETCH, R441. -/
  | sqDescriptorFetch (vf queue desc : Nat)
  /-- SQ_STOP, R443. -/
  | sqStop (vf queue : Nat)
  /-- SQ_STOP_COMPLETE, R443. -/
  | sqStopComplete (vf queue : Nat)
  /-- VF_FLR, R444. -/
  | vfFlr (vf : Nat)
  /-- TWIN_REQUEST, R331: of its data, 0 for a read or a write or 1 + the code of an AMO, and the bytes. -/
  | twinRequest (owner pa : Nat) (data : Nat × List Nat)
  /-- TWIN_LINK_DOWN, R448. -/
  | twinLinkDown
  /-- MIGRATION_EXPORT, R450. -/
  | migrationExport (vf : Nat)
  /-- MIGRATION_QUIESCED, R450. -/
  | migrationQuiesced
  /-- MIGRATION_QUIESCE_TIMEOUT, R450. -/
  | migrationQuiesceTimeout
  /-- MIGRATION_STREAMED, R450. -/
  | migrationStreamed
  /-- MIGRATION_CANCEL, R450. -/
  | migrationCancel
  /-- MIGRATION_IMPORT, R451. -/
  | migrationImport (vf ticket : Nat)
  /-- MIGRATION_SOURCE_DONE, R450. -/
  | migrationSourceDone
  /-- REGISTER_WRITE, R11. -/
  | registerWrite (owner addr size value : Nat)
  /-- TWIN_LINK_UP, R448. -/
  | twinLinkUp
  /-- PTP_HOLDOVER, R400. -/
  | ptpHoldover
  /-- TWIN_PTM_TIME, R449. -/
  | twinPtmTime (time : Nat)
  deriving DecidableEq, Repr

end Sys2Proof
end

