-- ==== Sys2Proof/Machine/State.lean ====
section
/-! DEFINITION. The state of the die, as plain data, and its reset value. -/

namespace Sys2Proof.Machine

/-- The privilege levels of R18; the code 0b10 is never held. -/
inductive Priv where
  | user | supervisor | firmware
  deriving DecidableEq, Repr

/-- The trap CSRs, one set a strand (Table 1.3, Table 1.9). -/
structure Trap where
  /-- STVEC, R20: bits [1:0] read as zero. -/
  stvec : Word
  sscratch : Word
  /-- TCAUSE[8:0]: ASYNC and CODE. -/
  tcause : BitVec 9
  tpc : Word
  tval : Word
  telem : Word
  /-- TIDX3[62:0]: I2, I1, I0. -/
  tidx3 : BitVec 63
  /-- TPRV[8], R201. -/
  hold : Bool
  /-- TPRV[1:0]. -/
  pprv : Priv
  /-- FTVEC, R20. -/
  ftvec : Word
  fscratch : Word
  deriving DecidableEq, Repr

/-- One cached translation (R342): the owner and ASID that may use it, the page, the leaf as it was read and where. -/
structure Copy where
  owner : Nat
  asid : Nat
  /-- The VA of the page, its offset bits clear. -/
  vbase : Nat
  /-- log2 of the page size (Table 18.5). -/
  size : Nat
  /-- The entry's bits as they were read. -/
  pte : Nat
  /-- The physical address of the entry. -/
  entry : Nat
  deriving DecidableEq, Repr

/-- A table-cache entry or a context-cache entry of a walker (R342): the physical address of the table that it names. -/
structure TableCopy where
  owner : Nat
  asid : Nat
  /-- The level of the table that it names; 4, the root, for a context-cache entry. -/
  level : Nat
  /-- The VA bits above that table's reach, bits [63:9·level+21]. -/
  vtop : Nat
  table : Nat
  deriving DecidableEq, Repr

/-- The element tags of Table 1.10. -/
inductive Tag where
  | raw | i32 | ui32 | i16 | ui16 | i8 | ui8 | f32 | bf16 | f16 | e4m3 | e5m2 | ci16 | cbf16 | cf32
  deriving DecidableEq, Repr

/-- A stream descriptor (Table 7.1). XLAT0 and XLAT1 are the list `xlat`, at most two translations. -/
structure Desc where
  base : Word
  space : BitVec 2
  tag : BitVec 4
  len0 : BitVec 21
  len1 : BitVec 21
  len2 : BitVec 21
  stride0 : BitVec 32
  stride1 : BitVec 32
  stride2 : BitVec 32
  i0 : BitVec 21
  i1 : BitVec 21
  i2 : BitVec 21
  xlat : List Copy
  deriving DecidableEq, Repr

/-- The zero descriptor of a handler's start (R17). -/
def Desc.zero : Desc := ⟨0, 0, 0, 0, 0, 0, 0, 0, 0, 0, 0, 0, []⟩

/-- One captured instruction of a repetition (R121, R223): its word, the VA it was captured at, the scalar operand that it read at its
capture, and the element tags as it found them. -/
structure Captured where
  word : Nat
  va : Word
  scalar : Word
  tags : List (Nat × Tag)
  deriving DecidableEq, Repr

/-- The repetition buffer slot of a context (R121 to R123, R223 to R225). -/
structure Rep where
  /-- Instructions still to be captured. -/
  toCapture : Nat
  /-- ROT of the VREP. -/
  rot : Bool
  /-- The captured body, oldest first. -/
  body : List Captured
  /-- t of R122. -/
  t : Nat
  /-- The body position of the next re-issue. -/
  pos : Nat
  /-- Re-issues remain (t at least 1, R122). -/
  running : Bool
  /-- R225: a re-issue trapped. While instructions remain to be captured: a trap handler runs, whose instructions are not captured. -/
  suspended : Bool
  /-- The privilege of the VREP. -/
  priv : Priv
  /-- `VL`, `STRIP` and `STRIPN` of the strip that is issued, and the `VSTART` of a re-issue that resumes (R122, R225). -/
  vl : Nat
  strip : Nat
  stripn : Nat
  vstart : Nat
  /-- `VMC` and `FCSR` as they stood after the body: later writes do not reach a re-issue (R110, R225). -/
  vmc : BitVec 7
  fcsr : BitVec 9
  deriving DecidableEq, Repr

/-- An empty slot. -/
def Rep.empty : Rep := ⟨0, false, [], 0, 0, false, false, .user, 0, 0, 0, 0, 0, 0⟩

/-- An instruction in the vector queue (R25, R109, R110, Table 12.11): what it took at its issue, and how far it is. -/
structure Slot where
  /-- The slot's number, 0 to 31. -/
  num : Nat
  word : Nat
  pc : Word
  /-- The first word not completed (Table 1.8). -/
  idx : Nat
  /-- `VL`, `VMC` and `VSTART` at issue, the element tags, and FCSR, whose flags are those of the words completed so far (R24). -/
  vl : Nat
  vmc : BitVec 7
  vstart : Nat
  tags : List (Nat × Tag)
  fcsr : BitVec 9
  /-- The descriptor that it names, at its start position (R171), with the translations of its probe (R350). -/
  desc : Desc
  /-- The scalar operand and the VMVS index (Table 12.11). -/
  scalar : Word
  index : Word
  /-- It came from the repetition buffer; its names are rotated by this many registers (R122). -/
  rep : Bool
  shift : Nat
  /-- A VREP captures it when it ends (R225). -/
  capture : Bool
  /-- Word n of its destination depends on word n of each source, all in one layout, so it chains word by word (R220). -/
  linear : Bool
  /-- The special-function unit has answered a request of it with an uncorrectable error (R296). -/
  error : Bool
  /-- It has started (R219), and it has settled (R191). -/
  started : Bool
  settled : Bool
  /-- Its probe has passed (R173), at this step count. -/
  probed : Bool
  probedAt : Nat
  /-- The first word that the hotness counters have not been given (R355). -/
  counted : Nat
  /-- The step count at which it entered the queue (R276). -/
  entered : Nat
  deriving DecidableEq, Repr

/-- A forked family as one of its strands sees it (R123): `n` children, 0 outside a family; this strand's index; child 0's strand
number; and the lane groups of the parent. -/
structure Fork where
  n : Nat
  index : Nat
  root : Nat
  gm : BitVec 4
  deriving DecidableEq, Repr

/-- Not in a family. -/
def Fork.none : Fork := ⟨0, 0, 0, 0⟩

/-- The vector context of a strand (Table 1.1). It exists while `gm` is not zero. -/
structure VCtx where
  /-- LGRANT.GM: the lane groups held, a bit each (Table 1.6). -/
  gm : BitVec 4
  vl : Nat
  /-- VMC[6:0] (Table 1.4). -/
  vmc : BitVec 7
  vstart : Nat
  strip : Nat
  stripn : Nat
  /-- DTIME of the last LOOPV (Table 21.5). -/
  loopT : Nat
  /-- Words of v0 to v31: word n of register r at key 256·r + n; unlisted words are zero. -/
  v : List (Nat × VWord)
  /-- Element tags by register; unlisted tags are raw (Table 1.10). -/
  tags : List (Nat × Tag)
  /-- Tile words: row r and column c of ac z at key 4096·z + 64·r + c. -/
  tiles : List (Nat × VWord)
  /-- Dirty tiles, a bit each (R232). -/
  dirty : BitVec 4
  /-- m0 to m7. -/
  masks : List (Nat × BitVec 2048)
  mf : BitVec 2048
  /-- The recorded cause of each set bit of mf, as its fault code (R195). -/
  mfc : List (Nat × Nat)
  /-- sd0 to sd15. -/
  sd : List (Nat × Desc)
  /-- PIX[n] (Table 1.8). -/
  pix : List (Nat × BitVec 18)
  /-- The vector queue, oldest first (R25, R109). -/
  queue : List Slot
  rep : Rep
  fork : Fork
  deriving DecidableEq, Repr

/-- No vector context (R20: its CSRs read zero). -/
def VCtx.absent : VCtx := ⟨0, 0, 0, 0, 0, 0, 0, [], [], [], 0, [], 0, [], [], [], [], Rep.empty, Fork.none⟩

/-- What a strand waits for. A waiting strand has not retired the instruction at its PC and executes it again when the wait ends
(R107, R207). -/
inductive Wait where
  /-- No wait. -/
  | ready
  /-- PARK (R255). -/
  | park
  /-- JWAIT (R376). -/
  | jwait
  /-- BRNEXT (R286). -/
  | brnext
  /-- BAR or BARWT (R293). -/
  | barrier
  /-- VFORK waits for free strands (R123). -/
  | fork
  /-- VJOIN: a child that has ended, or child 0 that waits for the others (R124). -/
  | join
  /-- RLPASS waits (R245). -/
  | ring
  /-- TLBSYNC has not retired (R105). -/
  | fence
  /-- A walk met MG = 1 (R352). -/
  | migrating
  /-- A request to the host or twin window is outstanding (R108, R445). -/
  | host
  /-- Stopped and being saved (R266). -/
  | saving
  /-- Being read back (R269). -/
  | restoring
  /-- Stopped by an abandonment, before its exit routine starts (R380). -/
  | exit
  /-- SEND or SENDC: the destination has not accepted the message (R257). -/
  | send
  /-- ENQ or ENQR: no engine has accepted the command (R385). -/
  | enq
  /-- The strand stopped (R202). -/
  | stopped
  deriving DecidableEq, Repr

/-- What a request on the host or twin link asks (R92, R438, R446). -/
inductive LinkOp where
  | read | write
  /-- The AtomicOps of R92. -/
  | fetchAdd | swap | cas
  /-- Another AMO, by its op of R63: the twin's near-bank units perform it. -/
  | amo (op : Nat)
  /-- A message to a core of the twin (R447): its 64 bytes are the first operand. -/
  | message
  /-- An answer to the other side: the completion of its request, of a PTM request (R449, `DTIME`) or of an ATS invalidation (R439);
  without `ok`, Unsupported Request. -/
  | reply (ok : Bool)
  deriving DecidableEq, Repr

/-- Where a request of a strand to the host or the twin window stands. -/
inductive LinkPhase where
  /-- The link has asked the host for a translation (R439). -/
  | translating
  /-- It has sent a Page Request (R439). -/
  | paging
  /-- The request has left the die (R108). -/
  | sent
  deriving DecidableEq, Repr

/-- A request of a strand to the host or the twin window (R108, R445, R446): what it asks and what its completion does. -/
structure HostReq where
  twin : Bool
  op : LinkOp
  /-- The destination register; 32 for none, 33 where the data goes to `Run.linkData`. -/
  reg : Nat
  /-- Bytes. -/
  size : Nat
  /-- The result is sign-extended. -/
  signed : Bool
  va : Word
  pa : Nat
  /-- The operands that it carries. -/
  a : Nat
  b : Nat
  /-- An AMO (R92): its failure is code 0x2C. -/
  atomic : Bool
  /-- Of an AMO at scope .y its order field: 1 acquire, 2 release, 3 both (R93); else 0. -/
  order : Nat
  /-- Nothing orders it behind an earlier request of its strand: it carries Relaxed Ordering (R330). -/
  relaxed : Bool
  phase : LinkPhase
  /-- The translation that the access was made through, and the step count of its request (R347). -/
  copy : Copy
  made : Nat
  /-- The strand's job was abandoned: the completion is discarded (R108). -/
  cancelled : Bool
  deriving DecidableEq, Repr

/-- A request that was abandoned with its strand after it had left the die (R108): it still performs, and its completion, which comes before
that of any later request of the strand number, is discarded. -/
structure Orphan where
  strand : Nat
  owner : Nat
  asid : Nat
  req : HostReq
  deriving DecidableEq, Repr

/-- What the completion of a request brought that no scalar register takes (a vector word, a descriptor, an instruction word): its VA, a
fault code or 0, and the data. The instruction that asked takes it when it executes again. -/
structure LinkData where
  va : Word
  code : Nat
  data : Nat
  deriving DecidableEq, Repr

/-- A message that has left the die on the host link or the twin link. -/
structure LinkMsg where
  twin : Bool
  owner : Nat
  op : LinkOp
  addr : Nat
  /-- Bytes. -/
  size : Nat
  a : Nat
  b : Nat
  /-- 1 + the PASID that it carries, or 0 (R438, R440). -/
  pasid : Nat
  /-- The Relaxed Ordering attribute of PCIe (R330). -/
  relaxed : Bool
  deriving DecidableEq, Repr

/-- What a context has sent to the host window, as the order of its later requests needs it (R330): the place, whether it reads and writes,
whether its page is device-ordered, and whether every later load, and every later store, follows it at system scope (Table 17.3). -/
structure HostSent where
  pa : Nat
  size : Nat
  load : Bool
  store : Bool
  device : Bool
  loads : Bool
  stores : Bool
  deriving DecidableEq, Repr

/-- A posted write to the host that waits for its translation (R439): the message, whether it waits for a page, and the DTIME at which the
present wait began. -/
structure Held where
  msg : LinkMsg
  paging : Bool
  since : Nat
  deriving DecidableEq, Repr

/-- A write that has left its issuer and has not performed: a posted write to the twin window, which performs when the twin's bank accepts it
(R319, R331); one to the host window that waits for its translation and performs when it is sent (R319, R439); or a write that cleared EN of an
`XDIR`, which completes when nothing translated for the owner is outstanding (R337). -/
structure Posted where
  /-- The strand, 2048 + the engine, or 4096 for none. -/
  source : Nat
  /-- The issuer's owner; of an `XDIR` the owner that it names. -/
  owner : Nat
  twin : Bool
  /-- The device's translation, the address, and the step count at which it left (R347, R448). -/
  copy : Copy
  va : Nat
  made : Nat
  held : Option Held
  deriving DecidableEq, Repr

/-- An asynchronous cause due to a strand (R200): the fault code and the address in the error record. -/
structure Cause where
  code : Nat
  addr : Nat
  deriving DecidableEq, Repr

/-- An invalidation that the strand has issued and no TLBSYNC has covered yet (R104, R105). -/
structure Inval where
  owner : Nat
  asid : Nat
  base : Nat
  count : Nat
  all : Bool
  /-- The step count at which it was issued. -/
  stamp : Nat
  deriving DecidableEq, Repr

/-- What a strand is, beyond its registers. -/
inductive Kind where
  /-- Holds no context. -/
  | free
  /-- A strand of a job, root or auxiliary (R376, R378). -/
  | root | aux
  /-- A child of a fork (R123). -/
  | child
  /-- A job's exit routine (R381). -/
  | exiting
  /-- Firmware of the Tollhouse column: belongs to no job (R454). -/
  | column
  deriving DecidableEq, Repr

/-- Who the strand works for, and its progress. -/
structure Ident where
  kind : Kind
  /-- Owner ID (Table 21.1). -/
  owner : Nat
  /-- JOBID. -/
  job : BitVec 32
  /-- The generation of the strand's context, for continuation IDs (R254). -/
  gen : Nat
  /-- The home strand and generation a continuation ID names: core·8 + strand (R254, R263). -/
  home : Nat
  /-- LGRANT.MIN and PREF, lane groups. -/
  minG : Nat
  prefG : Nat
  deriving DecidableEq, Repr

/-- A message (R248): the header's fields and the payload's six doublewords. The job whose strand sent it, or that is dispatched, is the
model's own field, as is the mark of a sender that belongs to no job (R250, R454). -/
structure Msg where
  owner : Nat
  asid : Nat
  score : Nat
  sstr : Nat
  twin : Bool
  lmin : Nat
  lpref : Nat
  /-- ORIG: 0 strand, 1 engine, 2 Timetable dispatch. -/
  orig : Nat
  /-- KIND: a continuation. -/
  cont : Bool
  target : Nat
  payload : List Word
  job : Nat
  noJob : Bool
  deriving DecidableEq, Repr

/-- Where an absent context is (R262). -/
inductive Away where
  /-- SAVED: the physical address of its save area. -/
  | saved (area : Nat)
  /-- MOVED: the number of the strand where it runs. -/
  | moved (strand : Nat)
  /-- ENDED with engine commands outstanding. -/
  | ended
  deriving DecidableEq, Repr

/-- An entry of a core's absent-context table (R262). -/
structure Absent where
  strand : Nat
  gen : Nat
  owner : Nat
  at_ : Away
  deriving DecidableEq, Repr

/-- A command of an engine (R387, R388), in a queue slot of its partition. -/
structure Cmd where
  /-- Class ‖ instance: 32·class + instance (R384). -/
  engine : Nat
  /-- The partition whose slot it holds; 0 for firmware's share (R455). -/
  part : Nat
  owner : Nat
  asid : Nat
  job : Nat
  core : Nat
  strand : Nat
  /-- The issuing context's home identity: core·8 + strand, and its generation (R261). -/
  home : Nat
  gen : Nat
  noJob : Bool
  /-- The eight doublewords. -/
  words : List Nat
  /-- The command block's VA, 0 for ENQR. -/
  block : Nat
  /-- It has finished with a status and the payload's doublewords 1 to 3 (R389). -/
  done : Option (Nat × Nat × Nat × Nat)
  /-- A transmit frame that waits for its TXTIME (R396): its bytes. -/
  frame : List Nat
  /-- 1 + the DTIME at which it met a leaf with MG = 1, or 0 (R352). -/
  since : Nat
  /-- Bytes of the destination sequence written so far (R391), and the DTIME of its acceptance. -/
  prog : Nat
  accepted : Nat
  /-- The words that its reads may still return as they were before a store of the issuing strand (R327). -/
  stale : List (Nat × Nat)
  deriving DecidableEq, Repr

/-- The states of a job (Table 19.2). -/
inductive JState where
  | pending | ready | dispatching | running | saved | checkpointed | exiting | ended
  deriving DecidableEq, Repr

/-- A barrier counter (R291, R292): its owner plus 1, 0 where it is free. -/
structure Barrier where
  owner : Nat
  count : Nat
  members : Nat
  arrivals : Nat
  /-- P. -/
  phase : Nat
  deriving DecidableEq, Repr

/-- A free counter. -/
def Barrier.free : Barrier := ⟨0, 0, 0, 0, 0⟩

/-- A child that has ended at its VJOIN (R124): its index, its share of the registers, which stays in the lanes, and its FCSR. -/
structure Joined where
  index : Nat
  ctx : VCtx
  fcsr : BitVec 9
  deriving DecidableEq, Repr

/-- A save slot of a job (R375): the slot, the context in it by its home strand and generation, and what the Timetable keeps of it. -/
structure Saved where
  slot : Nat
  home : Nat
  gen : Nat
  kind : Kind
  minG : Nat
  prefG : Nat
  loopT : Nat
  /-- The strand it was saved on; its domain slots, kept up to date with the counters that it stays a member of (R293, R295); its own
  strand-level counter; its BAR phases (R294). -/
  last : Nat
  dom : List (Nat × Nat)
  own : Barrier
  barPhase : List (Nat × Nat)
  /-- What the save area has no place for (log 68): its queue and repetition as they stood, VL in program order, the privilege and XASID that a
changed area may not raise, the first fetch of a handler, the causes due and the watchdog's, data that a link has brought, when its TLBINVs were
issued, and what it has sent to the host window. -/
  queue : List Slot
  rep : Rep
  vl : Nat
  priv : Priv
  xasid : BitVec 16
  entering : Bool
  causes : List Cause
  watchdog : Bool
  linkData : List LinkData
  stamps : List Nat
  hostLog : List HostSent
  /-- Of child 0: the children that have ended, whose registers it holds with its own (R124, R266). -/
  joined : List Joined
  deriving DecidableEq, Repr

/-- A job of the Timetable (R358 to R381). -/
structure Job where
  /-- Generation, 1 to 65,535; 0 for an entry never used. -/
  gen : Nat
  vf : Nat
  owner : Nat
  asid : Nat
  /-- The descriptor, 512 bits (Table 19.1). -/
  desc : Nat
  state : JState
  /-- 1 DONE, 2 ABANDONED, 3 ABANDONED_UNSTARTED, 4 CLEARED; 0 none yet. -/
  status : Nat
  /-- JDONE's status word. -/
  word : Nat
  count : Nat
  filled : Nat
  tally : Nat
  /-- The exit routine's VA and budget (R360). -/
  exitVa : Nat
  budget : Nat
  /-- The root strand while it has one. -/
  root : Option Nat
  /-- Save slots held (R375). -/
  slots : List Saved
  /-- It has started: it has reached DISPATCHING (R361). -/
  begun : Bool
  /-- It was abandoned while saved: only its scalar part is restored, for its exit routine (R380). -/
  bare : Bool
  /-- The cause of its abandonment, and the status it will end with (R381). -/
  cause : Nat
  pend : Nat
  /-- It is in the urgent tier (R368). -/
  urgent : Bool
  /-- Its bank of the main tier. -/
  bank : Nat
  /-- A core that the next placement avoids, and until when (R372). -/
  avoid : Option (Nat × Nat)
  /-- It started early with a count above 0 (R373). -/
  early : Bool
  /-- The core it is placed on while DISPATCHING, and since when. -/
  placed : Option (Nat × Nat)
  /-- A pre-emption of it is pending: 1 for budget or key, 2 for a Clearance checkpoint. -/
  preempt : Nat
  /-- DTIME at the exit routine's start. -/
  exitAt : Nat
  /-- Order of ending, for the reuse of entries (R362). -/
  order : Nat
  /-- Nanoseconds spent RUNNING before the present start (Table 21.5), and that start. -/
  run : Nat
  runSince : Nat
  /-- The host queue that submitted it, with the descriptor's number (R441). -/
  queue : Option (Nat × Nat)
  deriving DecidableEq, Repr

/-- An entry never used. -/
def Job.unused : Job where
  gen := 0
  vf := 0
  owner := 0
  asid := 0
  desc := 0
  state := .ended
  status := 0
  word := 0
  count := 0
  filled := 0
  tally := 0
  exitVa := 0
  budget := 0
  root := none
  slots := []
  begun := false
  bare := false
  cause := 0
  pend := 0
  urgent := false
  bank := 0
  avoid := none
  early := false
  placed := none
  preempt := 0
  exitAt := 0
  order := 0
  run := 0
  runSince := 0
  queue := none

/-- A lane group's entry of the lane allocation table (R208, Table 10.3): the strand that owns it and the strand that a pending change
gives it to. -/
structure LatEntry where
  own : Option Nat
  pend : Option Nat
  deriving DecidableEq, Repr

/-- A reservation of a core (R211): the strand that waits, the job dispatched to it, its block and the DTIME it was made at. -/
structure Reservation where
  strand : Nat
  job : Nat
  /-- The handler message that waits; none for a resume. -/
  msg : Option Msg
  groups : BitVec 4
  since : Nat
  /-- `CCTL`.RGWIN as it stood, in µs. -/
  window : Nat
  deriving DecidableEq, Repr

/-- The ring latch of a core (Table 11.5): the words of CUR and INC that are not zero, by column. -/
structure Latch where
  cur : List (Nat × VWord)
  inc : List (Nat × VWord)
  full : Bool
  tag : Tag
  owner : Option Nat
  deriving DecidableEq, Repr

/-- A released latch (R243). -/
def Latch.released : Latch := ⟨[], [], false, .raw, none⟩

/-- What a core holds beside its strands. -/
structure CoreS where
  /-- The lane allocation table, groups 0 to 3 (R208). -/
  lat : List LatEntry
  /-- Reservations that wait (R211), oldest first. -/
  reservations : List Reservation
  latch : Latch
  /-- CCTL (Table 10.4). -/
  wdog : BitVec 16
  rgwin : BitVec 16
  /-- Handler messages in the landing queue, oldest first (R257). -/
  handlers : List Msg
  /-- Continuations in the slots of a strand, oldest first (R257). -/
  conts : List (Nat × Msg)
  /-- Messages offered and not yet accepted, oldest first (R257). -/
  offers : List Msg
  /-- The absent-context table (R262). -/
  absent : List Absent
  /-- The generation of each strand, by its number on the core (R261). -/
  gens : List (Nat × Nat)
  deriving DecidableEq, Repr

/-- A core with nothing leased. -/
def CoreS.empty : CoreS := ⟨[⟨none, none⟩, ⟨none, none⟩, ⟨none, none⟩, ⟨none, none⟩], [], Latch.released, 0x4000, 20,
  [], [], [], [], []⟩

/-- Where a strand stands between instructions. -/
structure Run where
  wait : Wait
  /-- DTIME at which the wait began. -/
  since : Nat
  /-- The step count of the last issue, 0 for never (R207). -/
  lastIssue : Nat
  /-- The next fetch is the first of a trap handler (R202). -/
  entering : Bool
  hostReq : Option HostReq
  linkData : List LinkData
  /-- Asynchronous causes due, oldest first (R200, R201). -/
  causes : List Cause
  invals : List Inval
  /-- Continuations of the save-area ring that the resumed context has still to take at its PARKs (R269), oldest first. -/
  ring : List Msg
  /-- The step count at which the strand last retired an instruction (R230). -/
  retired : Nat
  /-- By slot, the phase plus one that a BAR which has not retired arrived in (R293, R294). -/
  barPhase : List (Nat × Nat)
  /-- A watchdog cause has been raised and not yet taken, and the step count at which it was (R201, R230). -/
  watchdog : Bool
  watchdogAt : Nat
  /-- What the context has sent to the host window (R330). -/
  hostLog : List HostSent
  /-- Children that a waiting VFORK asks for (R123). -/
  forkN : Nat
  /-- The RLPASS at the PC has made its send (R245). -/
  passSent : Bool
  /-- What the 4-byte words that the strand has stored to since its last XPFENCE held before each store (R106, R327), latest first: address and
  word. -/
  unfenced : List (Nat × Nat)
  deriving DecidableEq, Repr

/-- A strand (Table 1.1). -/
structure Strand where
  pc : Word
  regs : Vector Word 32
  priv : Priv
  /-- FCSR[8:0] (Table 1.5). -/
  fcsr : BitVec 9
  trap : Trap
  /-- XASID (Table 18.1). -/
  xasid : BitVec 16
  /-- FXSEL (Table 18.2). -/
  fxsel : BitVec 9
  /-- DOM0 to DOM15 (R291); bit 64 marks a slot whose counter an error has freed (R296). -/
  dom : List (Nat × Nat)
  ctx : VCtx
  /-- Of child 0: the other children that have ended (R124). -/
  joined : List Joined
  id : Ident
  run : Run
  deriving DecidableEq, Repr

/-- A strand that holds no context. -/
def Strand.empty : Strand where
  pc := 0
  regs := Vector.replicate 32 0
  priv := .user
  fcsr := 0
  trap := ⟨0, 0, 0, 0, 0, 0, 0, false, .user, 0, 0⟩
  xasid := 0
  fxsel := 0
  dom := []
  ctx := VCtx.absent
  joined := []
  id := ⟨.free, 0, 0, 0, 0, 0, 0⟩
  run := ⟨.ready, 0, 0, false, none, [], [], [], [], 0, [], false, 0, [], 0, false, []⟩

/-- An L2 line (R301): its way in its set, its place in the order of use (R302), its owner, and valid, dirty and error-held sectors, a bit
each. -/
structure Line where
  way : Nat
  used : Nat
  owner : Nat
  valid : BitVec 4
  dirty : BitVec 4
  held : BitVec 4
  deriving DecidableEq, Repr

/-- No line. -/
def Line.none : Line := ⟨0, 0, 0, 0, 0, 0⟩

/-- The memories (R300) with their protection. -/
structure Mem where
  /-- Bytes by physical address: LPDDR 6 (as its owner's plaintext), CSM, CSPs, CLMs. -/
  bytes : List Host.Cell
  /-- Who encrypted each 16-byte block of LPDDR 6: 0 never written, else 1 + owner + 512·key generation (R424, R425). -/
  keys : List (Nat × Nat)
  /-- Key generation of each owner, counted by MKEY writes (R425). -/
  gens : List (Nat × Nat)
  /-- Owner tag of each 4 KiB block of an on-die memory: 0 none, else 1 + owner (R228, R309). -/
  otags : List (Nat × Nat)
  /-- Granules of each such block whose clean bit is 0 (R309). -/
  unclean : List (Nat × BitVec 64)
  /-- Words (pa / 8) of a CLM or CSP, or sectors (8·(pa / 128) + 2 to the 60) of LPDDR 6 and CSM, with an uncorrectable error. -/
  errs : List (Nat × Bool)
  /-- L2 lines by pa / 512. -/
  lines : List (Nat × Line)
  /-- The LPDDR 6 contents beneath each dirty sector: 128 bytes, then its 8 key tags (R302, R313). -/
  under : List (Nat × List Nat)
  /-- Accesses to the L2, counted for the order of use (R302). -/
  uses : Nat
  deriving DecidableEq, Repr

/-- Cached translations (R342). -/
structure Xlat where
  /-- Core TLBs by core number, youngest first. -/
  coreTlb : List (Nat × List Copy)
  /-- Cluster TLBs by cluster number, youngest first. -/
  clusterTlb : List (Nat × List Copy)
  /-- The table cache and the context cache of each walker, youngest first. -/
  tables : List (Nat × List TableCopy)
  roots : List (Nat × List TableCopy)
  deriving DecidableEq, Repr

/-- What an error record reports (R436): the code, the strand it concerns (2048 for none), and the address or other detail. -/
structure ErrRec where
  code : Nat
  strand : Nat
  addr : Nat
  deriving DecidableEq, Repr

/-- Work that a step leaves for the Timetable to do next (log 1): nothing else of the machine moves before it is done. -/
inductive Due where
  /-- A strand stopped (R202), or its core asks for its job's end (R229, R230). -/
  | strandFailed (strand : Nat)
  /-- The front end takes its next instruction from this strand (R207). -/
  | issue (strand : Nat)
  /-- The instruction in this slot of a strand's vector queue processes its elements below `upTo` (R220, R277). -/
  | beat (strand num upTo : Nat)
  /-- The instruction that has started in this slot makes its probe (R173, R219). -/
  | probe (strand num : Nat)
  /-- The strand's vector queue goes on. -/
  | vector (strand : Nat)
  /-- The next instruction of the strand's repetition enters the queue (R223). -/
  | reissue (strand : Nat)
  /-- A write of a memory-mapped register has reached its block (R11): whether firmware made it, address, bytes and value. -/
  | regWrite (firmware : Bool) (pa size value : Nat)
  /-- A job that a host queue submitted has ended (R378, R441): VF, queue, descriptor number, handle, status, status word, and DTIME. -/
  | report (vf queue desc handle status word time : Nat)
  /-- An error that the L2 met on the way to memory is to be recorded (R406, R436): its code and address. -/
  | record (code addr : Nat)
  deriving DecidableEq, Repr

/-- An entry of the hotness cache (R355): its owner, the page's frame and log2 of its size, and the three counters. -/
structure Hot where
  owner : Nat
  frame : Nat
  size : Nat
  unit : Nat
  strided : Nat
  indexed : Nat
  deriving DecidableEq, Repr

/-- A request of the special-function unit (R275 to R277): its strand and slot, the end of its elements, the age of its instruction, and
whether its service has begun. -/
structure SfuReq where
  strand : Nat
  num : Nat
  upTo : Nat
  age : Nat
  served : Bool
  deriving DecidableEq, Repr

/-- A walk in progress (R339, R344): its translation context and VA, the level of the table that its next read reaches, 5 for the directory,
that table, and the invalidations that have reached it (R346). -/
structure Walk where
  owner : Nat
  asid : Nat
  va : Nat
  level : Nat
  table : Nat
  marks : List Inval
  deriving DecidableEq, Repr

/-- A job's decision under a Clearance order (R413): its kind, 0 RUN, 1 CHECKPOINT, 2 DISCARD, DTIME, E, D⁺ and k; the outcome 4 or 5 that a
discard at the stop point gives it, or 0; and whether its outcome has been reported. -/
structure Pick where
  job : Nat
  kind : Nat
  at_ : Nat
  est : Nat
  dplus : Nat
  k : Nat
  overran : Nat
  closed : Bool
  deriving DecidableEq, Repr

/-- A Clearance order beyond the registers of its slot: t_a; how far it has come (0 posted, 1 accepted, 2 decided, 3 past H − B, 4 past H);
and its decisions. -/
structure Order where
  since : Nat
  stage : Nat
  picks : List Pick
  deriving DecidableEq, Repr

/-- An Ethernet frame that a port has sent, with the DTIME of its first bit (R396). -/
structure Frame where
  port : Nat
  time : Nat
  bytes : List Nat
  deriving DecidableEq, Repr

/-- The fronthaul ports: frames and sections dropped by port (R398), the SEQ_ID counter of each eAxC (R396, key 65,536·port + eAxC), and
the frames sent, newest first. -/
structure Ports where
  drops : List (Nat × Nat)
  seqIds : List (Nat × Nat)
  frames : List Frame
  deriving DecidableEq, Repr

/-- An attestation response (R433, R434): phase, the active and the incoming measurement and version, and LMSST. -/
structure Evidence where
  phase : Nat
  active : Nat
  version : Nat
  incoming : Nat
  incomingVersion : Nat
  lmsst : Bool
  deriving DecidableEq, Repr

/-- The package (R430 to R436). -/
structure Pkg where
  /-- The configuration table and the firmware image in use. -/
  table : List Nat
  image : List Nat
  /-- `MEAS`[0] to `MEAS`[2]. -/
  meas : List Nat
  /-- The version of the active image, and the measurement and version of the incoming one in phase 2. -/
  version : Nat
  incoming : Nat
  incomingVersion : Nat
  /-- The role mask of each Tollhouse core. -/
  roles : List Nat
  /-- The reason in the host recovery mailbox: the boot step that failed. -/
  mailbox : Nat
  /-- The identity fuse counter and the LMS signatures used in this boot (R433). -/
  leaves : Nat
  signed : Nat
  /-- Responses sent, newest first. -/
  evidence : List Evidence
  /-- 25 MHz steps by which both clocks are lowered (R435, R436). -/
  steps : Nat
  /-- Partitions whose clusters' issue is throttled. -/
  throttled : List Nat
  /-- 115 °C has been reached: no core issues (R436). -/
  hot : Bool
  deriving DecidableEq, Repr

/-- A submission queue (Table 24.3) with its internal CQ tail and phase. -/
structure Sq where
  base : Nat
  cqBase : Nat
  asid : Nat
  /-- The PASID, and whether it is carried. -/
  pasid : Nat
  pv : Bool
  en : Bool
  stop : Bool
  stopped : Bool
  sqLog : Nat
  cqLog : Nat
  tail : Nat
  head : Nat
  cqHead : Nat
  cqTail : Nat
  /-- Completion entries written and not consumed. -/
  used : Nat
  phase : Bool
  deriving DecidableEq, Repr

/-- A queue after reset. -/
def Sq.reset : Sq := ⟨0, 0, 0, 0, false, false, false, false, 0, 0, 0, 0, 0, 0, 0, false⟩

/-- The migration engine (Tables 24.6, 24.7): the VF and the direction that it works on, those that `MIGCTL` holds, its other fields and
`MIGTKT`, DTIME of the quiesce, and the queues that it stopped. -/
structure Mig where
  vf : Nat
  dir : Bool
  nextVf : Nat
  nextDir : Bool
  state : Nat
  why : Nat
  ticket : Nat
  since : Nat
  queues : List Nat
  /-- Tickets that an import has used up (R451). -/
  spent : List Nat
  deriving DecidableEq, Repr

/-- The die: everything but the strands. -/
structure Die where
  mem : Mem
  xlat : Xlat
  /-- Every memory-mapped register that does not hold its reset value, by physical address (Table 0.4). -/
  mmio : List (Nat × Word)
  /-- DTIME, PTP nanoseconds (R400). -/
  dtime : Nat
  /-- Steps taken; the argument of the free values (log 13). -/
  clock : Nat
  /-- WIDTH of the Tollhouse column, from the configuration table (R430, R431); 0 before boot step 8. -/
  width : Nat
  /-- Error records written since power-on, newest first (R436). -/
  errlog : List ErrRec
  due : List Due
  /-- Tickets drawn from the die-wide sequence counter (R93, R326). -/
  tickets : Nat
  /-- Messages sent on the host and twin links, newest first. -/
  sent : List LinkMsg
  /-- Writes that have left their issuer and have not performed, oldest first (R319, R333, R337). -/
  posted : List Posted
  /-- Completion entries of jobs that wait for the writes of their owner posted before them, with the step count of the report (R442). -/
  reports : List (Nat × Due)
  /-- Requests whose completion is discarded (R108), oldest first. -/
  orphans : List Orphan
  /-- AtomicOp Requester Enable of each owner's function (R445). -/
  atomicEn : List (Nat × Bool)
  cores : List (Nat × CoreS)
  /-- Barrier counters by level, unit and ID (R291): key 2^20·level + 64·unit + ID. -/
  barriers : List (Nat × Barrier)
  /-- The hotness cache, most recently used first (R355). -/
  hot : List Hot
  /-- The job table, by handle index (R359). -/
  jobs : List (Nat × Job)
  /-- Jobs that have ended, counted for the reuse of entries (R362). -/
  endings : Nat
  /-- The Timetable's LFSR (R370). -/
  lfsr : BitVec 16
  /-- The partition that the last pop served (R370). -/
  popTurn : Nat
  /-- Engine commands accepted and not ended, oldest first (R387). -/
  cmds : List Cmd
  /-- `missed` of each berth ring (R284): key 16·cluster + ring. -/
  missed : List (Nat × Nat)
  /-- Requests that hold a return token, oldest sent first (R275). -/
  sfu : List SfuReq
  /-- Walks in progress, by strand (R344, R354). -/
  walks : List (Nat × List Walk)
  /-- Clearance orders by source partition (R408). -/
  orders : List (Nat × Order)
  /-- Clusters that have retired (R419), and the channels that have, by controller (R428). -/
  retired : List Nat
  lost : List (Nat × Nat)
  /-- Tokens of the bandwidth regulators (R427): key 512·controller + owner, floor and ceiling bucket. -/
  tokens : List (Nat × (Nat × Nat))
  ports : Ports
  pkg : Pkg
  /-- Submission queues (R440): key 16·VF + queue. -/
  sqs : List (Nat × Sq)
  mig : Mig
  deriving DecidableEq, Repr

/-- The state of the machine. -/
structure State where
  /-- The issuing strand. -/
  me : Strand
  /-- Its number, core·8 + strand (R206). -/
  meId : Nat
  /-- Every other strand that holds a context. -/
  others : List (Nat × Strand)
  die : Die
  /-- What happens next outside the strands: events of the opcode table, in order (log 1). -/
  agenda : List Instr
  deriving DecidableEq, Repr

/-- Why the machine stops. -/
inductive Fault where
  /-- Raised by a step when BOOTST = 14: LPDDR 6 training failed and the boot ROM stopped (R432). Safe: nothing runs after it. -/
  | bootStopped
  deriving DecidableEq, Repr

/-- Why an instruction has no meaning. -/
inductive Refusal where
  /-- Raised by a dispatch arm that has no meaning yet. Safe: nothing is claimed of the instruction. -/
  | notModelled (mnemonic : String)
  deriving DecidableEq, Repr

/-- No memory written, no tag, no line. -/
def Mem.reset : Mem := ⟨[], [], [], [], [], [], [], [], 0⟩

/-- The die after power-on. -/
def Die.reset : Die where
  mem := Mem.reset
  xlat := ⟨[], [], [], []⟩
  mmio := []
  dtime := 0
  clock := 0
  width := 0
  errlog := []
  due := []
  tickets := 0
  sent := []
  posted := []
  reports := []
  orphans := []
  atomicEn := []
  cores := []
  barriers := []
  hot := []
  jobs := []
  endings := 0
  lfsr := 0xACE1
  popTurn := 0
  cmds := []
  missed := []
  sfu := []
  walks := []
  orders := []
  retired := []
  lost := []
  tokens := []
  ports := ⟨[], [], []⟩
  pkg := ⟨[], [], [], 0, 0, 0, [], 0, 0, 0, [], 0, [], false⟩
  sqs := []
  mig := ⟨0, false, 0, false, 0, 0, 0, 0, [], []⟩

/-- The machine right after power-on (R432): core 0 about to run the boot ROM, every other core held in reset. -/
def State.reset : State where
  me := Strand.empty
  meId := 0
  others := []
  die := Die.reset
  agenda := []

end Sys2Proof.Machine
end

