-- ==== Sys2Proof/Machine/Phys.lean ====
section
/-! DEFINITION. Physical memory: the map of Table 16.5, access tables, the L2, owner tags, memory encryption and errors. A request
here lies within one 128-byte sector. An answer is a fault code of Table 8.6 or the result with the die after it. -/

namespace Sys2Proof.Machine

/-- Little-endian bytes of a number (R9). -/
def leBytes : Nat → Nat → List Byte
  | 0, _ => []
  | n + 1, v => BitVec.ofNat 8 v :: leBytes n (v / 256)

/-- A number from little-endian bytes (R9). -/
def leVal : List Byte → Nat
  | [] => 0
  | b :: bs => b.toNat + 256 * leVal bs

/-- Bits [hi:lo] of a number. -/
def bits (x hi lo : Nat) : Nat := x / 2 ^ lo % 2 ^ (hi + 1 - lo)

/-- Replace bits [hi:lo] of a number. -/
def putBits (x hi lo v : Nat) : Nat :=
  x - bits x hi lo * 2 ^ lo + v % 2 ^ (hi + 1 - lo) * 2 ^ lo

/-! ### Memory-mapped registers -/

/-- The reset value of a memory-mapped register, where it is not zero: BRCTL.LOG2S is 16 (Table 14.5), JSRV.T is 1,000 (Table
19.4), JPART.PROMO is 40 (Table 19.6). -/
def mmioReset (pa : Nat) : Word :=
  if 0x200001000000 ≤ pa ∧ pa < 0x200001400000 ∧ pa % 0x10000 < 0x1000 ∧ pa % 0x100 = 0 then 0x10000
  else if 0x200004000000 ≤ pa ∧ pa < 0x200004002000 ∧ pa % 32 = 0 then BitVec.ofNat 64 (1000 * 2 ^ 32)
  else if 0x200004002010 ≤ pa ∧ pa < 0x2000040020D0 ∧ pa % 16 = 0 then 40
  else 0

/-- The stored value of a register. -/
def Die.reg (d : Die) (pa : Nat) : Nat := (sget 0 d.mmio pa ^^^ mmioReset pa).toNat

/-- Store a register. -/
def Die.setReg (d : Die) (pa v : Nat) : Die :=
  { d with mmio := sset 0 d.mmio pa (BitVec.ofNat 64 v ^^^ mmioReset pa) }

/-- Add to a counter register, modulo 2^64. -/
def Die.addReg (d : Die) (pa n : Nat) : Die := d.setReg pa (d.reg pa + n)

/-- Telemetry field at `off` of owner `o`'s page (Table 23.3). -/
def telemetry (o off : Nat) : Nat := 0x200009000000 + 0x100 * o + off

/-! ### Targets and access tables -/

/-- What a physical address names (Table 16.5). -/
inductive Target where
  | lpddr
  | csm (off : Nat)
  | csp (cluster off : Nat)
  | clm (core off : Nat)
  | mmio
  | hostWindow
  | twinWindow
  | hole
  deriving DecidableEq, Repr

/-- The CSM ways in use, `L2CFG`.CSMW (Table 16.2). -/
def Die.csmWays (d : Die) : Nat := bits (d.reg 0x200002000000) 3 0

/-- The physical map (R300, Table 16.5); the CLMs and the CSPs stand at the addresses of R226 and R279. -/
def Die.target (d : Die) (pa : Nat) : Target :=
  if pa < 0x4000000000 then (if pa < 0x2000000000 || !Config.smallPart then .lpddr else .hole)
  else if pa < 0x100000000000 then .hole
  else if pa < 0x100008000000 then
    (if pa - 0x100000000000 < d.csmWays * 0x1000000 then .csm (pa - 0x100000000000) else .hole)
  else if pa < 0x110000000000 then .hole
  else if pa < 0x110008000000 then .csp ((pa - 0x110000000000) / 0x200000) ((pa - 0x110000000000) % 0x200000)
  else if pa < 0x120000000000 then .hole
  else if pa < 0x120004000000 then .clm ((pa - 0x120000000000) / 0x40000) ((pa - 0x120000000000) % 0x40000)
  else if pa < 0x200000000000 then .hole
  else if pa < 0x200010000000 then
    (if 1 ≤ (pa - 0x200000000000) / 0x1000000 ∧ (pa - 0x200000000000) / 0x1000000 ≤ 12 then .mmio else .hole)
  else if pa < 0x800000000000 then .hole
  else if pa < 0xC00000000000 then .hostWindow
  else .twinWindow

/-- A core of the Tollhouse column (R430). -/
def Die.isColumn (d : Die) (core : Nat) : Bool := core % 32 == 0 && core / 32 < d.width

/-- Whether target `t` admits owner `o` to read or to write (R405): owner 0 always; the CLM and the landing queue of a Tollhouse core
admit owner 0 alone (R430). -/
def Die.admits (d : Die) (t o : Nat) (write : Bool) : Bool :=
  o == 0 ||
    (!(decide (0x200 ≤ t ∧ t < 0x400) && d.isColumn (t % 0x100)) &&
      let n := 2 * o + (if write then 1 else 0)
      d.reg (0x200006000000 + 128 * t + 8 * (n / 64)) / 2 ^ (n % 64) % 2 == 1)

/-- Whether a target admits an access with the reads and writes it makes (R405). -/
def Die.admitsRW (d : Die) (t o : Nat) (r w : Bool) : Bool :=
  (!r || d.admits t o false) && (!w || d.admits t o true)

/-- The L2 bank of an LPDDR 6 address (R305). -/
def l2Bank (pa : Nat) : Nat :=
  8 * bits pa 24 21 + (bits pa 11 9 ^^^ bits pa 14 12 ^^^ bits pa 17 15 ^^^ bits pa 20 18)

/-- The L2 set of an LPDDR 6 address (R305). -/
def l2Set (pa : Nat) : Nat := bits pa 19 12 ^^^ bits pa 32 25 ^^^ bits pa 40 33 ^^^ bits pa 47 41

/-- The colour of an address (R305, R306). -/
def l2Colour (pa : Nat) : Nat := bits pa 24 21

/-- The LPDDR 6 controller of an address (R423). -/
def lpController (pa : Nat) : Nat := bits pa 11 9 ^^^ bits pa 23 21

/-- The access-table target of memory (Table 21.3). -/
def tableOf (pa : Nat) : Target → Nat
  | .csm _ => 0x080
  | .csp c _ => 0x100 + c
  | .clm n _ => 0x200 + n
  | _ => l2Bank pa

/-! ### Encryption -/

/-- The key tag of an owner now (R424, R425). -/
def Mem.keyOf (m : Mem) (o : Nat) : Nat := 1 + o + 512 * sget 0 m.gens o

/-- The stored bytes of an address range. -/
def Mem.raw (m : Mem) (pa n : Nat) : List Byte := sgetAll 0 m.bytes pa n

/-- One byte of LPDDR 6 as an owner reads it: its own plaintext, or what its key makes of another key's ciphertext (R303, R424). -/
def Mem.lpByte (m : Mem) (o pa : Nat) : Byte :=
  let k := sget 0 m.keys (pa / 16)
  if k = 0 ∨ k = m.keyOf o then sget 0 m.bytes pa
  else Config.decrypt k (m.keyOf o) (m.raw (pa / 16 * 16) 16) pa

/-- Make an owner the writer of a 16-byte block: the bytes it does not write keep the value that it reads there (R302). -/
def Mem.rekey (m : Mem) (o blk : Nat) : Mem :=
  let k := sget 0 m.keys blk
  if k = m.keyOf o then m
  else { m with
    bytes := if k = 0 then m.bytes else ssetAll 0 m.bytes (16 * blk) ((List.range 16).map fun i => m.lpByte o (16 * blk + i))
    keys := sset 0 m.keys blk (m.keyOf o) }

/-- Make an owner the writer of `n` blocks from `blk`. -/
def Mem.rekeyAll (m : Mem) (o : Nat) : Nat → Nat → Mem
  | _, 0 => m
  | blk, n + 1 => (m.rekey o blk).rekeyAll o (blk + 1) n

/-- The 16-byte blocks that `n` bytes at `pa` touch. -/
def blocksOf (pa n : Nat) : Nat := if n = 0 then 0 else (pa + n - 1) / 16 + 1 - pa / 16

/-! ### The L2 -/

/-- The key of an LPDDR 6 or CSM sector, and of an L2 set, in the list of errors. -/
def errSector (pa : Nat) : Nat := 2 ^ 60 + pa / 128
def errSet (bank set : Nat) : Nat := 2 ^ 61 + 256 * bank + set

/-- The set that a CSM address lies in (R307), as a key of the list of errors. -/
def csmSet (pa : Nat) : Nat := errSet (bits pa 15 9) (bits pa 23 16)

/-- The contents of a sector of LPDDR 6, to be kept under a dirty sector: 128 bytes and 8 key tags. -/
def Mem.snapshot (m : Mem) (sector : Nat) : List Nat :=
  (m.raw (128 * sector) 128).map BitVec.toNat ++ sgetAll 0 m.keys (8 * sector) 8

/-- Restore a sector of LPDDR 6 from its snapshot: its dirty data is lost (R313, R406, R425). -/
def Mem.restore (m : Mem) (sector : Nat) : Mem :=
  match sget [] m.under sector with
  | [] => m
  | l => { m with
    bytes := ssetAll 0 m.bytes (128 * sector) ((l.take 128).map (BitVec.ofNat 8))
    keys := ssetAll 0 m.keys (8 * sector) (l.drop 128)
    under := sdel m.under sector }

/-- Write back sector `k` of a line if it is dirty (R302, R303): checked at the controller under the line's owner, which an error record
reports (R406); the record is written in the next step. -/
def Die.writeBackSector (d : Die) (line : Nat) (l : Line) (k : Nat) : Die :=
  if l.dirty.getLsbD k then
    let pa := 512 * line + 128 * k
    if d.admits (0x400 + lpController pa) l.owner true then
      ({ d with mem := { d.mem with under := sdel d.mem.under (4 * line + k) } }).addReg (telemetry l.owner 0x18) 128
    else
      { d with mem := d.mem.restore (4 * line + k), due := d.due ++ [.record 0x12 pa] }
  else d

/-- Write back a line and invalidate it, its error-held sectors excepted (R303, R312). -/
def Die.evict (d : Die) (line : Nat) : Die :=
  let l := sget Line.none d.mem.lines line
  let d := d.writeBackSector line { l with dirty := l.dirty &&& ~~~l.held } 0
  let d := d.writeBackSector line { l with dirty := l.dirty &&& ~~~l.held } 1
  let d := d.writeBackSector line { l with dirty := l.dirty &&& ~~~l.held } 2
  let d := d.writeBackSector line { l with dirty := l.dirty &&& ~~~l.held } 3
  { d with mem := { d.mem with
      lines := sset Line.none d.mem.lines line
        (if l.held = 0 then Line.none else { l with valid := l.valid &&& l.held, dirty := l.dirty &&& l.held }) } }

/-- The lines that hold a place in the set of `pa`. -/
def Mem.inSet (m : Mem) (pa : Nat) : List (Nat × Line) :=
  m.lines.filter fun e => l2Bank (512 * e.1) == l2Bank pa && l2Set (512 * e.1) == l2Set pa

/-- The last use of a set. -/
def Mem.lastUse (m : Mem) (pa : Nat) : Nat := (m.inSet pa).foldl (fun n e => Nat.max n e.2.used) 0

/-- The lines that a tree pseudo-LRU may name as the victim (R302): error-held lines keep their way, and the line used last is never it (log
75). -/
def Mem.victims (m : Mem) (pa : Nat) : List (Nat × Line) :=
  let ls := (m.inSet pa).filter fun e => e.2.held = 0
  if ls.length ≤ 1 then ls else ls.filter fun e => e.2.used != m.lastUse pa

/-- Make room in the set of `pa` (R302): where every cache way is taken, the victim is evicted. -/
def Die.makeRoom (d : Die) (pa : Nat) : Die :=
  let vs := d.mem.victims pa
  if (d.mem.inSet pa).length + d.csmWays < 12 then d
  else match vs[Config.victim d.clock % vs.length]? with
    | some e => d.evict e.1
    | none => d

/-- The lowest cache way of the set of `pa` that no line holds (R301, R307), if any. -/
def Die.freeWay (d : Die) (pa : Nat) : Option Nat :=
  (List.range (12 - d.csmWays)).find? fun w => !((d.mem.inSet pa).any fun e => e.2.way == w)

/-- An access that misses where no way of the set can be had performs at LPDDR 6 uncached (R312): `whole` where it writes the sector whole. -/
def Die.uncached (d : Die) (o pa : Nat) (write whole : Bool) : Except Nat Die :=
  if write && !d.admits (0x400 + lpController pa) o true then .error 0x12
  else
    let d := if write then d.addReg (telemetry o 0x18) 128 else d
    .ok (if whole then { d with mem := { d.mem with errs := sset false d.mem.errs (errSector pa) false } } else d)

/-- Bring the sector of `pa` into the L2 for an owner (R302, R303, R312, R406), or let the access pass uncached where every way holds an
error-held sector, one of another owner's in its own line among them. `fetch` says that its old contents are needed; `write` that it becomes
dirty. The answer is a fault code or the die. -/
def Die.l2Access (d : Die) (o pa : Nat) (fetch write : Bool) : Except Nat Die :=
  let line := pa / 512
  let k := pa / 128 % 4
  if sget false d.mem.errs (errSet (l2Bank pa) (l2Set pa)) then .error 0x70
  else
    let l := sget Line.none d.mem.lines line
    if l.held.getLsbD k && fetch then .error 0x70
    else
      let d := if l.owner ≠ o ∧ l ≠ Line.none then d.evict line else d
      let l := sget Line.none d.mem.lines line
      let hit := l.valid.getLsbD k && l.owner == o
      if !hit && fetch && !d.admits (0x400 + lpController pa) o false then .error 0x12
      else if !hit && fetch && sget false d.mem.errs (errSector pa) then .error 0x70
      else
        let d := if !hit && fetch then d.addReg (telemetry o 0x10) 128 else d
        let d := if l = Line.none then d.makeRoom pa else d
        let l := sget Line.none d.mem.lines line
        match (if l = Line.none then d.freeWay pa else if l.owner = o then some l.way else none) with
        | none => d.uncached o pa write (write && !fetch)
        | some way =>
          let bit : BitVec 4 := BitVec.ofNat 4 (2 ^ k)
          let fresh := write && !l.dirty.getLsbD k
          let m := d.mem
          let m := { m with
            lines := sset Line.none m.lines line
              ⟨way, m.uses + 1, o, l.valid ||| bit, if write then l.dirty ||| bit else l.dirty,
                if write && !fetch then l.held &&& ~~~bit else l.held⟩
            under := if fresh then sset [] m.under (pa / 128) (m.snapshot (pa / 128)) else m.under
            errs := if write && !fetch then sset false m.errs (errSector pa) false else m.errs
            uses := m.uses + 1 }
          .ok { d with mem := m }

/-! ### On-die memories -/

/-- Give a 4 KiB block to an owner (R228, R309): a new owner clears every clean bit. -/
def Mem.retag (m : Mem) (o blk : Nat) : Mem :=
  if sget 0 m.otags blk = o + 1 then m
  else { m with otags := sset 0 m.otags blk (o + 1), unclean := sset 0 m.unclean blk (BitVec.allOnes 64) }

/-- Zero a granule whose clean bit is 0 and set the bit (R309). -/
def Mem.cleanGranule (m : Mem) (g : Nat) : Mem :=
  let u := sget 0 m.unclean (g / 64)
  if u.getLsbD (g % 64) then
    { m with
      bytes := ssetAll 0 m.bytes (64 * g) (List.replicate 64 0)
      unclean := sset 0 m.unclean (g / 64) (u &&& ~~~BitVec.ofNat 64 (2 ^ (g % 64))) }
  else m

/-- One byte of an on-die memory as its block's owner reads it (R309). -/
def Mem.dieByte (m : Mem) (pa : Nat) : Byte :=
  if (sget 0 m.unclean (pa / 4096)).getLsbD (pa / 64 % 64) then 0 else sget 0 m.bytes pa

/-- Clean the granules that `n` bytes at `pa` touch (at most three). -/
def Mem.cleanFor (m : Mem) (pa n : Nat) : Mem :=
  if n = 0 then m
  else
    let g := pa / 64
    let h := (pa + n - 1) / 64
    ((m.cleanGranule g).cleanGranule (if g + 1 ≤ h then g + 1 else g)).cleanGranule h

/-- The error words of a CLM or CSP that a range touches. -/
def Mem.errWords (m : Mem) (pa n : Nat) : List Nat :=
  ((List.range ((pa + n - 1) / 8 + 1 - pa / 8)).map (pa / 8 + ·)).filter fun w => sget false m.errs w

/-! ### Requests -/

/-- Read `n` bytes at `pa` for owner `o`: a fault code, or the bytes and the die. The memory-mapped registers and the windows of the host
and the twin are not reached here. -/
def Die.physRead (d : Die) (o pa n : Nat) : Except Nat (List Byte × Die) :=
  let t := d.target pa
  match t with
  | .lpddr =>
    if d.admits (tableOf pa t) o false then
      match d.l2Access o pa true false with
      | .error c => .error c
      | .ok d => .ok ((List.range n).map fun i => d.mem.lpByte o (pa + i), d)
    else .error 0x12
  | .csm _ =>
    if d.admits 0x080 o false then
      if sget false d.mem.errs (csmSet pa) || sget false d.mem.errs (errSector pa) then .error 0x70
      else
        let m := d.mem.retag o (pa / 4096)
        .ok ((List.range n).map fun i => m.dieByte (pa + i), { d with mem := m })
    else .error 0x12
  | .csp _ _ | .clm _ _ =>
    if d.admits (tableOf pa t) o false then
      let m := d.mem.retag o (pa / 4096)
      if m.errWords pa n ≠ [] then .error 0x70
      else .ok ((List.range n).map fun i => m.dieByte (pa + i), { d with mem := m })
    else .error 0x12
  | .mmio | .hostWindow | .twinWindow | .hole => .error 0x10

/-- Write bytes at `pa` for owner `o`: a fault code, with nothing written, or the die. -/
def Die.physWrite (d : Die) (o pa : Nat) (bs : List Byte) : Except Nat Die :=
  let t := d.target pa
  match t with
  | .lpddr =>
    if d.admits (tableOf pa t) o true then
      match d.l2Access o pa (bs.length < 128) true with
      | .error c => .error c
      | .ok d =>
        let m := d.mem.rekeyAll o (pa / 16) (blocksOf pa bs.length)
        .ok { d with mem := { m with bytes := ssetAll 0 m.bytes pa bs } }
    else .error 0x12
  | .csm _ =>
    if d.admits 0x080 o true then
      if sget false d.mem.errs (csmSet pa) || (sget false d.mem.errs (errSector pa) && bs.length < 128) then .error 0x70
      else
        let m := (d.mem.retag o (pa / 4096)).cleanFor pa bs.length
        .ok { d with mem := { m with bytes := ssetAll 0 m.bytes pa bs, errs := sset false m.errs (errSector pa) false } }
    else .error 0x12
  | .csp _ _ | .clm _ _ =>
    if d.admits (tableOf pa t) o true then
      let m := d.mem.retag o (pa / 4096)
      let bad := m.errWords pa bs.length
      if bad.any fun w => decide (8 * w < pa ∨ pa + bs.length < 8 * w + 8) then .error 0x70
      else
        let m := m.cleanFor pa bs.length
        .ok { d with mem := { m with
          bytes := ssetAll 0 m.bytes pa bs
          errs := bad.foldl (fun e w => sset false e w false) m.errs } }
    else .error 0x12
  | .mmio | .hostWindow | .twinWindow | .hole => .error 0x10

/-- An error that an error record has told of already: a held sector or set of the L2 (R312). -/
def Die.heldError (d : Die) (pa : Nat) : Bool :=
  match d.target pa with
  | .lpddr => sget false d.mem.errs (errSet (l2Bank pa) (l2Set pa)) || (sget Line.none d.mem.lines (pa / 512)).held.getLsbD (pa / 128 % 4)
  | .csm _ => sget false d.mem.errs (csmSet pa) || sget false d.mem.errs (errSector pa)
  | _ => false

/-- Write an error record (R436): into the list of records and, where `ERRLOG`.EN is 1, as the next 32 bytes of the ring in LPDDR 6 under owner
0x000, with `ERRWP` after it. -/
def Die.errorRecord (d : Die) (code strand addr : Nat) : Die :=
  let d := { d with errlog := ⟨code, strand, addr⟩ :: d.errlog }
  let log := d.reg 0x20000A000200
  let wp := d.reg 0x20000A000208
  if log % 2 = 1 then
    let d := match d.physWrite 0 (bits log 47 12 * 4096 + 32 * (wp % 2 ^ (8 + bits log 11 8))) ((List.range 32).map (Config.errorByte wp)) with
      | .ok d => d
      | .error _ => d
    d.setReg 0x20000A000208 ((wp + 1) % 2 ^ 32)
  else d

/-- An access of a strand, or of none (2048), has consumed data: an uncorrectable error is recorded too (R6). -/
def Die.readError (d : Die) (code strand pa : Nat) : Die := if code = 0x70 ∧ !d.heldError pa then d.errorRecord 0x70 strand pa else d

/-- Read a longer range, sector by sector; the answer also says how many bytes were read before a fault. -/
def Die.readLong (d : Die) (o : Nat) : Nat → Nat → Nat → List Byte × Die × Option Nat
  | _, _, 0 => ([], d, none)
  | pa, n, fuel + 1 =>
    if n = 0 then ([], d, none)
    else
      let c := Nat.min n (128 - pa % 128)
      match d.physRead o pa c with
      | .error e => ([], d, some e)
      | .ok (bs, d) =>
        let (rest, d, e) := d.readLong o (pa + c) (n - c) fuel
        (bs ++ rest, d, e)

/-- Write a longer range, sector by sector; the answer also gives the code of a fault and how many bytes were written before it. -/
def Die.writeLong (d : Die) (o : Nat) : Nat → List Byte → Nat → Die × Option (Nat × Nat)
  | _, _, 0 => (d, none)
  | pa, bs, fuel + 1 =>
    if bs = [] then (d, none)
    else
      let c := Nat.min bs.length (128 - pa % 128)
      match d.physWrite o pa (bs.take c) with
      | .error e => (d, some (e, 0))
      | .ok d =>
        match d.writeLong o (pa + c) (bs.drop c) fuel with
        | (d, some (e, k)) => (d, some (e, k + c))
        | (d, none) => (d, none)

end Sys2Proof.Machine
end

