-- ==== Sys2Proof/Machine/Xlat.lean ====
section
/-! DEFINITION. Address translation (chapter 18): walks, cached copies, accessed and dirty bits, invalidation. -/

namespace Sys2Proof.Machine

/-- What an access does with its bytes. -/
inductive Acc where
  | fetch | read | write
  /-- An AMO, VAMO or VREDM: read and write. -/
  | rmw
  deriving DecidableEq, Repr

/-- The access reads. -/
def Acc.reads : Acc → Bool
  | .write => false
  | _ => true

/-- The access counts as a write (R343). -/
def Acc.writes : Acc → Bool
  | .write | .rmw => true
  | _ => false

/-- The answer of a translation: a physical address with its memory type and the translation used, a fault code, or a leaf with MG = 1, which
no copy is made of. -/
inductive XRes where
  | ok (pa mt : Nat) (c : Copy) (d : Die)
  | fault (code : Nat) (d : Die)
  | migrating (c : Copy) (d : Die)
  deriving DecidableEq, Repr

/-- The answer of a walk. -/
inductive WalkRes where
  | leaf (c : Copy) (d : Die)
  | fault (code : Nat) (d : Die)
  | migrating (c : Copy) (d : Die)
  deriving DecidableEq, Repr

/-- `XDIR`[o] (Table 18.3). -/
def xdirAddr (o : Nat) : Nat := 0x200003000000 + 8 * o

/-- The directory of an owner. -/
def Die.xdir (d : Die) (o : Nat) : Nat := bits (d.reg (xdirAddr o)) 47 19 * 2 ^ 19

/-- Flag bit `i` of a table entry. -/
def pteBit (p i : Nat) : Bool := p / 2 ^ i % 2 == 1

/-- The frame or next table of an entry (Table 18.4). -/
def pteFrame (p : Nat) : Nat := bits p 47 12 * 4096

/-- The memory type of a leaf. -/
def pteMt (p : Nat) : Nat := bits p 9 8

/-- An entry that the walker treats as not present although V = 1 (R338, R339). -/
def malformed (p lv : Nat) : Bool :=
  bits p 63 56 != 0 || bits p 51 48 != 0 || pteBit p 11 ||
    (if pteBit p 7 then lv == 3 || lv == 4
     else lv == 0 || bits p 6 1 != 0 || bits p 10 8 != 0 || decide (Config.lpddrBytes ≤ pteFrame p))

/-! ### Walks (R339) -/

/-- The entry of a table of a level that a walk for a VA reads; level 5 is the directory, indexed by the ASID (R337). -/
def entryAt (asid va lv t : Nat) : Nat :=
  t + 8 * (if lv = 5 then asid else if lv = 4 then bits va 53 48 else bits va (9 * lv + 20) (9 * lv + 12))

/-- What an entry says (R339). -/
inductive Entry where
  | fault
  /-- The table of the level below. -/
  | table (t : Nat)
  | leaf (c : Copy)
  | migrating (c : Copy)
  deriving DecidableEq, Repr

/-- An entry `p`, read at `e`, of a table of level `lv`; a leaf with C = 1 stands for the 16 entries of its group (R340). -/
def readEntry (o asid va lv e p : Nat) : Entry :=
  if lv = 5 then (if !pteBit p 0 || bits p 63 48 != 0 || bits p 11 1 != 0 then .fault else .table (pteFrame p))
  else if !pteBit p 0 || malformed p lv then .fault
  else if pteBit p 7 then
    let s := 12 + 9 * lv + (if pteBit p 6 then 4 else 0)
    let c : Copy := ⟨o, asid, va / 2 ^ s * 2 ^ s, s, p, e⟩
    if pteFrame p % 2 ^ s ≠ 0 then .fault else if pteBit p 10 then .migrating c else .leaf c
  else .table (pteFrame p)

/-- A walker read of eight bytes under the context's owner (R344). -/
def Die.walkRead (d : Die) (o pa : Nat) : Except (Nat × Die) (Nat × Die) :=
  match d.physRead o pa 8 with
  | .error c => .error (c, d.readError c 2048 pa)
  | .ok (bs, d) => .ok (leVal bs, d)

/-- The walker of a core's accesses, one a cluster, and that of an engine's commands (R342, R354 number no walkers: log 11). -/
def walkerOf (core : Nat) : Nat := core / 4
def engineWalker (engine : Nat) : Nat := 64 + engine

/-- A walker keeps an entry: of a table in its table cache of 32, of the directory in its context cache (R342; its size: log 11). -/
def Die.keepTable (d : Die) (k : Nat) (t : TableCopy) : Die :=
  let x := d.xlat
  let put (m : List (Nat × List TableCopy)) : List (Nat × List TableCopy) := sset [] m k ((t :: (sget [] m k).filter (· != t)).take 32)
  { d with xlat := if t.level = 4 then { x with roots := put x.roots } else { x with tables := put x.tables } }

/-- The walk of walker `k` from a table of level `lv` (R339). -/
def Die.walkFrom (d : Die) (k o asid va : Nat) : Nat → Nat → WalkRes
  | lv, t =>
    let e := entryAt asid va lv t
    match d.walkRead o e with
    | .error (c, d) => .fault c d
    | .ok (p, d) => match readEntry o asid va lv e p with
      | .fault => .fault 0x10 d
      | .leaf c => .leaf c d
      | .migrating c => .migrating c d
      | .table t => match lv with
        | 0 => .fault 0x10 d
        | l + 1 => (d.keepTable k ⟨o, asid, l, va / 2 ^ (9 * l + 21), t⟩).walkFrom k o asid va l t

/-- The deepest table on the way to `va` that walker `k` has cached (R342). -/
def Die.tableFor (d : Die) (k o asid va : Nat) : Option TableCopy :=
  ((sget [] d.xlat.tables k ++ sget [] d.xlat.roots k).filter fun t =>
      t.owner == o && t.asid == asid && t.vtop == va / 2 ^ (9 * t.level + 21)).foldl
    (fun best t => match best with
      | none => some t
      | some b => if t.level < b.level then some t else some b) none

/-- Where a walk starts: a level and its table. -/
def Die.walkStart (d : Die) (k o asid va : Nat) : Nat × Nat :=
  match d.tableFor k o asid va with
  | some t => (t.level, t.table)
  | none => (5, d.xdir o)

/-- A walk for `va` in the translation context of owner `o`, ASID `asid` and the root of the owner's directory (R335, R339). -/
def Die.walk (d : Die) (k o asid va : Nat) : WalkRes :=
  d.walkFrom k o asid va (d.walkStart k o asid va).1 (d.walkStart k o asid va).2

/-! ### Cached translations (R342) -/

/-- Whether a copy serves a VA. -/
def Copy.covers (c : Copy) (o asid va : Nat) : Bool :=
  c.owner == o && c.asid == asid && va / 2 ^ c.size * 2 ^ c.size == c.vbase

/-- The physical address that a copy gives. -/
def Copy.pa (c : Copy) (va : Nat) : Nat := pteFrame c.pte + va % 2 ^ c.size

/-- Keep a translation in the core and cluster TLBs (64 and 4,096 entries). -/
def Die.keepCopy (d : Die) (core : Nat) (c : Copy) : Die :=
  let x := d.xlat
  { d with xlat := { x with
    coreTlb := sset [] x.coreTlb core ((c :: sget [] x.coreTlb core).take 64)
    clusterTlb := sset [] x.clusterTlb (core / 4) ((c :: sget [] x.clusterTlb (core / 4)).take 4096) } }

/-- A cached translation for `va`: the descriptor's own (R169), the core TLB, the cluster TLB. -/
def Die.findCopy (d : Die) (core o asid va : Nat) (own : List Copy) : Option Copy :=
  match own.find? fun c => c.covers o asid va with
  | some c => some c
  | none =>
    match (sget [] d.xlat.coreTlb core).find? fun c => c.covers o asid va with
    | some c => some c
    | none => (sget [] d.xlat.clusterTlb (core / 4)).find? fun c => c.covers o asid va

/-- The checks of a leaf (R341, R3): a fault code, or none. A posted store to a hole is reported by an error record (R300). -/
def Die.leafFault (d : Die) (c : Copy) (pa : Nat) (a : Acc) : Option Nat :=
  let p := c.pte
  let t := d.target pa
  let normal := pteMt p == 0 || (pteMt p == 3 && t != .hostWindow)
  if t = .hole ∧ a ≠ .write then some 0x10
  else if (a == .fetch && !(pteBit p 3 && normal)) || (a != .fetch && a.reads && !pteBit p 1) || (a.writes && !pteBit p 2)
  then some 0x11
  else if t = .mmio && pteMt p != 1 then some 0x11
  else if t = .twinWindow && decide (0xE00000000000 ≤ pa) then some 0x11
  else none

/-- The memory type of an access through a leaf: every CSM access is normal (R307). -/
def Die.memType (d : Die) (c : Copy) (pa : Nat) : Nat :=
  match d.target pa with
  | .csm _ => 0
  | _ => pteMt c.pte

/-- A translation found, after the checks of its leaf. -/
def Die.admitLeaf (d : Die) (c : Copy) (va : Nat) (a : Acc) : XRes :=
  match d.leafFault c (c.pa va) a with
  | some f => .fault f d
  | none => .ok (c.pa va) (d.memType c (c.pa va)) c d

/-- Translate a VA outside the local window and check the leaf, without setting A or D. -/
def Die.translate (d : Die) (core o asid va : Nat) (a : Acc) (own : List Copy) : XRes :=
  if d.reg (xdirAddr o) % 2 = 0 then .fault 0x10 d
  else
    match d.findCopy core o asid va own with
    | some c => d.admitLeaf c va a
    | none =>
      match d.walk (walkerOf core) o asid va with
      | .fault c d => .fault c d
      | .migrating c d => .migrating c d
      | .leaf c d => (d.keepCopy core c).admitLeaf c va a

/-! ### Walks together (R354) -/

/-- How far one of the walks that go together has come: the table of its next read, or its end. -/
inductive Joint where
  | on (level table : Nat)
  | leaf (c : Copy)
  | migrating (c : Copy)
  | fault (code : Nat)
  deriving DecidableEq, Repr

/-- Read entries, each once, in order. -/
def Die.readEntries (d : Die) (o : Nat) : List Nat → List (Nat × Except Nat Nat) × Die
  | [] => ([], d)
  | e :: t => match d.walkRead o e with
    | .error (c, d) => let (r, d) := d.readEntries o t; ((e, .error c) :: r, d)
    | .ok (p, d) => let (r, d) := d.readEntries o t; ((e, .ok p) :: r, d)

/-- The walks at a level take one read of each distinct entry; the tables that they reach are kept. -/
def Die.walkLevel (d : Die) (k o asid lv : Nat) (ws : List (Nat × Joint)) : List (Nat × Joint) × Die :=
  let es := (ws.filterMap fun w => match w.2 with
    | .on l t => if l = lv then some (entryAt asid w.1 lv t) else none
    | _ => none).eraseDups
  let (rs, d) := d.readEntries o es
  let go (w : Nat × Joint) : Nat × Joint := (w.1, match w.2 with
    | .on l t => if l ≠ lv then .on l t
      else match rs.find? fun r => r.1 == entryAt asid w.1 lv t with
        | some (e, .ok p) => (match readEntry o asid w.1 lv e p with
          | .fault => .fault 0x10
          | .leaf c => .leaf c
          | .migrating c => .migrating c
          | .table t => if lv = 0 then .fault 0x10 else .on (lv - 1) t)
        | some (_, .error c) => .fault c
        | none => .fault 0x10
    | x => x)
  let ws' := ws.map go
  (ws', (((ws.zip ws').filterMap fun p => match p.1.2, p.2.2 with
    | .on _ _, .on l t => if l + 1 = lv then some (⟨o, asid, l, p.1.1 / 2 ^ (9 * l + 21), t⟩ : TableCopy) else none
    | _, _ => none).eraseDups).foldl (fun d t => d.keepTable k t) d)

/-- The walks of the VAs of one probe, from the directory's level down: no read of a level is sent before every read of the level above has
returned. Each answer is the VA with the end of its walk; the translations found are installed. -/
def Die.walkTogether (d : Die) (core o asid : Nat) (vas : List Nat) : List (Nat × Joint) × Die :=
  let k := walkerOf core
  let ws := vas.map fun va => (va, Joint.on (d.walkStart k o asid va).1 (d.walkStart k o asid va).2)
  let (ws, d) := [5, 4, 3, 2, 1, 0].foldl (fun r lv => r.2.walkLevel k o asid lv r.1) (ws, d)
  (ws, ((ws.filterMap fun w => match w.2 with
    | .leaf c => some c
    | _ => none).eraseDups).foldl (fun d c => d.keepCopy core c) d)

/-! ### Accessed and dirty bits (R343) -/

/-- The bits that an accessed or dirty update ignores: A, D and SW (R343). -/
def pteCompare (p : Nat) : Nat := putBits (putBits p 5 4 0) 55 52 0

/-- Change a list of copies in the TLBs of a core and of its cluster. -/
def Die.modTlbs (d : Die) (core : Nat) (f : List Copy → List Copy) : Die :=
  let x := d.xlat
  { d with xlat := { x with
    coreTlb := sset [] x.coreTlb core (f (sget [] x.coreTlb core))
    clusterTlb := sset [] x.clusterTlb (core / 4) (f (sget [] x.clusterTlb (core / 4))) } }

/-- Discard a translation (R343). -/
def Die.dropCopy (d : Die) (core : Nat) (c : Copy) : Die := d.modTlbs core fun l => l.filter (· != c)

/-- The walker has read the entry again for its conditional OR and wrote it: the copy that the access used holds it so (log 11). -/
def Die.recordAD (d : Die) (core : Nat) (c : Copy) (p : Nat) : Die :=
  d.modTlbs core fun l => l.map fun x => if x = c then { c with pte := p } else x

/-- The record of an error that the write of a conditional OR met (R357). -/
def Die.orError (d : Die) (code entry : Nat) : Die := if code = 0x70 then d.errorRecord 0x70 2048 entry else d

/-- The conditional atomic OR of R343 by the walker of a core: a fault code, or whether it took effect, with the die after it. An error leaves
an error record and no copy of the entry (R357). -/
def Die.setAD (d : Die) (core o : Nat) (c : Copy) (write : Bool) : Except (Nat × Die) (Bool × Die) :=
  if pteBit c.pte 4 && (!write || pteBit c.pte 5) then .ok (true, d)
  else
    match d.walkRead o c.entry with
    | .error (e, d) => .error (e, d.dropCopy core c)
    | .ok (p, d) =>
      if pteCompare p ≠ pteCompare c.pte then .ok (false, d.dropCopy core c)
      else
        let p := putBits p 4 4 1
        let p := if write then putBits p 5 5 1 else p
        match d.physWrite o c.entry (leBytes 8 p) with
        | .error e => .error (e, (d.orError e c.entry).dropCopy core c)
        | .ok d => .ok (true, d.recordAD core c p)

/-- Translate one scalar access and set its A and D bits before it performs (R343, R349); an entry found changed is walked again. An
uncorrectable error faults the access (R357). An AMO counts as a write whether
or not it writes. -/
def Die.translateAD (d : Die) (core o asid va : Nat) (a : Acc) (amo : Bool) : Nat → XRes
  | 0 => .fault 0x10 d
  | fuel + 1 =>
    match d.translate core o asid va a [] with
    | .fault c d => .fault c d
    | .migrating c d => .migrating c d
    | .ok pa mt c d =>
      match d.setAD core o c (a.writes || amo) with
      | .error (e, d) => .fault e d
      | .ok (true, d) => .ok pa mt c d
      | .ok (false, d) => d.translateAD core o asid va a amo fuel

/-- The local window (R167). -/
def inWindow (va : Nat) : Bool := decide (0x003FFF0000000000 ≤ va ∧ va < 0x0040000000000000)

/-- The physical address of a window VA, where the window maps it (Table 7.2). -/
def windowPa (core va : Nat) : Option Nat :=
  let off := va - 0x003FFF0000000000
  if off < 0x40000 then some (0x120000000000 + core * 0x40000 + off)
  else if 0x10000000 ≤ off ∧ off < 0x10200000 then some (0x110000000000 + core / 4 * 0x200000 + (off - 0x10000000))
  else none

/-- The copy that stands for a window access: no entry, no page. -/
def Copy.window : Copy := ⟨0, 0, 0, 0, 0x36, 0⟩

/-- Resolve a VA for an access: the range check of R83, the local window of R167 with its access table, or translation. -/
def Die.resolve (d : Die) (core o asid va : Nat) (a : Acc) (own : List Copy) : XRes :=
  if va / 2 ^ 54 ≠ 0 then .fault 0x10 d
  else if inWindow va then
    match windowPa core va with
    | none => .fault 0x10 d
    | some pa =>
      if a = .fetch then .fault 0x11 d
      else if d.admitsRW (tableOf pa (d.target pa)) o a.reads a.writes then .ok pa 0 Copy.window d
      else .fault 0x12 d
  else d.translate core o asid va a own

/-- `resolve` for one scalar access, with its A and D bits set. -/
def Die.resolveAD (d : Die) (core o asid va : Nat) (a : Acc) (amo : Bool) : XRes :=
  if va / 2 ^ 54 ≠ 0 ∨ inWindow va then d.resolve core o asid va a [] else d.translateAD core o asid va a amo 2

/-! ### Invalidation (R104, R346, R347) -/

/-- The copies that an invalidation names. -/
def Inval.hits (i : Inval) (c : Copy) : Bool :=
  c.owner == i.owner && c.asid == i.asid &&
    (i.all || (i.count != 0 && decide (c.vbase < i.base + i.count * 4096 ∧ i.base < c.vbase + 2 ^ c.size)))

/-- A walk in flight that an invalidation reaches: its result is not cached (R346). -/
def Inval.marks (i : Inval) (w : Walk) : Walk := if w.owner = i.owner ∧ w.asid = i.asid then { w with marks := w.marks ++ [i] } else w

/-- Drop copies from every TLB. -/
def Die.dropCopies (d : Die) (f : Copy → Bool) : Die :=
  let g := fun (l : Nat × List Copy) => (l.1, l.2.filter fun c => !f c)
  { d with xlat := { d.xlat with
    coreTlb := (d.xlat.coreTlb.map g).filter fun l => l.2 ≠ []
    clusterTlb := (d.xlat.clusterTlb.map g).filter fun l => l.2 ≠ [] } }

/-- Drop entries from the table caches of every walker, and from the context caches. -/
def Die.dropTables (d : Die) (f g : TableCopy → Bool) : Die :=
  let out (f : TableCopy → Bool) (m : List (Nat × List TableCopy)) : List (Nat × List TableCopy) :=
    (m.map fun (l : Nat × List TableCopy) => (l.1, l.2.filter fun t => !f t)).filter fun l => l.2 ≠ []
  { d with xlat := { d.xlat with tables := out f d.xlat.tables, roots := out g d.xlat.roots } }

/-- Drop the copies that an invalidation names from every TLB, every table-cache entry of its ASID, and with `.all` the context-cache
entry; the walks in flight are marked (R346). -/
def Die.invalidate (d : Die) (i : Inval) : Die :=
  let mine (t : TableCopy) : Bool := t.owner == i.owner && t.asid == i.asid
  let d := (d.dropCopies i.hits).dropTables mine fun t => mine t && i.all
  { d with walks := d.walks.map fun e => (e.1, e.2.map i.marks) }

/-- Drop every cached translation of an owner, and end its walks (R337). -/
def Die.dropOwner (d : Die) (o : Nat) : Die :=
  let mine (t : TableCopy) : Bool := t.owner == o
  let d := (d.dropCopies fun c => c.owner == o).dropTables mine mine
  { d with walks := (d.walks.map fun e => (e.1, e.2.filter fun w => w.owner != o)).filter fun e => e.2 != [] }

end Sys2Proof.Machine
end

