-- ==== Sys2Proof/Machine/Ops.lean ====
section
/-! DEFINITION. The named operations: scalar registers, the PC, strands by number, taking an exception and returning from one. -/

namespace Sys2Proof.Machine

/-- The outcome of an instruction. -/
abbrev Out := Host.Outcome State Fault Refusal

/-! ### Strands -/

/-- The code of a privilege level (R18). -/
def Priv.code : Priv → Nat
  | .user => 0 | .supervisor => 1 | .firmware => 3

/-- The level that a code names; 0b10 is stored as user (Table 1.9). -/
def Priv.ofCode : Nat → Priv
  | 1 => .supervisor
  | 3 => .firmware
  | _ => .user

/-- Read a scalar register: `s0` reads as zero (R14). -/
def Strand.reg (t : Strand) (r : Fin 32) : Word := if r = 0 then 0 else t.regs[r]

/-- Write a scalar register: a write to `s0` is discarded (R14). -/
def Strand.setReg (t : Strand) (r : Fin 32) (v : Word) : Strand :=
  if r = 0 then t else { t with regs := t.regs.set r v }

/-- Read a scalar register of the issuing strand. -/
def State.reg (s : State) (r : Fin 32) : Word := s.me.reg r

/-- Change the issuing strand. -/
def State.modMe (s : State) (f : Strand → Strand) : State := { s with me := f s.me }

/-- Write a scalar register of the issuing strand. -/
def State.setReg (s : State) (r : Fin 32) (v : Word) : State := s.modMe (·.setReg r v)

/-- The issuing strand's core (R206). -/
def State.core (s : State) : Nat := s.meId / 8

/-- The issuing strand's cluster (R206). -/
def State.cluster (s : State) : Nat := s.meId / 32

/-- The strand of a number; one that holds no context is empty. -/
def State.strand (s : State) (i : Nat) : Strand := if i = s.meId then s.me else sget Strand.empty s.others i

/-- Replace the strand of a number. -/
def State.setStrand (s : State) (i : Nat) (t : Strand) : State :=
  if i = s.meId then { s with me := t } else { s with others := sset Strand.empty s.others i t }

/-- Change the strand of a number. -/
def State.modStrand (s : State) (i : Nat) (f : Strand → Strand) : State := s.setStrand i (f (s.strand i))

/-- Make the strand of a number the issuing one. -/
def State.focus (s : State) (i : Nat) : State :=
  if i = s.meId then s
  else { s with me := sget Strand.empty s.others i, meId := i, others := sset Strand.empty (sdel s.others i) s.meId s.me }

/-- Change the die. -/
def State.modDie (s : State) (f : Die → Die) : State := { s with die := f s.die }

/-- Replace the die. -/
def State.withDie (s : State) (d : Die) : State := { s with die := d }

/-! ### Ending an instruction -/

/-- PC := `pc`, the instruction retires (R81). -/
def Strand.jump (t : Strand) (pc : Word) : Strand :=
  { t with pc := pc, run := { t.run with wait := .ready } }

/-- PC := PC + 4, the instruction retires (R81). -/
def Strand.advance (t : Strand) : Strand := t.jump (t.pc + 4)

/-- The instruction retires: PC + 4, and the watchdog's count begins again (R230). -/
def State.retire (s : State) : State := s.modMe fun t => { t.advance with run := { t.advance.run with retired := s.die.clock } }

/-- The instruction retires at a target. -/
def State.retireAt (s : State) (pc : Word) : State :=
  s.modMe fun t => { t.jump pc with run := { (t.jump pc).run with retired := s.die.clock } }

/-- Write a register and retire. -/
def State.writeRetire (s : State) (r : Fin 32) (v : Word) : State := (s.setReg r v).retire

/-- The instruction has not retired: it waits, and executes again when the wait ends (R107, R207). -/
def State.waitIn (s : State) (w : Wait) : State :=
  s.modMe fun t => { t with run := { t.run with
    wait := w
    since := if t.run.wait = w then t.run.since else s.die.dtime } }

/-! ### Taking an exception -/

/-- What trap entry writes for a fault (Table 8.6). `mf` and `vstart` are none where the row says unchanged. -/
structure TrapVals where
  code : Nat
  tval : Word
  telem : Nat := 0
  tidx3 : BitVec 63 := 0
  mf : Option (BitVec 2048 × List (Nat × Nat)) := none
  vstart : Option Nat := none
  deriving DecidableEq, Repr

/-- Where a trap goes (R18): from user to VF supervisor, otherwise to firmware. -/
def Priv.trapTarget : Priv → Priv
  | .user => .supervisor
  | _ => .firmware

/-- The strand stops (R202). -/
def Strand.stop (t : Strand) : Strand := { t with run := { t.run with wait := .stopped } }

/-- Enter a handler level at its vector (R199); data that a link has brought is discarded (R316). A zero entry VA is taken again at firmware with PPRV unchanged, and the strand stops where
firmware's is zero too (R202). The flag says that it stopped. -/
def Strand.enterAt (t : Strand) (target : Priv) : Strand × Bool :=
  let go (p : Priv) (pc : Word) : Strand :=
    { t with
      pc := pc
      priv := p
      ctx := { t.ctx with rep := { t.ctx.rep with suspended := t.ctx.rep.suspended || decide (0 < t.ctx.rep.toCapture) } }
      run := { t.run with wait := .ready, entering := true, linkData := [] } }
  if target = .supervisor ∧ t.trap.stvec ≠ 0 then (go .supervisor t.trap.stvec, false)
  else if t.trap.ftvec ≠ 0 then (go .firmware t.trap.ftvec, false)
  else ((go .firmware 0).stop, true)

/-- Record a failure of a strand for the Timetable (R202, R229, R230). -/
def State.strandFailed (s : State) (i code : Nat) : State :=
  { s with die := { s.die.errorRecord code i 0 with due := s.die.due ++ [.strandFailed i] } }

/-- The trap CSRs, privilege and PC that synchronous trap entry gives a strand (R199, R203). -/
def Strand.trapEntry (t : Strand) (v : TrapVals) : Strand × Bool :=
  let t' : Strand := { t with
    trap := { t.trap with
      tcause := BitVec.ofNat 9 v.code
      tpc := t.pc
      tval := v.tval
      telem := BitVec.ofNat 64 v.telem
      tidx3 := v.tidx3
      pprv := t.priv
      hold := true }
    ctx := match v.mf, v.vstart with
      | none, none => t.ctx
      | some m, none => { t.ctx with mf := m.1, mfc := m.2 }
      | none, some n => { t.ctx with vstart := n }
      | some m, some n => { t.ctx with mf := m.1, mfc := m.2, vstart := n } }
  t'.enterAt t.priv.trapTarget

/-- TAKING A SYNCHRONOUS EXCEPTION, the one shared operation (R199, R202, R203): the issuing strand enters its handler. -/
def State.trapWith (s : State) (v : TrapVals) : State :=
  let r := s.me.trapEntry v
  if r.2 then { s with me := r.1 }.strandFailed s.meId 0x7F else { s with me := r.1 }

/-- A scalar fault: TELEM, TIDX3 are zero and the vector state is unchanged (Table 8.6). -/
def State.trap (s : State) (code : Nat) (tval : Word) : State := s.trapWith { code := code, tval := tval }

/-- A decode fault: TVAL holds the instruction word (R57). -/
def State.illegal (s : State) (code word : Nat) : State := s.trap code (BitVec.ofNat 64 word)

/-- Make the strand of a number take a synchronous trap. -/
def State.trapStrand (s : State) (i : Nat) (v : TrapVals) : State :=
  let r := (s.strand i).trapEntry v
  if r.2 then (s.setStrand i r.1).strandFailed i 0x7F else s.setStrand i r.1

/-- TAKING AN ASYNCHRONOUS EXCEPTION (R200): the oldest cause due enters the handler at an instruction boundary; TELEM, TIDX3 and the
vector state are unchanged. -/
def Strand.asyncEntry (t : Strand) (c : Cause) : Strand × Bool :=
  let t' : Strand := { t with
    trap := { t.trap with
      tcause := BitVec.ofNat 9 (0x100 + c.code)
      tpc := t.pc
      tval := BitVec.ofNat 64 c.addr
      pprv := t.priv
      hold := true }
    run := { t.run with
      causes := t.run.causes.drop 1
      watchdog := t.run.watchdog && c.code != 0x7F } }
  t'.enterAt t.priv.trapTarget

/-- Take the asynchronous cause that a strand is due, where HOLD = 0 (R200, R201); the watchdog's count begins again (R230). -/
def State.asyncTrap (s : State) (i : Nat) : State :=
  match (s.strand i).run.causes with
  | [] => s
  | c :: _ =>
    if (s.strand i).trap.hold then s
    else
      let r := (s.strand i).asyncEntry c
      let s := s.setStrand i { r.1 with run := { r.1.run with retired := s.die.clock } }
      if r.2 then s.strandFailed i 0x7F else s

/-- A failure found after a store retired: an error record, and an asynchronous cause due to the strand (R89, R200). -/
def State.postError (s : State) (i code addr : Nat) : State :=
  { s with die := s.die.errorRecord code i addr }.modStrand i fun t =>
    { t with run := { t.run with causes := t.run.causes ++ [Cause.mk code addr] } }

/-- The first fetch of a handler faulted: the trap is taken again at firmware, or the strand stops (R202). -/
def State.reenter (s : State) : State :=
  if s.me.priv = .supervisor ∧ s.me.trap.ftvec ≠ 0 then
    s.modMe fun t => { t with pc := t.trap.ftvec, priv := .firmware, run := { t.run with entering := true } }
  else (s.modMe fun t => t.stop).strandFailed s.meId 0x7F

/-- RETURN FROM AN EXCEPTION (R102, R201): the checks, then privilege := PPRV, HOLD := 0, PC := TPC. -/
def State.trapReturn (s : State) : State :=
  let t := s.me.trap.tpc
  let p := s.me.trap.pprv
  if p.code > s.me.priv.code then s.illegal 0x02 0x04000040
  else if t.toNat / 2 ^ 54 ≠ 0 then s.trap 0x10 t
  else if t.toNat % 4 ≠ 0 then s.trap 0x03 t
  else (s.modMe fun m => { m with priv := p, trap := { m.trap with hold := false } }).retireAt t

/-! ### The outcomes of a meaning -/

/-- A meaning that ends in a next state. -/
def ok (s : State) : Out := .next s

/-- An instruction that needs a privilege (R57 check 6): below it, code 0x02 with the instruction word. -/
def needs (p : Priv) (word : Nat) (s : State) (f : State → State) : State :=
  if s.me.priv.code < p.code then s.illegal 0x02 word else f s

end Sys2Proof.Machine
end

