-- ==== Sys2Proof/Machine/Alu.lean ====
section
/-! DEFINITION. Integer register and immediate instructions (R81 to R87). -/

namespace Sys2Proof.Machine

/-- A .W operation: 32-bit operands, the 32-bit result sign-extended (R82). -/
def onW (f : BitVec 32 → BitVec 32 → BitVec 32) (a b : Word) : Word := (f (a.truncate 32) (b.truncate 32)).signExtend 64

/-- An operation of two registers (R81). -/
def State.aluRR (s : State) (d a b : Fin 32) (f : Word → Word → Word) : Out := ok (s.writeRetire d (f (s.reg a) (s.reg b)))

/-- An operation of one register. -/
def State.aluR (s : State) (d a : Fin 32) (f : Word → Word) : Out := ok (s.writeRetire d (f (s.reg a)))

/-- Shift amounts: b[5:0], or b[4:0] for .W (Table 4.2). -/
def sll {n : Nat} (k : Nat) (a b : BitVec n) : BitVec n := a <<< (b.toNat % k)
def srl {n : Nat} (k : Nat) (a b : BitVec n) : BitVec n := a >>> (b.toNat % k)
def sra {n : Nat} (k : Nat) (a b : BitVec n) : BitVec n := a.sshiftRight (b.toNat % k)
def rotr {n : Nat} (k : Nat) (a b : BitVec n) : BitVec n := a.rotateRight (b.toNat % k)

/-- Division edge cases (Table 4.3). -/
def divS {n : Nat} (a b : BitVec n) : BitVec n := if b = 0 then BitVec.allOnes n else a.sdiv b
def divU {n : Nat} (a b : BitVec n) : BitVec n := if b = 0 then BitVec.allOnes n else a / b
def remS {n : Nat} (a b : BitVec n) : BitVec n := if b = 0 then a else a.srem b
def remU {n : Nat} (a b : BitVec n) : BitVec n := if b = 0 then a else a % b

/-- Bits [127:64] of the exact signed product. -/
def mulhS (a b : Word) : Word := BitVec.ofInt 64 (a.toInt * b.toInt / 2 ^ 64)
/-- Bits [127:64] of the exact unsigned product. -/
def mulhU (a b : Word) : Word := BitVec.ofNat 64 (a.toNat * b.toNat / 2 ^ 64)

/-- Leading zeros; of zero, the width. -/
def clzN {n : Nat} (a : BitVec n) : BitVec n := BitVec.ofNat n (if a = 0 then n else n - 1 - a.toNat.log2)
/-- Trailing zeros; of zero, the width. -/
def ctzN {n : Nat} (a : BitVec n) : BitVec n := BitVec.ofNat n (((List.range n).find? fun i => a.getLsbD i).getD n)
/-- Ones. -/
def popcN {n : Nat} (a : BitVec n) : BitVec n := BitVec.ofNat n ((List.range n).countP fun i => a.getLsbD i)
/-- Bit i of the result is bit n − 1 − i. -/
def brevN (a : Word) : Word := BitVec.ofNat 64 ((List.range 64).foldl (fun r i => 2 * r + (if a.getLsbD i then 1 else 0)) 0)

/-- 1 or 0. -/
def bool64 (b : Bool) : Word := if b then 1 else 0

/-- The width of SEXT and ZEXT codes (Table 3.3). -/
def extWidth (s : Nat) : Nat := if s = 0 then 8 else if s = 1 then 16 else 32

/-- imm16 sign-extended (R54). -/
def sext16 (i : Fin 65536) : Word := (BitVec.ofNat 16 i.val).signExtend 64
/-- imm16 zero-extended (R54). -/
def zext16 (i : Fin 65536) : Word := BitVec.ofNat 64 i.val
/-- imm21 sign-extended and shifted left by 16 (R54). -/
def sext21 (i : Fin 2097152) : Word := (BitVec.ofNat 21 i.val).signExtend 64 <<< 16

def execAdd (d a b : Fin 32) (w : Bool) (s : State) : Out := s.aluRR d a b (if w then onW (· + ·) else (· + ·))
def execSub (d a b : Fin 32) (w : Bool) (s : State) : Out := s.aluRR d a b (if w then onW (· - ·) else (· - ·))
def execAnd (d a b : Fin 32) (s : State) : Out := s.aluRR d a b (· &&& ·)
def execOr (d a b : Fin 32) (s : State) : Out := s.aluRR d a b (· ||| ·)
def execXor (d a b : Fin 32) (s : State) : Out := s.aluRR d a b (· ^^^ ·)
def execAndn (d a b : Fin 32) (s : State) : Out := s.aluRR d a b fun x y => x &&& ~~~y
def execOrn (d a b : Fin 32) (s : State) : Out := s.aluRR d a b fun x y => x ||| ~~~y
def execSll (d a b : Fin 32) (w : Bool) (s : State) : Out := s.aluRR d a b (if w then onW (sll 32) else sll 64)
def execSrl (d a b : Fin 32) (w : Bool) (s : State) : Out := s.aluRR d a b (if w then onW (srl 32) else srl 64)
def execSra (d a b : Fin 32) (w : Bool) (s : State) : Out := s.aluRR d a b (if w then onW (sra 32) else sra 64)
def execRotr (d a b : Fin 32) (w : Bool) (s : State) : Out := s.aluRR d a b (if w then onW (rotr 32) else rotr 64)
def execSlt (d a b : Fin 32) (s : State) : Out := s.aluRR d a b fun x y => bool64 (x.slt y)
def execSltu (d a b : Fin 32) (s : State) : Out := s.aluRR d a b fun x y => bool64 (x.ult y)
def execMin (d a b : Fin 32) (s : State) : Out := s.aluRR d a b fun x y => if x.slt y then x else y
def execMax (d a b : Fin 32) (s : State) : Out := s.aluRR d a b fun x y => if x.slt y then y else x
def execMinu (d a b : Fin 32) (s : State) : Out := s.aluRR d a b fun x y => if x.ult y then x else y
def execMaxu (d a b : Fin 32) (s : State) : Out := s.aluRR d a b fun x y => if x.ult y then y else x
def execMul (d a b : Fin 32) (w : Bool) (s : State) : Out := s.aluRR d a b (if w then onW (· * ·) else (· * ·))
def execMulh (d a b : Fin 32) (s : State) : Out := s.aluRR d a b mulhS
def execMulhu (d a b : Fin 32) (s : State) : Out := s.aluRR d a b mulhU
def execDiv (d a b : Fin 32) (w : Bool) (s : State) : Out := s.aluRR d a b (if w then onW divS else divS)
def execDivu (d a b : Fin 32) (w : Bool) (s : State) : Out := s.aluRR d a b (if w then onW divU else divU)
def execRem (d a b : Fin 32) (w : Bool) (s : State) : Out := s.aluRR d a b (if w then onW remS else remS)
def execRemu (d a b : Fin 32) (w : Bool) (s : State) : Out := s.aluRR d a b (if w then onW remU else remU)
def execClz (d a : Fin 32) (w : Bool) (s : State) : Out :=
  s.aluR d a fun x => if w then (clzN (x.truncate 32)).signExtend 64 else clzN x
def execCtz (d a : Fin 32) (w : Bool) (s : State) : Out :=
  s.aluR d a fun x => if w then (ctzN (x.truncate 32)).signExtend 64 else ctzN x
def execPopc (d a : Fin 32) (w : Bool) (s : State) : Out :=
  s.aluR d a fun x => if w then (popcN (x.truncate 32)).signExtend 64 else popcN x
def execBrev (d a : Fin 32) (s : State) : Out := s.aluR d a brevN
def execSext (d a b : Fin 32) (s : State) : Out := s.aluR d a fun x => (x.truncate (extWidth b.val)).signExtend 64
def execZext (d a b : Fin 32) (s : State) : Out := s.aluR d a fun x => (x.truncate (extWidth b.val)).zeroExtend 64
/-- SHADD scales by 8; SHADD.W scales a signed 32-bit index by 4 into a 64-bit sum (R86). -/
def execShadd (d a b : Fin 32) (w : Bool) (s : State) : Out :=
  s.aluRR d a b fun x y => y + (if w then (x.truncate 32).signExtend 64 <<< 2 else x <<< 3)
/-- CMOVZ leaves rd unchanged where b is not zero (R86). -/
def execCmovz (d a b : Fin 32) (s : State) : Out := ok (s.writeRetire d (if s.reg b = 0 then s.reg a else s.reg d))
def execCmovnz (d a b : Fin 32) (s : State) : Out := ok (s.writeRetire d (if s.reg b ≠ 0 then s.reg a else s.reg d))

def execAddi (d a : Fin 32) (i : Fin 65536) (s : State) : Out := s.aluR d a (· + sext16 i)
def execAndi (d a : Fin 32) (i : Fin 65536) (s : State) : Out := s.aluR d a (· &&& zext16 i)
def execOri (d a : Fin 32) (i : Fin 65536) (s : State) : Out := s.aluR d a (· ||| zext16 i)
def execXori (d a : Fin 32) (i : Fin 65536) (s : State) : Out := s.aluR d a (· ^^^ zext16 i)
def execSlti (d a : Fin 32) (i : Fin 65536) (s : State) : Out := s.aluR d a fun x => bool64 (x.slt (sext16 i))
def execSltiu (d a : Fin 32) (i : Fin 65536) (s : State) : Out := s.aluR d a fun x => bool64 (x.ult (sext16 i))

/-- A shift by an immediate amount (R61, R87). -/
def State.shiftI (s : State) (d a : Fin 32) (w : Bool) (n : Fin 64) (f : (k : Nat) → {m : Nat} → BitVec m → BitVec m → BitVec m) : Out :=
  s.aluR d a fun x => if w then onW (f 32) x (BitVec.ofNat 64 n.val) else f 64 x (BitVec.ofNat 64 n.val)

def execSlli (d a : Fin 32) (w : Bool) (n : Fin 64) (s : State) : Out := s.shiftI d a w n fun k => sll k
def execSrli (d a : Fin 32) (w : Bool) (n : Fin 64) (s : State) : Out := s.shiftI d a w n fun k => srl k
def execSrai (d a : Fin 32) (w : Bool) (n : Fin 64) (s : State) : Out := s.shiftI d a w n fun k => sra k
def execRotri (d a : Fin 32) (w : Bool) (n : Fin 64) (s : State) : Out := s.shiftI d a w n fun k => rotr k
def execLuh (d : Fin 32) (i : Fin 2097152) (s : State) : Out := ok (s.writeRetire d (sext21 i))
def execPcadd (d : Fin 32) (i : Fin 2097152) (s : State) : Out := ok (s.writeRetire d (s.me.pc + sext21 i))

end Sys2Proof.Machine
end

