-- ==== Sys2Proof/WellFormed.lean ====
section
/-! DEFINITION. Which instructions are well formed: the field values that chapter 3 calls legal (R55, R57 check 4, R60 to R72).
An ill-formed instruction has no word: the decoder refuses the word that would carry it, by the fault code 0x01. -/

namespace Sys2Proof

/-- The field checks of R57 step 4, one arm a constructor. The events have no word and so no check. -/
def Instr.wf : Instr → Bool
  | .add _ _ _ _ => true
  | .sub _ _ _ _ => true
  | .and _ _ _ => true
  | .or _ _ _ => true
  | .xor _ _ _ => true
  | .andn _ _ _ => true
  | .orn _ _ _ => true
  | .sll _ _ _ _ => true
  | .srl _ _ _ _ => true
  | .sra _ _ _ _ => true
  | .rotr _ _ _ _ => true
  | .slt _ _ _ => true
  | .sltu _ _ _ => true
  | .min _ _ _ => true
  | .max _ _ _ => true
  | .minu _ _ _ => true
  | .maxu _ _ _ => true
  | .mul _ _ _ _ => true
  | .mulh _ _ _ => true
  | .mulhu _ _ _ => true
  | .div _ _ _ _ => true
  | .divu _ _ _ _ => true
  | .rem _ _ _ _ => true
  | .remu _ _ _ _ => true
  | .clz _ _ _ => true
  | .ctz _ _ _ => true
  | .popc _ _ _ => true
  | .brev _ _ => true
  | .sext _ _ s => decide (s.val ≤ 2)
  | .zext _ _ s => decide (s.val ≤ 2)
  | .shadd _ _ _ _ => true
  | .cmovz _ _ _ => true
  | .cmovnz _ _ _ => true
  | .addi _ _ _ => true
  | .andi _ _ _ => true
  | .ori _ _ _ => true
  | .xori _ _ _ => true
  | .slti _ _ _ => true
  | .sltiu _ _ _ => true
  | .slli _ _ w n => !w || decide (n.val < 32)
  | .srli _ _ w n => !w || decide (n.val < 32)
  | .srai _ _ w n => !w || decide (n.val < 32)
  | .rotri _ _ w n => !w || decide (n.val < 32)
  | .luh _ _ => true
  | .pcadd _ _ => true
  | .ld _ _ s _ => decide (s.val ≠ 7)
  | .st _ _ s _ => decide (s.val ≤ 3)
  | .lda _ _ _ o s => decide (s.val ≤ 4 ∧ o.val ≠ 2)
  | .sta _ _ _ o s => decide (s.val ≤ 4 ∧ o.val ≠ 1)
  | .swap _ _ _ _ _ s => decide (s.val ≤ 4)
  | .cas _ _ _ _ _ s => decide (s.val ≤ 4)
  | .amoFadd _ _ _ _ _ s => decide (s.val ≤ 4)
  | .amoFand _ _ _ _ _ s => decide (s.val ≤ 4)
  | .amoFor _ _ _ _ _ s => decide (s.val ≤ 4)
  | .amoFxor _ _ _ _ _ s => decide (s.val ≤ 4)
  | .amoFmin _ _ _ _ _ s => decide (s.val ≤ 4)
  | .amoFmax _ _ _ _ _ s => decide (s.val ≤ 4)
  | .amoFminu _ _ _ _ _ s => decide (s.val ≤ 4)
  | .amoFmaxu _ _ _ _ _ s => decide (s.val ≤ 4)
  | .amoFaddf _ _ _ _ s => decide (s.val ≤ 4)
  | .fadd _ _ _ _ _ => true
  | .fsub _ _ _ _ _ => true
  | .fmul _ _ _ _ _ => true
  | .fdiv _ _ _ _ _ => true
  | .fsqrt _ _ _ _ => true
  | .fmin _ _ _ _ => true
  | .fmax _ _ _ _ => true
  | .fmadd _ _ _ _ _ => true
  | .feq _ _ _ _ => true
  | .flt _ _ _ _ => true
  | .fle _ _ _ _ => true
  | .fclass _ _ _ => true
  | .fcvtI _ _ _ _ _ => true
  | .fcvtF _ _ _ _ _ => true
  | .fcvt _ _ f _ g => decide (g ≠ f)
  | .beqz _ _ => true
  | .bnez _ _ => true
  | .bltz _ _ => true
  | .bgez _ _ => true
  | .bgtz _ _ => true
  | .blez _ _ => true
  | .beq _ _ _ => true
  | .bne _ _ _ => true
  | .blt _ _ _ => true
  | .bge _ _ _ => true
  | .bltu _ _ _ => true
  | .bgeu _ _ _ => true
  | .j _ => true
  | .jal _ => true
  | .jalr _ _ _ => true
  | .fence s k => decide (s.val ≤ 4 ∧ k.val ≤ 4)
  | .tlbinv c _ b l => decide (l = true → b.val = 0 ∧ c.val = 0)
  | .csrr _ _ => true
  | .csrw _ _ => true
  | .csrset _ _ _ => true
  | .csrclr _ _ _ => true
  | .csrswap _ _ _ => true
  | .send n _ _ => decide (1 ≤ n.val ∧ n.val ≤ 26)
  | .sendc n _ => decide (1 ≤ n.val ∧ n.val ≤ 26)
  | .contid _ n => decide (1 ≤ n.val ∧ n.val ≤ 26)
  | .spawn _ _ => true
  | .jwait _ => true
  | .jdone _ => true
  | .jstat _ _ => true
  | .enq _ _ _ => true
  | .enqr n _ _ => decide (1 ≤ n.val ∧ n.val ≤ 24)
  | .bararv _ _ => true
  | .barwt _ _ => true
  | .brnext _ _ => true
  | .brdone _ => true
  | .setvl _ _ _ => true
  | .loopv _ => true
  | .nexts _ => true
  | .vrep _ _ => true
  | .vtag _ _ => true
  | .vmvx _ _ _ => true
  | .vmvs _ _ _ => true
  | .vadd _ _ _ _ => true
  | .vsub _ _ _ _ => true
  | .vrsub _ _ _ _ => true
  | .vmul _ _ _ _ => true
  | .vmulh _ _ _ _ => true
  | .vmin _ _ _ _ => true
  | .vmax _ _ _ _ => true
  | .vabs _ _ => true
  | .vneg _ _ => true
  | .vand _ _ _ => true
  | .vor _ _ _ => true
  | .vxor _ _ _ => true
  | .vandn _ _ _ => true
  | .vsll _ _ _ => true
  | .vsrl _ _ _ => true
  | .vsra _ _ _ => true
  | .vsadd _ _ _ _ => true
  | .vssub _ _ _ _ => true
  | .vavg _ _ _ _ => true
  | .vdiv _ _ _ _ => true
  | .vcvt _ _ _ => true
  | .vcmpeq d _ _ => decide (d.val < 8)
  | .vcmpne d _ _ => decide (d.val < 8)
  | .vcmplt d _ _ => decide (d.val < 8)
  | .vcmple d _ _ => decide (d.val < 8)
  | .vsel _ _ _ => true
  | .vmrg _ _ _ => true
  | .vclass _ _ => true
  | .vaddVs _ _ _ _ => true
  | .vsubVs _ _ _ _ => true
  | .vrsubVs _ _ _ _ => true
  | .vmulVs _ _ _ _ => true
  | .vmulhVs _ _ _ _ => true
  | .vminVs _ _ _ _ => true
  | .vmaxVs _ _ _ _ => true
  | .vandVs _ _ _ => true
  | .vorVs _ _ _ => true
  | .vxorVs _ _ _ => true
  | .vandnVs _ _ _ => true
  | .vsllVs _ _ _ => true
  | .vsrlVs _ _ _ => true
  | .vsraVs _ _ _ => true
  | .vsaddVs _ _ _ _ => true
  | .vssubVs _ _ _ _ => true
  | .vavgVs _ _ _ _ => true
  | .vdivVs _ _ _ _ => true
  | .vcmpeqVs d _ _ => decide (d.val < 8)
  | .vcmpneVs d _ _ => decide (d.val < 8)
  | .vcmpltVs d _ _ => decide (d.val < 8)
  | .vcmpleVs d _ _ => decide (d.val < 8)
  | .vfma _ _ _ _ _ => true
  | .vfms _ _ _ _ _ => true
  | .vfnma _ _ _ _ _ => true
  | .vfnms _ _ _ _ _ => true
  | .vmacc _ _ _ _ => true
  | .vdot2 _ _ _ _ _ => true
  | .mand d a b => decide (d.val < 8 ∧ a.val < 8 ∧ b.val < 8)
  | .mor d a b => decide (d.val < 8 ∧ a.val < 8 ∧ b.val < 8)
  | .mxor d a b => decide (d.val < 8 ∧ a.val < 8 ∧ b.val < 8)
  | .mandn d a b => decide (d.val < 8 ∧ a.val < 8 ∧ b.val < 8)
  | .mnot d a => decide (d.val < 8 ∧ a.val < 8)
  | .mmov d a => decide (d.val < 8 ∧ a.val < 8)
  | .msbf d a => decide (d.val < 8 ∧ a.val < 8)
  | .msif d a => decide (d.val < 8 ∧ a.val < 8)
  | .msof d a => decide (d.val < 8 ∧ a.val < 8)
  | .mpopc _ a => decide (a.val < 8)
  | .mfirst _ a => decide (a.val < 8)
  | .viota _ a => decide (a.val < 8)
  | .vid _ => true
  | .mset d _ => decide (d.val < 8)
  | .vslideup _ _ _ => true
  | .vslidedn _ _ _ => true
  | .vrgather _ _ _ => true
  | .vcompress _ _ => true
  | .vexpand _ _ => true
  | .vshuf _ _ p => decide (p.val ≤ 4)
  | .vxch _ _ x => decide (x.val ≤ 10)
  | .vbcast _ _ _ => true
  | .vredsum _ _ _ _ => true
  | .vredsumo _ _ _ _ => true
  | .vredmin _ _ _ _ => true
  | .vredmax _ _ _ _ => true
  | .vcmul _ _ _ _ _ _ _ => true
  | .vcmac _ _ _ _ _ _ _ => true
  | .vcmag2 _ _ _ => true
  | .vconj _ _ _ => true
  | .vbfly2 _ _ _ _ _ => true
  | .vbfly4 _ _ _ _ _ => true
  | .vcinv2 _ _ _ => true
  | .vqmul _ _ _ _ _ _ => true
  | .vqscl _ _ _ => true
  | .sfRcp _ _ _ => true
  | .sfRsq _ _ _ => true
  | .sfSqrt _ _ _ => true
  | .sfExp2 _ _ _ => true
  | .sfLog2 _ _ _ => true
  | .sfSinpi _ _ _ => true
  | .sfCospi _ _ _ => true
  | .sfAtan2pi _ _ _ _ => true
  | .vld _ _ _ => true
  | .vst _ _ _ => true
  | .vstu _ _ => true
  | .vldff _ _ => true
  | .vlds _ _ => true
  | .vgath _ _ _ _ => true
  | .vscat _ _ _ _ => true
  | .vscatu _ _ _ => true
  | .vstcmp _ _ => true
  | .vldexp _ _ => true
  | .vamo _ _ _ _ p => decide (p.val ≤ 8)
  | .vredm _ _ _ p => decide (p.val ≤ 8)
  | .sdset _ _ f => decide (f.val < 12)
  | .sdget _ _ f => decide (f.val < 12)
  | .sdld _ _ => true
  | .sdst _ _ => true
  | .sdadv _ _ => true
  | .sdpos _ _ => true
  | .mopa _ _ b _ q l _ => decide (l = true → b.val = 31 ∧ q.val = 0)
  | .mops _ _ b _ q l _ => decide (l = true → b.val = 31 ∧ q.val = 0)
  | .cmopa _ _ b _ q l _ => decide (l = true → b.val = 31 ∧ q.val = 0)
  | .mopasp _ _ b _ q l _ _ _ => decide (l = true → b.val = 31 ∧ q.val = 0)
  | .mld _ _ => true
  | .mst _ _ => true
  | .mrdv _ _ _ => true
  | .mwrv _ _ _ => true
  | .rlld _ _ => true
  | .rlrd _ _ => true
  | .ecall => true
  | .trapret => true
  | .brk => true
  | .ptfenceStrand => true
  | .ptfenceCore => true
  | .ptfenceCluster => true
  | .ptfenceDie => true
  | .ptfenceSystem => true
  | .tlbsyncStrand => true
  | .tlbsyncCore => true
  | .tlbsyncCluster => true
  | .tlbsyncDie => true
  | .tlbsyncSystem => true
  | .xpfence => true
  | .park => true
  | .yield => true
  | .jexit => true
  | .bar0 => true
  | .bar1 => true
  | .bar2 => true
  | .bar3 => true
  | .bar4 => true
  | .bar5 => true
  | .bar6 => true
  | .bar7 => true
  | .bar8 => true
  | .bar9 => true
  | .bar10 => true
  | .bar11 => true
  | .bar12 => true
  | .bar13 => true
  | .bar14 => true
  | .bar15 => true
  | .vfork2 => true
  | .vfork4 => true
  | .vjoin => true
  | .vwait => true
  | .vpref0 => true
  | .vpref1 => true
  | .vpref2 => true
  | .vpref3 => true
  | .vpref4 => true
  | .vpref5 => true
  | .vpref6 => true
  | .vpref7 => true
  | .vpref8 => true
  | .vpref9 => true
  | .vpref10 => true
  | .vpref11 => true
  | .vpref12 => true
  | .vpref13 => true
  | .vpref14 => true
  | .vpref15 => true
  | .mzero0 => true
  | .mzero1 => true
  | .mzero2 => true
  | .mzero3 => true
  | .rlpass => true
  | .frontEndIssue _ => true
  | .syncTrapEntry _ _ _ _ => true
  | .asyncTrapEntry _ => true
  | .postedStoreError _ _ _ => true
  | .watchdogExpiry _ => true
  | .watchdogReset _ => true
  | .registerFileError _ _ _ _ => true
  | .handlerStart _ => true
  | .reservationTimeout _ => true
  | .growOffer _ => true
  | .laneChange _ => true
  | .messageArrival _ => true
  | .messageReoffer _ => true
  | .continuationDelivery _ => true
  | .preemptRequest _ => true
  | .saveComplete _ => true
  | .resume _ _ => true
  | .resumeComplete _ => true
  | .vectorInstructionStart _ => true
  | .vectorBeat _ => true
  | .vectorLoadDataReturn _ _ _ => true
  | .repetitionReissue _ => true
  | .vforkSplit _ => true
  | .vjoinReassemble _ => true
  | .sfuRequestSend _ => true
  | .sfuServiceStart _ => true
  | .sfuResultReturn _ => true
  | .rlpassSend _ => true
  | .rlpassTake _ => true
  | .fenceRetire _ => true
  | .xpfenceRetire _ => true
  | .ptfenceRetire _ => true
  | .tlbinvDrop _ => true
  | .tlbsyncRetire _ => true
  | .pageWalk _ _ => true
  | .walkerReadReturn _ => true
  | .mgWaitPoll _ => true
  | .mgWaitTimeout _ => true
  | .loadDataReturn _ _ _ _ _ => true
  | .hostRequestCompletion _ _ _ => true
  | .hostCompletionTimeout _ => true
  | .clmBankAccess _ _ _ _ => true
  | .cspBankAccess _ _ _ _ => true
  | .l2BankAccess _ _ _ => true
  | .l2FillReturn _ _ => true
  | .csmAccess _ _ _ => true
  | .nearBankOperation _ _ _ _ => true
  | .ownerScrub _ => true
  | .l2PatrolScrub _ _ _ => true
  | .lpddrSectorService _ _ => true
  | .regulatorTokenFill _ _ => true
  | .lpddrPatrolScrub _ => true
  | .domJoin _ _ _ => true
  | .domLeave _ _ => true
  | .barrierCounterError _ _ _ => true
  | .vlWrite _ _ => true
  | .vmcWrite _ _ => true
  | .fcsrWrite _ _ => true
  | .tprvHoldClear _ => true
  | .xasidWrite _ _ => true
  | .berthRecordPlace _ _ _ _ _ _ _ => true
  | .brctlEnable _ _ _ => true
  | .brctlCursorEnable _ _ _ => true
  | .ecpriUplaneFrame _ _ _ _ _ _ _ => true
  | .ecpriCplaneFrame _ _ _ _ _ => true
  | .ecpriDelayMeasurement _ _ => true
  | .unmatchedFrame _ => true
  | .ptpEventFrame _ _ _ => true
  | .synceLockChange _ => true
  | .ptmRequest => true
  | .jobRelease _ => true
  | .promotionSweep => true
  | .timetablePop => true
  | .dispatchWithdraw _ => true
  | .serverBudgetExhausted _ => true
  | .serverSuspensionEnd _ => true
  | .jsrvWrite _ _ => true
  | .jobEnd _ _ _ => true
  | .deadlineExpiry _ => true
  | .exitRoutineStart _ => true
  | .exitBudgetExpiry _ => true
  | .commandAccept _ => true
  | .ferryCopy _ => true
  | .ferryCopy3 _ => true
  | .ferryGather _ => true
  | .ferryScatter _ => true
  | .ferryFill _ => true
  | .ferryMigrate _ => true
  | .ferryUpdate _ => true
  | .ldpcDecode _ => true
  | .ldpcEncode _ => true
  | .polarEncode _ => true
  | .polarDecode _ => true
  | .txUplane _ => true
  | .txCplane _ => true
  | .txRawFrame _ => true
  | .txLaunch _ => true
  | .txLate _ => true
  | .commandCompletion _ => true
  | .clearanceGo _ => true
  | .clearanceDecision _ => true
  | .clearanceStopPoint _ => true
  | .clearanceHorizon _ => true
  | .clearanceVacancy _ => true
  | .clusterRetirement _ => true
  | .channelRetirement _ => true
  | .l2cfgCsmwWrite _ => true
  | .csmResizeComplete => true
  | .l2errDiscard _ => true
  | .xdirWrite _ _ => true
  | .xhlogDisable _ => true
  | .partitionRegisterWrite _ _ => true
  | .accessTableWrite _ _ => true
  | .clrlogWrite _ => true
  | .mkeyRegen _ => true
  | .keyRegenComplete _ => true
  | .mregWrite _ _ _ => true
  | .pwrcapWrite _ => true
  | .powerCapExceeded => true
  | .partitionCapExceeded _ => true
  | .thermalThrottle => true
  | .thermalStop => true
  | .thermalSupplyRemoval => true
  | .powerOnBoot => true
  | .hostRecoverySupply _ _ => true
  | .spdmRequest => true
  | .fwhoStart _ => true
  | .handoverVerified _ => true
  | .handoverCommit => true
  | .hostMemoryRequest _ _ _ _ => true
  | .atsTranslationResponse _ _ _ => true
  | .atsTimeout _ => true
  | .priResponse _ _ => true
  | .priTimeout _ => true
  | .atsInvalidation _ => true
  | .sqEnable _ _ _ => true
  | .sqDoorbell _ _ _ => true
  | .sqDescriptorFetch _ _ _ => true
  | .sqStop _ _ => true
  | .sqStopComplete _ _ => true
  | .vfFlr _ => true
  | .twinRequest _ _ _ => true
  | .twinLinkDown => true
  | .migrationExport _ => true
  | .migrationQuiesced => true
  | .migrationQuiesceTimeout => true
  | .migrationStreamed => true
  | .migrationCancel => true
  | .migrationImport _ _ => true
  | .migrationSourceDone => true
  | .registerWrite _ _ _ _ => true
  | .twinLinkUp => true
  | .ptpHoldover => true
  | .twinPtmTime _ => true

/-- An instruction whose fields are all legal. -/
abbrev WellFormed (i : Instr) : Prop := i.wf = true

end Sys2Proof
end

