-- ==== Sys2Proof/Decode.lean ====
section
/-! DEFINITION. The decoder: from the bits of a word to an instruction or a named refusal, total on any bytes (R53 to R72),
and after it the encoder, written from the same tables. A refusal is trap code 0x01 of R57, checks 2 to 4. -/

namespace Sys2Proof

/-- Why a word is no instruction: the check of R57 that it fails. Each is the fault code 0x01. -/
inductive DecodeError where
  /-- Fewer than four bytes were offered. -/
  | truncated
  /-- R57 check 2: majors 0x00, 0x3F, 0x18 to 0x1F and 0x2B to 0x3E. -/
  | reservedMajor
  /-- R57 check 3: an op value that the major does not assign. -/
  | reservedOp
  /-- R57 check 4: an unused field or modifier bit that is not zero (R55). -/
  | unusedField
  /-- R57 check 4: a field value or a combination that chapter 3 calls illegal. -/
  | illegalField
  deriving DecidableEq, Repr

/-- The `n` bits of `w` from bit `lo` upward. -/
def fld (w lo n : Nat) : Nat := w / 2 ^ lo % 2 ^ n

/-- A one-bit field. -/
def bit (w lo : Nat) : Bool := w / 2 ^ lo % 2 == 1

/-- Major 0x01 (SYS), its op in [10:6] (Table 3.5). -/
def decSys (w : Nat) : Except DecodeError Instr :=
  match fld w 6 5 with
  | 0 => if fld w 11 15 = 0 ∧ fld w 0 6 = 0 then .ok (.ecall) else .error .unusedField
  | 1 => if fld w 11 15 = 0 ∧ fld w 0 6 = 0 then .ok (.trapret) else .error .unusedField
  | 2 => if fld w 11 15 = 0 ∧ fld w 0 6 = 0 then .ok (.brk) else .error .unusedField
  | 3 => if fld w 11 15 = 0 then .ok (.fence (Fin.ofNat 8 (fld w 3 3)) (Fin.ofNat 8 (fld w 0 3))) else .error .unusedField
  | 4 =>
    if fld w 11 15 = 0 ∧ fld w 0 3 = 0 then
      match fld w 3 3 with
      | 0 => .ok .ptfenceStrand
      | 1 => .ok .ptfenceCore
      | 2 => .ok .ptfenceCluster
      | 3 => .ok .ptfenceDie
      | 4 => .ok .ptfenceSystem
      | _ => .error .illegalField
    else .error .unusedField
  | 5 => if fld w 1 5 = 0 then .ok (.tlbinv (Fin.ofNat 32 (fld w 21 5)) (Fin.ofNat 32 (fld w 16 5)) (Fin.ofNat 32 (fld w 11 5)) (bit w 0)) else .error .unusedField
  | 6 =>
    if fld w 11 15 = 0 ∧ fld w 0 3 = 0 then
      match fld w 3 3 with
      | 0 => .ok .tlbsyncStrand
      | 1 => .ok .tlbsyncCore
      | 2 => .ok .tlbsyncCluster
      | 3 => .ok .tlbsyncDie
      | 4 => .ok .tlbsyncSystem
      | _ => .error .illegalField
    else .error .unusedField
  | 7 => if fld w 11 15 = 0 ∧ fld w 0 6 = 0 then .ok (.xpfence) else .error .unusedField
  | _ => .error .reservedOp

/-- Major 0x02 (LUH). -/
def decLuh (w : Nat) : Except DecodeError Instr :=
  .ok (.luh (Fin.ofNat 32 (fld w 21 5)) (Fin.ofNat 2097152 (fld w 0 21)))

/-- Major 0x03 (PCADD). -/
def decPcadd (w : Nat) : Except DecodeError Instr :=
  .ok (.pcadd (Fin.ofNat 32 (fld w 21 5)) (Fin.ofNat 2097152 (fld w 0 21)))

/-- Major 0x04 (ALU), its op in [9:0] (Table 3.3). -/
def decAlu (w : Nat) : Except DecodeError Instr :=
  match fld w 0 10 with
  | 0 => .ok (.add (Fin.ofNat 32 (fld w 21 5)) (Fin.ofNat 32 (fld w 16 5)) (Fin.ofNat 32 (fld w 11 5)) (bit w 10))
  | 1 => .ok (.sub (Fin.ofNat 32 (fld w 21 5)) (Fin.ofNat 32 (fld w 16 5)) (Fin.ofNat 32 (fld w 11 5)) (bit w 10))
  | 2 => if fld w 10 1 = 0 then .ok (.and (Fin.ofNat 32 (fld w 21 5)) (Fin.ofNat 32 (fld w 16 5)) (Fin.ofNat 32 (fld w 11 5))) else .error .unusedField
  | 3 => if fld w 10 1 = 0 then .ok (.or (Fin.ofNat 32 (fld w 21 5)) (Fin.ofNat 32 (fld w 16 5)) (Fin.ofNat 32 (fld w 11 5))) else .error .unusedField
  | 4 => if fld w 10 1 = 0 then .ok (.xor (Fin.ofNat 32 (fld w 21 5)) (Fin.ofNat 32 (fld w 16 5)) (Fin.ofNat 32 (fld w 11 5))) else .error .unusedField
  | 5 => if fld w 10 1 = 0 then .ok (.andn (Fin.ofNat 32 (fld w 21 5)) (Fin.ofNat 32 (fld w 16 5)) (Fin.ofNat 32 (fld w 11 5))) else .error .unusedField
  | 6 => if fld w 10 1 = 0 then .ok (.orn (Fin.ofNat 32 (fld w 21 5)) (Fin.ofNat 32 (fld w 16 5)) (Fin.ofNat 32 (fld w 11 5))) else .error .unusedField
  | 7 => .ok (.sll (Fin.ofNat 32 (fld w 21 5)) (Fin.ofNat 32 (fld w 16 5)) (Fin.ofNat 32 (fld w 11 5)) (bit w 10))
  | 8 => .ok (.srl (Fin.ofNat 32 (fld w 21 5)) (Fin.ofNat 32 (fld w 16 5)) (Fin.ofNat 32 (fld w 11 5)) (bit w 10))
  | 9 => .ok (.sra (Fin.ofNat 32 (fld w 21 5)) (Fin.ofNat 32 (fld w 16 5)) (Fin.ofNat 32 (fld w 11 5)) (bit w 10))
  | 10 => .ok (.rotr (Fin.ofNat 32 (fld w 21 5)) (Fin.ofNat 32 (fld w 16 5)) (Fin.ofNat 32 (fld w 11 5)) (bit w 10))
  | 11 => if fld w 10 1 = 0 then .ok (.slt (Fin.ofNat 32 (fld w 21 5)) (Fin.ofNat 32 (fld w 16 5)) (Fin.ofNat 32 (fld w 11 5))) else .error .unusedField
  | 12 => if fld w 10 1 = 0 then .ok (.sltu (Fin.ofNat 32 (fld w 21 5)) (Fin.ofNat 32 (fld w 16 5)) (Fin.ofNat 32 (fld w 11 5))) else .error .unusedField
  | 13 => if fld w 10 1 = 0 then .ok (.min (Fin.ofNat 32 (fld w 21 5)) (Fin.ofNat 32 (fld w 16 5)) (Fin.ofNat 32 (fld w 11 5))) else .error .unusedField
  | 14 => if fld w 10 1 = 0 then .ok (.max (Fin.ofNat 32 (fld w 21 5)) (Fin.ofNat 32 (fld w 16 5)) (Fin.ofNat 32 (fld w 11 5))) else .error .unusedField
  | 15 => if fld w 10 1 = 0 then .ok (.minu (Fin.ofNat 32 (fld w 21 5)) (Fin.ofNat 32 (fld w 16 5)) (Fin.ofNat 32 (fld w 11 5))) else .error .unusedField
  | 16 => if fld w 10 1 = 0 then .ok (.maxu (Fin.ofNat 32 (fld w 21 5)) (Fin.ofNat 32 (fld w 16 5)) (Fin.ofNat 32 (fld w 11 5))) else .error .unusedField
  | 17 => .ok (.mul (Fin.ofNat 32 (fld w 21 5)) (Fin.ofNat 32 (fld w 16 5)) (Fin.ofNat 32 (fld w 11 5)) (bit w 10))
  | 18 => if fld w 10 1 = 0 then .ok (.mulh (Fin.ofNat 32 (fld w 21 5)) (Fin.ofNat 32 (fld w 16 5)) (Fin.ofNat 32 (fld w 11 5))) else .error .unusedField
  | 19 => if fld w 10 1 = 0 then .ok (.mulhu (Fin.ofNat 32 (fld w 21 5)) (Fin.ofNat 32 (fld w 16 5)) (Fin.ofNat 32 (fld w 11 5))) else .error .unusedField
  | 20 => .ok (.div (Fin.ofNat 32 (fld w 21 5)) (Fin.ofNat 32 (fld w 16 5)) (Fin.ofNat 32 (fld w 11 5)) (bit w 10))
  | 21 => .ok (.divu (Fin.ofNat 32 (fld w 21 5)) (Fin.ofNat 32 (fld w 16 5)) (Fin.ofNat 32 (fld w 11 5)) (bit w 10))
  | 22 => .ok (.rem (Fin.ofNat 32 (fld w 21 5)) (Fin.ofNat 32 (fld w 16 5)) (Fin.ofNat 32 (fld w 11 5)) (bit w 10))
  | 23 => .ok (.remu (Fin.ofNat 32 (fld w 21 5)) (Fin.ofNat 32 (fld w 16 5)) (Fin.ofNat 32 (fld w 11 5)) (bit w 10))
  | 24 => if fld w 11 5 = 0 then .ok (.clz (Fin.ofNat 32 (fld w 21 5)) (Fin.ofNat 32 (fld w 16 5)) (bit w 10)) else .error .unusedField
  | 25 => if fld w 11 5 = 0 then .ok (.ctz (Fin.ofNat 32 (fld w 21 5)) (Fin.ofNat 32 (fld w 16 5)) (bit w 10)) else .error .unusedField
  | 26 => if fld w 11 5 = 0 then .ok (.popc (Fin.ofNat 32 (fld w 21 5)) (Fin.ofNat 32 (fld w 16 5)) (bit w 10)) else .error .unusedField
  | 27 => if fld w 10 6 = 0 then .ok (.brev (Fin.ofNat 32 (fld w 21 5)) (Fin.ofNat 32 (fld w 16 5))) else .error .unusedField
  | 28 => if fld w 10 1 = 0 then .ok (.sext (Fin.ofNat 32 (fld w 21 5)) (Fin.ofNat 32 (fld w 16 5)) (Fin.ofNat 32 (fld w 11 5))) else .error .unusedField
  | 29 => if fld w 10 1 = 0 then .ok (.zext (Fin.ofNat 32 (fld w 21 5)) (Fin.ofNat 32 (fld w 16 5)) (Fin.ofNat 32 (fld w 11 5))) else .error .unusedField
  | 30 => .ok (.shadd (Fin.ofNat 32 (fld w 21 5)) (Fin.ofNat 32 (fld w 16 5)) (Fin.ofNat 32 (fld w 11 5)) (bit w 10))
  | 31 => if fld w 10 1 = 0 then .ok (.cmovz (Fin.ofNat 32 (fld w 21 5)) (Fin.ofNat 32 (fld w 16 5)) (Fin.ofNat 32 (fld w 11 5))) else .error .unusedField
  | 32 => if fld w 10 1 = 0 then .ok (.cmovnz (Fin.ofNat 32 (fld w 21 5)) (Fin.ofNat 32 (fld w 16 5)) (Fin.ofNat 32 (fld w 11 5))) else .error .unusedField
  | _ => .error .reservedOp

/-- Major 0x05 (ADDI). -/
def decAddi (w : Nat) : Except DecodeError Instr :=
  .ok (.addi (Fin.ofNat 32 (fld w 21 5)) (Fin.ofNat 32 (fld w 16 5)) (Fin.ofNat 65536 (fld w 0 16)))

/-- Major 0x06 (ANDI). -/
def decAndi (w : Nat) : Except DecodeError Instr :=
  .ok (.andi (Fin.ofNat 32 (fld w 21 5)) (Fin.ofNat 32 (fld w 16 5)) (Fin.ofNat 65536 (fld w 0 16)))

/-- Major 0x07 (ORI). -/
def decOri (w : Nat) : Except DecodeError Instr :=
  .ok (.ori (Fin.ofNat 32 (fld w 21 5)) (Fin.ofNat 32 (fld w 16 5)) (Fin.ofNat 65536 (fld w 0 16)))

/-- Major 0x08 (XORI). -/
def decXori (w : Nat) : Except DecodeError Instr :=
  .ok (.xori (Fin.ofNat 32 (fld w 21 5)) (Fin.ofNat 32 (fld w 16 5)) (Fin.ofNat 65536 (fld w 0 16)))

/-- Major 0x09 (SLTI). -/
def decSlti (w : Nat) : Except DecodeError Instr :=
  .ok (.slti (Fin.ofNat 32 (fld w 21 5)) (Fin.ofNat 32 (fld w 16 5)) (Fin.ofNat 65536 (fld w 0 16)))

/-- Major 0x0A (SLTIU). -/
def decSltiu (w : Nat) : Except DecodeError Instr :=
  .ok (.sltiu (Fin.ofNat 32 (fld w 21 5)) (Fin.ofNat 32 (fld w 16 5)) (Fin.ofNat 65536 (fld w 0 16)))

/-- Major 0x0B (SHI), its op in [7:6] (R61). -/
def decShi (w : Nat) : Except DecodeError Instr :=
  match fld w 6 2 with
  | 0 => if fld w 9 7 = 0 then .ok (.slli (Fin.ofNat 32 (fld w 21 5)) (Fin.ofNat 32 (fld w 16 5)) (bit w 8) (Fin.ofNat 64 (fld w 0 6))) else .error .unusedField
  | 1 => if fld w 9 7 = 0 then .ok (.srli (Fin.ofNat 32 (fld w 21 5)) (Fin.ofNat 32 (fld w 16 5)) (bit w 8) (Fin.ofNat 64 (fld w 0 6))) else .error .unusedField
  | 2 => if fld w 9 7 = 0 then .ok (.srai (Fin.ofNat 32 (fld w 21 5)) (Fin.ofNat 32 (fld w 16 5)) (bit w 8) (Fin.ofNat 64 (fld w 0 6))) else .error .unusedField
  | 3 => if fld w 9 7 = 0 then .ok (.rotri (Fin.ofNat 32 (fld w 21 5)) (Fin.ofNat 32 (fld w 16 5)) (bit w 8) (Fin.ofNat 64 (fld w 0 6))) else .error .unusedField
  | _ => .error .reservedOp

/-- Major 0x0C (LD). -/
def decLd (w : Nat) : Except DecodeError Instr :=
  .ok (.ld (Fin.ofNat 32 (fld w 21 5)) (Fin.ofNat 32 (fld w 16 5)) (Fin.ofNat 8 (fld w 13 3)) (Fin.ofNat 8192 (fld w 0 13)))

/-- Major 0x0D (ST). -/
def decSt (w : Nat) : Except DecodeError Instr :=
  .ok (.st (Fin.ofNat 32 (fld w 21 5)) (Fin.ofNat 32 (fld w 16 5)) (Fin.ofNat 8 (fld w 13 3)) (Fin.ofNat 8192 (fld w 0 13)))

/-- Major 0x0E (AMO), its op in [10:6] (R63). -/
def decAmo (w : Nat) : Except DecodeError Instr :=
  match fld w 6 5 with
  | 0 => if fld w 11 5 = 0 then .ok (.lda (Fin.ofNat 32 (fld w 21 5)) (Fin.ofNat 32 (fld w 16 5)) (bit w 5) (Fin.ofNat 4 (fld w 3 2)) (Fin.ofNat 8 (fld w 0 3))) else .error .unusedField
  | 1 => if fld w 21 5 = 0 then .ok (.sta (Fin.ofNat 32 (fld w 16 5)) (Fin.ofNat 32 (fld w 11 5)) (bit w 5) (Fin.ofNat 4 (fld w 3 2)) (Fin.ofNat 8 (fld w 0 3))) else .error .unusedField
  | 2 => .ok (.swap (Fin.ofNat 32 (fld w 21 5)) (Fin.ofNat 32 (fld w 16 5)) (Fin.ofNat 32 (fld w 11 5)) (bit w 5) (Fin.ofNat 4 (fld w 3 2)) (Fin.ofNat 8 (fld w 0 3)))
  | 3 => .ok (.cas (Fin.ofNat 32 (fld w 21 5)) (Fin.ofNat 32 (fld w 16 5)) (Fin.ofNat 32 (fld w 11 5)) (bit w 5) (Fin.ofNat 4 (fld w 3 2)) (Fin.ofNat 8 (fld w 0 3)))
  | 4 => .ok (.amoFadd (Fin.ofNat 32 (fld w 21 5)) (Fin.ofNat 32 (fld w 16 5)) (Fin.ofNat 32 (fld w 11 5)) (bit w 5) (Fin.ofNat 4 (fld w 3 2)) (Fin.ofNat 8 (fld w 0 3)))
  | 5 => .ok (.amoFand (Fin.ofNat 32 (fld w 21 5)) (Fin.ofNat 32 (fld w 16 5)) (Fin.ofNat 32 (fld w 11 5)) (bit w 5) (Fin.ofNat 4 (fld w 3 2)) (Fin.ofNat 8 (fld w 0 3)))
  | 6 => .ok (.amoFor (Fin.ofNat 32 (fld w 21 5)) (Fin.ofNat 32 (fld w 16 5)) (Fin.ofNat 32 (fld w 11 5)) (bit w 5) (Fin.ofNat 4 (fld w 3 2)) (Fin.ofNat 8 (fld w 0 3)))
  | 7 => .ok (.amoFxor (Fin.ofNat 32 (fld w 21 5)) (Fin.ofNat 32 (fld w 16 5)) (Fin.ofNat 32 (fld w 11 5)) (bit w 5) (Fin.ofNat 4 (fld w 3 2)) (Fin.ofNat 8 (fld w 0 3)))
  | 8 => .ok (.amoFmin (Fin.ofNat 32 (fld w 21 5)) (Fin.ofNat 32 (fld w 16 5)) (Fin.ofNat 32 (fld w 11 5)) (bit w 5) (Fin.ofNat 4 (fld w 3 2)) (Fin.ofNat 8 (fld w 0 3)))
  | 9 => .ok (.amoFmax (Fin.ofNat 32 (fld w 21 5)) (Fin.ofNat 32 (fld w 16 5)) (Fin.ofNat 32 (fld w 11 5)) (bit w 5) (Fin.ofNat 4 (fld w 3 2)) (Fin.ofNat 8 (fld w 0 3)))
  | 10 => .ok (.amoFminu (Fin.ofNat 32 (fld w 21 5)) (Fin.ofNat 32 (fld w 16 5)) (Fin.ofNat 32 (fld w 11 5)) (bit w 5) (Fin.ofNat 4 (fld w 3 2)) (Fin.ofNat 8 (fld w 0 3)))
  | 11 => .ok (.amoFmaxu (Fin.ofNat 32 (fld w 21 5)) (Fin.ofNat 32 (fld w 16 5)) (Fin.ofNat 32 (fld w 11 5)) (bit w 5) (Fin.ofNat 4 (fld w 3 2)) (Fin.ofNat 8 (fld w 0 3)))
  | 12 => if fld w 5 1 = 0 then .ok (.amoFaddf (Fin.ofNat 32 (fld w 21 5)) (Fin.ofNat 32 (fld w 16 5)) (Fin.ofNat 32 (fld w 11 5)) (Fin.ofNat 4 (fld w 3 2)) (Fin.ofNat 8 (fld w 0 3))) else .error .unusedField
  | _ => .error .reservedOp

/-- Major 0x0F (FP), its op in [10:5] (Table 3.4). -/
def decFp (w : Nat) : Except DecodeError Instr :=
  match fld w 5 6 with
  | 0 => if fld w 0 2 = 0 then .ok (.fadd (Fin.ofNat 32 (fld w 21 5)) (Fin.ofNat 32 (fld w 16 5)) (Fin.ofNat 32 (fld w 11 5)) (Fin.ofNat 4 (fld w 3 2)) (bit w 2)) else .error .unusedField
  | 1 => if fld w 0 2 = 0 then .ok (.fsub (Fin.ofNat 32 (fld w 21 5)) (Fin.ofNat 32 (fld w 16 5)) (Fin.ofNat 32 (fld w 11 5)) (Fin.ofNat 4 (fld w 3 2)) (bit w 2)) else .error .unusedField
  | 2 => if fld w 0 2 = 0 then .ok (.fmul (Fin.ofNat 32 (fld w 21 5)) (Fin.ofNat 32 (fld w 16 5)) (Fin.ofNat 32 (fld w 11 5)) (Fin.ofNat 4 (fld w 3 2)) (bit w 2)) else .error .unusedField
  | 3 => if fld w 0 2 = 0 then .ok (.fdiv (Fin.ofNat 32 (fld w 21 5)) (Fin.ofNat 32 (fld w 16 5)) (Fin.ofNat 32 (fld w 11 5)) (Fin.ofNat 4 (fld w 3 2)) (bit w 2)) else .error .unusedField
  | 4 => if fld w 11 5 = 0 ∧ fld w 0 2 = 0 then .ok (.fsqrt (Fin.ofNat 32 (fld w 21 5)) (Fin.ofNat 32 (fld w 16 5)) (Fin.ofNat 4 (fld w 3 2)) (bit w 2)) else .error .unusedField
  | 5 => if fld w 0 3 = 0 then .ok (.fmin (Fin.ofNat 32 (fld w 21 5)) (Fin.ofNat 32 (fld w 16 5)) (Fin.ofNat 32 (fld w 11 5)) (Fin.ofNat 4 (fld w 3 2))) else .error .unusedField
  | 6 => if fld w 0 3 = 0 then .ok (.fmax (Fin.ofNat 32 (fld w 21 5)) (Fin.ofNat 32 (fld w 16 5)) (Fin.ofNat 32 (fld w 11 5)) (Fin.ofNat 4 (fld w 3 2))) else .error .unusedField
  | 7 => if fld w 0 2 = 0 then .ok (.fmadd (Fin.ofNat 32 (fld w 21 5)) (Fin.ofNat 32 (fld w 16 5)) (Fin.ofNat 32 (fld w 11 5)) (Fin.ofNat 4 (fld w 3 2)) (bit w 2)) else .error .unusedField
  | 8 => if fld w 0 3 = 0 then .ok (.feq (Fin.ofNat 32 (fld w 21 5)) (Fin.ofNat 32 (fld w 16 5)) (Fin.ofNat 32 (fld w 11 5)) (Fin.ofNat 4 (fld w 3 2))) else .error .unusedField
  | 9 => if fld w 0 3 = 0 then .ok (.flt (Fin.ofNat 32 (fld w 21 5)) (Fin.ofNat 32 (fld w 16 5)) (Fin.ofNat 32 (fld w 11 5)) (Fin.ofNat 4 (fld w 3 2))) else .error .unusedField
  | 10 => if fld w 0 3 = 0 then .ok (.fle (Fin.ofNat 32 (fld w 21 5)) (Fin.ofNat 32 (fld w 16 5)) (Fin.ofNat 32 (fld w 11 5)) (Fin.ofNat 4 (fld w 3 2))) else .error .unusedField
  | 11 => if fld w 11 5 = 0 ∧ fld w 0 3 = 0 then .ok (.fclass (Fin.ofNat 32 (fld w 21 5)) (Fin.ofNat 32 (fld w 16 5)) (Fin.ofNat 4 (fld w 3 2))) else .error .unusedField
  | 12 => if fld w 11 5 = 0 then .ok (.fcvtI (Fin.ofNat 32 (fld w 21 5)) (Fin.ofNat 32 (fld w 16 5)) (Fin.ofNat 4 (fld w 3 2)) (bit w 2) (Fin.ofNat 4 (fld w 0 2))) else .error .unusedField
  | 13 => if fld w 11 5 = 0 then .ok (.fcvtF (Fin.ofNat 32 (fld w 21 5)) (Fin.ofNat 32 (fld w 16 5)) (Fin.ofNat 4 (fld w 3 2)) (bit w 2) (Fin.ofNat 4 (fld w 0 2))) else .error .unusedField
  | 14 => if fld w 11 5 = 0 then .ok (.fcvt (Fin.ofNat 32 (fld w 21 5)) (Fin.ofNat 32 (fld w 16 5)) (Fin.ofNat 4 (fld w 3 2)) (bit w 2) (Fin.ofNat 4 (fld w 0 2))) else .error .unusedField
  | _ => .error .reservedOp

/-- Major 0x10 (BZ), its op in [25:23] (R65). -/
def decBz (w : Nat) : Except DecodeError Instr :=
  match fld w 23 3 with
  | 0 => .ok (.beqz (Fin.ofNat 32 (fld w 18 5)) (Fin.ofNat 262144 (fld w 0 18)))
  | 1 => .ok (.bnez (Fin.ofNat 32 (fld w 18 5)) (Fin.ofNat 262144 (fld w 0 18)))
  | 2 => .ok (.bltz (Fin.ofNat 32 (fld w 18 5)) (Fin.ofNat 262144 (fld w 0 18)))
  | 3 => .ok (.bgez (Fin.ofNat 32 (fld w 18 5)) (Fin.ofNat 262144 (fld w 0 18)))
  | 4 => .ok (.bgtz (Fin.ofNat 32 (fld w 18 5)) (Fin.ofNat 262144 (fld w 0 18)))
  | 5 => .ok (.blez (Fin.ofNat 32 (fld w 18 5)) (Fin.ofNat 262144 (fld w 0 18)))
  | _ => .error .reservedOp

/-- Major 0x11 (BC), its op in [15:13] (R65). -/
def decBc (w : Nat) : Except DecodeError Instr :=
  match fld w 13 3 with
  | 0 => .ok (.beq (Fin.ofNat 32 (fld w 21 5)) (Fin.ofNat 32 (fld w 16 5)) (Fin.ofNat 8192 (fld w 0 13)))
  | 1 => .ok (.bne (Fin.ofNat 32 (fld w 21 5)) (Fin.ofNat 32 (fld w 16 5)) (Fin.ofNat 8192 (fld w 0 13)))
  | 2 => .ok (.blt (Fin.ofNat 32 (fld w 21 5)) (Fin.ofNat 32 (fld w 16 5)) (Fin.ofNat 8192 (fld w 0 13)))
  | 3 => .ok (.bge (Fin.ofNat 32 (fld w 21 5)) (Fin.ofNat 32 (fld w 16 5)) (Fin.ofNat 8192 (fld w 0 13)))
  | 4 => .ok (.bltu (Fin.ofNat 32 (fld w 21 5)) (Fin.ofNat 32 (fld w 16 5)) (Fin.ofNat 8192 (fld w 0 13)))
  | 5 => .ok (.bgeu (Fin.ofNat 32 (fld w 21 5)) (Fin.ofNat 32 (fld w 16 5)) (Fin.ofNat 8192 (fld w 0 13)))
  | _ => .error .reservedOp

/-- Major 0x12 (J). -/
def decJ (w : Nat) : Except DecodeError Instr :=
  .ok (.j (Fin.ofNat 67108864 (fld w 0 26)))

/-- Major 0x13 (JAL). -/
def decJal (w : Nat) : Except DecodeError Instr :=
  .ok (.jal (Fin.ofNat 67108864 (fld w 0 26)))

/-- Major 0x14 (JALR). -/
def decJalr (w : Nat) : Except DecodeError Instr :=
  .ok (.jalr (Fin.ofNat 32 (fld w 21 5)) (Fin.ofNat 32 (fld w 16 5)) (Fin.ofNat 65536 (fld w 0 16)))

/-- Major 0x15 (MSG), its op in [10:6] (Table 3.6). -/
def decMsg (w : Nat) : Except DecodeError Instr :=
  match fld w 6 5 with
  | 0 => if fld w 0 6 = 0 then .ok (.send (Fin.ofNat 32 (fld w 21 5)) (Fin.ofNat 32 (fld w 16 5)) (Fin.ofNat 32 (fld w 11 5))) else .error .unusedField
  | 1 => if fld w 11 5 = 0 ∧ fld w 0 6 = 0 then .ok (.sendc (Fin.ofNat 32 (fld w 21 5)) (Fin.ofNat 32 (fld w 16 5))) else .error .unusedField
  | 2 => if fld w 11 10 = 0 ∧ fld w 5 1 = 0 then .ok (.contid (Fin.ofNat 32 (fld w 21 5)) (Fin.ofNat 32 (fld w 0 5))) else .error .unusedField
  | 3 => if fld w 11 15 = 0 ∧ fld w 0 6 = 0 then .ok (.park) else .error .unusedField
  | 4 => if fld w 11 15 = 0 ∧ fld w 0 6 = 0 then .ok (.yield) else .error .unusedField
  | 5 => if fld w 11 5 = 0 ∧ fld w 0 6 = 0 then .ok (.spawn (Fin.ofNat 32 (fld w 21 5)) (Fin.ofNat 32 (fld w 16 5))) else .error .unusedField
  | 6 => if fld w 11 10 = 0 ∧ fld w 0 6 = 0 then .ok (.jwait (Fin.ofNat 32 (fld w 21 5))) else .error .unusedField
  | 7 => if fld w 21 5 = 0 ∧ fld w 11 5 = 0 ∧ fld w 0 6 = 0 then .ok (.jdone (Fin.ofNat 32 (fld w 16 5))) else .error .unusedField
  | 8 => if fld w 11 15 = 0 ∧ fld w 0 6 = 0 then .ok (.jexit) else .error .unusedField
  | 9 => if fld w 11 5 = 0 ∧ fld w 0 6 = 0 then .ok (.jstat (Fin.ofNat 32 (fld w 21 5)) (Fin.ofNat 32 (fld w 16 5))) else .error .unusedField
  | _ => .error .reservedOp

/-- Major 0x16 (ENG), its op in [10:6] (Table 3.6). -/
def decEng (w : Nat) : Except DecodeError Instr :=
  match fld w 6 5 with
  | 0 => if fld w 21 5 = 0 ∧ fld w 1 5 = 0 then .ok (.enq (Fin.ofNat 32 (fld w 16 5)) (Fin.ofNat 32 (fld w 11 5)) (bit w 0)) else .error .unusedField
  | 1 => if fld w 11 5 = 0 ∧ fld w 1 5 = 0 then .ok (.enqr (Fin.ofNat 32 (fld w 21 5)) (Fin.ofNat 32 (fld w 16 5)) (bit w 0)) else .error .unusedField
  | 2 =>
    if fld w 11 15 = 0 ∧ fld w 4 2 = 0 then
      match fld w 0 4 with
      | 0 => .ok .bar0
      | 1 => .ok .bar1
      | 2 => .ok .bar2
      | 3 => .ok .bar3
      | 4 => .ok .bar4
      | 5 => .ok .bar5
      | 6 => .ok .bar6
      | 7 => .ok .bar7
      | 8 => .ok .bar8
      | 9 => .ok .bar9
      | 10 => .ok .bar10
      | 11 => .ok .bar11
      | 12 => .ok .bar12
      | 13 => .ok .bar13
      | 14 => .ok .bar14
      | 15 => .ok .bar15
      | _ => .error .illegalField
    else .error .unusedField
  | 3 => if fld w 11 10 = 0 ∧ fld w 4 2 = 0 then .ok (.bararv (Fin.ofNat 32 (fld w 21 5)) (Fin.ofNat 16 (fld w 0 4))) else .error .unusedField
  | 4 => if fld w 21 5 = 0 ∧ fld w 11 5 = 0 ∧ fld w 4 2 = 0 then .ok (.barwt (Fin.ofNat 32 (fld w 16 5)) (Fin.ofNat 16 (fld w 0 4))) else .error .unusedField
  | 5 => if fld w 11 5 = 0 ∧ fld w 0 6 = 0 then .ok (.brnext (Fin.ofNat 32 (fld w 21 5)) (Fin.ofNat 32 (fld w 16 5))) else .error .unusedField
  | 6 => if fld w 21 5 = 0 ∧ fld w 11 5 = 0 ∧ fld w 0 6 = 0 then .ok (.brdone (Fin.ofNat 32 (fld w 16 5))) else .error .unusedField
  | _ => .error .reservedOp

/-- Major 0x17 (CSR), its op in [15:12] (R67). -/
def decCsr (w : Nat) : Except DecodeError Instr :=
  match fld w 12 4 with
  | 0 => if fld w 16 5 = 0 then .ok (.csrr (Fin.ofNat 32 (fld w 21 5)) (Fin.ofNat 4096 (fld w 0 12))) else .error .unusedField
  | 1 => if fld w 21 5 = 0 then .ok (.csrw (Fin.ofNat 32 (fld w 16 5)) (Fin.ofNat 4096 (fld w 0 12))) else .error .unusedField
  | 2 => .ok (.csrset (Fin.ofNat 32 (fld w 21 5)) (Fin.ofNat 32 (fld w 16 5)) (Fin.ofNat 4096 (fld w 0 12)))
  | 3 => .ok (.csrclr (Fin.ofNat 32 (fld w 21 5)) (Fin.ofNat 32 (fld w 16 5)) (Fin.ofNat 4096 (fld w 0 12)))
  | 4 => .ok (.csrswap (Fin.ofNat 32 (fld w 21 5)) (Fin.ofNat 32 (fld w 16 5)) (Fin.ofNat 4096 (fld w 0 12)))
  | _ => .error .reservedOp

/-- Major 0x20 (VCTL), its op in [10:5] (Table 3.7). -/
def decVctl (w : Nat) : Except DecodeError Instr :=
  match fld w 5 6 with
  | 0 => if fld w 11 5 = 0 ∧ fld w 1 4 = 0 then .ok (.setvl (Fin.ofNat 32 (fld w 21 5)) (Fin.ofNat 32 (fld w 16 5)) (bit w 0)) else .error .unusedField
  | 1 => if fld w 21 5 = 0 ∧ fld w 11 5 = 0 ∧ fld w 0 5 = 0 then .ok (.loopv (Fin.ofNat 32 (fld w 16 5))) else .error .unusedField
  | 2 => if fld w 11 10 = 0 ∧ fld w 0 5 = 0 then .ok (.nexts (Fin.ofNat 32 (fld w 21 5))) else .error .unusedField
  | 3 => if fld w 11 15 = 0 then .ok (.vrep (bit w 4) (Fin.ofNat 16 (fld w 0 4))) else .error .unusedField
  | 4 =>
    if fld w 11 15 = 0 ∧ fld w 1 4 = 0 then
      match fld w 0 1 with
      | 0 => .ok .vfork2
      | 1 => .ok .vfork4
      | _ => .error .illegalField
    else .error .unusedField
  | 5 => if fld w 11 15 = 0 ∧ fld w 0 5 = 0 then .ok (.vjoin) else .error .unusedField
  | 6 => if fld w 11 10 = 0 ∧ fld w 4 1 = 0 then .ok (.vtag (Fin.ofNat 32 (fld w 21 5)) (Fin.ofNat 16 (fld w 0 4))) else .error .unusedField
  | 7 => if fld w 11 15 = 0 ∧ fld w 0 5 = 0 then .ok (.vwait) else .error .unusedField
  | 8 => if fld w 0 5 = 0 then .ok (.vmvx (Fin.ofNat 32 (fld w 21 5)) (Fin.ofNat 32 (fld w 16 5)) (Fin.ofNat 32 (fld w 11 5))) else .error .unusedField
  | 9 => if fld w 0 5 = 0 then .ok (.vmvs (Fin.ofNat 32 (fld w 21 5)) (Fin.ofNat 32 (fld w 16 5)) (Fin.ofNat 32 (fld w 11 5))) else .error .unusedField
  | _ => .error .reservedOp

/-- Major 0x21 (VOP), its op in [10:5] (Table 3.7). -/
def decVop (w : Nat) : Except DecodeError Instr :=
  match fld w 5 6 with
  | 0 => if fld w 0 4 = 0 then .ok (.vadd (Fin.ofNat 32 (fld w 21 5)) (Fin.ofNat 32 (fld w 16 5)) (Fin.ofNat 32 (fld w 11 5)) (bit w 4)) else .error .unusedField
  | 1 => if fld w 0 4 = 0 then .ok (.vsub (Fin.ofNat 32 (fld w 21 5)) (Fin.ofNat 32 (fld w 16 5)) (Fin.ofNat 32 (fld w 11 5)) (bit w 4)) else .error .unusedField
  | 2 => if fld w 0 4 = 0 then .ok (.vrsub (Fin.ofNat 32 (fld w 21 5)) (Fin.ofNat 32 (fld w 16 5)) (Fin.ofNat 32 (fld w 11 5)) (bit w 4)) else .error .unusedField
  | 3 => if fld w 0 4 = 0 then .ok (.vmul (Fin.ofNat 32 (fld w 21 5)) (Fin.ofNat 32 (fld w 16 5)) (Fin.ofNat 32 (fld w 11 5)) (bit w 4)) else .error .unusedField
  | 4 => if fld w 0 4 = 0 then .ok (.vmulh (Fin.ofNat 32 (fld w 21 5)) (Fin.ofNat 32 (fld w 16 5)) (Fin.ofNat 32 (fld w 11 5)) (bit w 4)) else .error .unusedField
  | 5 => if fld w 0 4 = 0 then .ok (.vmin (Fin.ofNat 32 (fld w 21 5)) (Fin.ofNat 32 (fld w 16 5)) (Fin.ofNat 32 (fld w 11 5)) (bit w 4)) else .error .unusedField
  | 6 => if fld w 0 4 = 0 then .ok (.vmax (Fin.ofNat 32 (fld w 21 5)) (Fin.ofNat 32 (fld w 16 5)) (Fin.ofNat 32 (fld w 11 5)) (bit w 4)) else .error .unusedField
  | 7 => if fld w 11 5 = 0 ∧ fld w 0 5 = 0 then .ok (.vabs (Fin.ofNat 32 (fld w 21 5)) (Fin.ofNat 32 (fld w 16 5))) else .error .unusedField
  | 8 => if fld w 11 5 = 0 ∧ fld w 0 5 = 0 then .ok (.vneg (Fin.ofNat 32 (fld w 21 5)) (Fin.ofNat 32 (fld w 16 5))) else .error .unusedField
  | 9 => if fld w 0 5 = 0 then .ok (.vand (Fin.ofNat 32 (fld w 21 5)) (Fin.ofNat 32 (fld w 16 5)) (Fin.ofNat 32 (fld w 11 5))) else .error .unusedField
  | 10 => if fld w 0 5 = 0 then .ok (.vor (Fin.ofNat 32 (fld w 21 5)) (Fin.ofNat 32 (fld w 16 5)) (Fin.ofNat 32 (fld w 11 5))) else .error .unusedField
  | 11 => if fld w 0 5 = 0 then .ok (.vxor (Fin.ofNat 32 (fld w 21 5)) (Fin.ofNat 32 (fld w 16 5)) (Fin.ofNat 32 (fld w 11 5))) else .error .unusedField
  | 12 => if fld w 0 5 = 0 then .ok (.vandn (Fin.ofNat 32 (fld w 21 5)) (Fin.ofNat 32 (fld w 16 5)) (Fin.ofNat 32 (fld w 11 5))) else .error .unusedField
  | 13 => if fld w 0 5 = 0 then .ok (.vsll (Fin.ofNat 32 (fld w 21 5)) (Fin.ofNat 32 (fld w 16 5)) (Fin.ofNat 32 (fld w 11 5))) else .error .unusedField
  | 14 => if fld w 0 5 = 0 then .ok (.vsrl (Fin.ofNat 32 (fld w 21 5)) (Fin.ofNat 32 (fld w 16 5)) (Fin.ofNat 32 (fld w 11 5))) else .error .unusedField
  | 15 => if fld w 0 5 = 0 then .ok (.vsra (Fin.ofNat 32 (fld w 21 5)) (Fin.ofNat 32 (fld w 16 5)) (Fin.ofNat 32 (fld w 11 5))) else .error .unusedField
  | 16 => if fld w 0 4 = 0 then .ok (.vsadd (Fin.ofNat 32 (fld w 21 5)) (Fin.ofNat 32 (fld w 16 5)) (Fin.ofNat 32 (fld w 11 5)) (bit w 4)) else .error .unusedField
  | 17 => if fld w 0 4 = 0 then .ok (.vssub (Fin.ofNat 32 (fld w 21 5)) (Fin.ofNat 32 (fld w 16 5)) (Fin.ofNat 32 (fld w 11 5)) (bit w 4)) else .error .unusedField
  | 18 => if fld w 0 4 = 0 then .ok (.vavg (Fin.ofNat 32 (fld w 21 5)) (Fin.ofNat 32 (fld w 16 5)) (Fin.ofNat 32 (fld w 11 5)) (bit w 4)) else .error .unusedField
  | 19 => if fld w 0 4 = 0 then .ok (.vdiv (Fin.ofNat 32 (fld w 21 5)) (Fin.ofNat 32 (fld w 16 5)) (Fin.ofNat 32 (fld w 11 5)) (bit w 4)) else .error .unusedField
  | 20 => if fld w 11 5 = 0 ∧ fld w 0 4 = 0 then .ok (.vcvt (Fin.ofNat 32 (fld w 21 5)) (Fin.ofNat 32 (fld w 16 5)) (bit w 4)) else .error .unusedField
  | 21 => if fld w 0 5 = 0 then .ok (.vcmpeq (Fin.ofNat 32 (fld w 21 5)) (Fin.ofNat 32 (fld w 16 5)) (Fin.ofNat 32 (fld w 11 5))) else .error .unusedField
  | 22 => if fld w 0 5 = 0 then .ok (.vcmpne (Fin.ofNat 32 (fld w 21 5)) (Fin.ofNat 32 (fld w 16 5)) (Fin.ofNat 32 (fld w 11 5))) else .error .unusedField
  | 23 => if fld w 0 5 = 0 then .ok (.vcmplt (Fin.ofNat 32 (fld w 21 5)) (Fin.ofNat 32 (fld w 16 5)) (Fin.ofNat 32 (fld w 11 5))) else .error .unusedField
  | 24 => if fld w 0 5 = 0 then .ok (.vcmple (Fin.ofNat 32 (fld w 21 5)) (Fin.ofNat 32 (fld w 16 5)) (Fin.ofNat 32 (fld w 11 5))) else .error .unusedField
  | 25 => if fld w 0 5 = 0 then .ok (.vsel (Fin.ofNat 32 (fld w 21 5)) (Fin.ofNat 32 (fld w 16 5)) (Fin.ofNat 32 (fld w 11 5))) else .error .unusedField
  | 26 => if fld w 0 5 = 0 then .ok (.vmrg (Fin.ofNat 32 (fld w 21 5)) (Fin.ofNat 32 (fld w 16 5)) (Fin.ofNat 32 (fld w 11 5))) else .error .unusedField
  | 27 => if fld w 11 5 = 0 ∧ fld w 0 5 = 0 then .ok (.vclass (Fin.ofNat 32 (fld w 21 5)) (Fin.ofNat 32 (fld w 16 5))) else .error .unusedField
  | _ => .error .reservedOp

/-- Major 0x22 (VOPS), its op in [10:5] (Table 3.7). -/
def decVops (w : Nat) : Except DecodeError Instr :=
  match fld w 5 6 with
  | 0 => if fld w 0 4 = 0 then .ok (.vaddVs (Fin.ofNat 32 (fld w 21 5)) (Fin.ofNat 32 (fld w 16 5)) (Fin.ofNat 32 (fld w 11 5)) (bit w 4)) else .error .unusedField
  | 1 => if fld w 0 4 = 0 then .ok (.vsubVs (Fin.ofNat 32 (fld w 21 5)) (Fin.ofNat 32 (fld w 16 5)) (Fin.ofNat 32 (fld w 11 5)) (bit w 4)) else .error .unusedField
  | 2 => if fld w 0 4 = 0 then .ok (.vrsubVs (Fin.ofNat 32 (fld w 21 5)) (Fin.ofNat 32 (fld w 16 5)) (Fin.ofNat 32 (fld w 11 5)) (bit w 4)) else .error .unusedField
  | 3 => if fld w 0 4 = 0 then .ok (.vmulVs (Fin.ofNat 32 (fld w 21 5)) (Fin.ofNat 32 (fld w 16 5)) (Fin.ofNat 32 (fld w 11 5)) (bit w 4)) else .error .unusedField
  | 4 => if fld w 0 4 = 0 then .ok (.vmulhVs (Fin.ofNat 32 (fld w 21 5)) (Fin.ofNat 32 (fld w 16 5)) (Fin.ofNat 32 (fld w 11 5)) (bit w 4)) else .error .unusedField
  | 5 => if fld w 0 4 = 0 then .ok (.vminVs (Fin.ofNat 32 (fld w 21 5)) (Fin.ofNat 32 (fld w 16 5)) (Fin.ofNat 32 (fld w 11 5)) (bit w 4)) else .error .unusedField
  | 6 => if fld w 0 4 = 0 then .ok (.vmaxVs (Fin.ofNat 32 (fld w 21 5)) (Fin.ofNat 32 (fld w 16 5)) (Fin.ofNat 32 (fld w 11 5)) (bit w 4)) else .error .unusedField
  | 9 => if fld w 0 5 = 0 then .ok (.vandVs (Fin.ofNat 32 (fld w 21 5)) (Fin.ofNat 32 (fld w 16 5)) (Fin.ofNat 32 (fld w 11 5))) else .error .unusedField
  | 10 => if fld w 0 5 = 0 then .ok (.vorVs (Fin.ofNat 32 (fld w 21 5)) (Fin.ofNat 32 (fld w 16 5)) (Fin.ofNat 32 (fld w 11 5))) else .error .unusedField
  | 11 => if fld w 0 5 = 0 then .ok (.vxorVs (Fin.ofNat 32 (fld w 21 5)) (Fin.ofNat 32 (fld w 16 5)) (Fin.ofNat 32 (fld w 11 5))) else .error .unusedField
  | 12 => if fld w 0 5 = 0 then .ok (.vandnVs (Fin.ofNat 32 (fld w 21 5)) (Fin.ofNat 32 (fld w 16 5)) (Fin.ofNat 32 (fld w 11 5))) else .error .unusedField
  | 13 => if fld w 0 5 = 0 then .ok (.vsllVs (Fin.ofNat 32 (fld w 21 5)) (Fin.ofNat 32 (fld w 16 5)) (Fin.ofNat 32 (fld w 11 5))) else .error .unusedField
  | 14 => if fld w 0 5 = 0 then .ok (.vsrlVs (Fin.ofNat 32 (fld w 21 5)) (Fin.ofNat 32 (fld w 16 5)) (Fin.ofNat 32 (fld w 11 5))) else .error .unusedField
  | 15 => if fld w 0 5 = 0 then .ok (.vsraVs (Fin.ofNat 32 (fld w 21 5)) (Fin.ofNat 32 (fld w 16 5)) (Fin.ofNat 32 (fld w 11 5))) else .error .unusedField
  | 16 => if fld w 0 4 = 0 then .ok (.vsaddVs (Fin.ofNat 32 (fld w 21 5)) (Fin.ofNat 32 (fld w 16 5)) (Fin.ofNat 32 (fld w 11 5)) (bit w 4)) else .error .unusedField
  | 17 => if fld w 0 4 = 0 then .ok (.vssubVs (Fin.ofNat 32 (fld w 21 5)) (Fin.ofNat 32 (fld w 16 5)) (Fin.ofNat 32 (fld w 11 5)) (bit w 4)) else .error .unusedField
  | 18 => if fld w 0 4 = 0 then .ok (.vavgVs (Fin.ofNat 32 (fld w 21 5)) (Fin.ofNat 32 (fld w 16 5)) (Fin.ofNat 32 (fld w 11 5)) (bit w 4)) else .error .unusedField
  | 19 => if fld w 0 4 = 0 then .ok (.vdivVs (Fin.ofNat 32 (fld w 21 5)) (Fin.ofNat 32 (fld w 16 5)) (Fin.ofNat 32 (fld w 11 5)) (bit w 4)) else .error .unusedField
  | 21 => if fld w 0 5 = 0 then .ok (.vcmpeqVs (Fin.ofNat 32 (fld w 21 5)) (Fin.ofNat 32 (fld w 16 5)) (Fin.ofNat 32 (fld w 11 5))) else .error .unusedField
  | 22 => if fld w 0 5 = 0 then .ok (.vcmpneVs (Fin.ofNat 32 (fld w 21 5)) (Fin.ofNat 32 (fld w 16 5)) (Fin.ofNat 32 (fld w 11 5))) else .error .unusedField
  | 23 => if fld w 0 5 = 0 then .ok (.vcmpltVs (Fin.ofNat 32 (fld w 21 5)) (Fin.ofNat 32 (fld w 16 5)) (Fin.ofNat 32 (fld w 11 5))) else .error .unusedField
  | 24 => if fld w 0 5 = 0 then .ok (.vcmpleVs (Fin.ofNat 32 (fld w 21 5)) (Fin.ofNat 32 (fld w 16 5)) (Fin.ofNat 32 (fld w 11 5))) else .error .unusedField
  | _ => .error .reservedOp

/-- Major 0x23 (VFMA), its op in [5:3] (R70). -/
def decVfma (w : Nat) : Except DecodeError Instr :=
  match fld w 3 3 with
  | 0 => if fld w 0 2 = 0 then .ok (.vfma (Fin.ofNat 32 (fld w 21 5)) (Fin.ofNat 32 (fld w 16 5)) (Fin.ofNat 32 (fld w 11 5)) (Fin.ofNat 32 (fld w 6 5)) (bit w 2)) else .error .unusedField
  | 1 => if fld w 0 2 = 0 then .ok (.vfms (Fin.ofNat 32 (fld w 21 5)) (Fin.ofNat 32 (fld w 16 5)) (Fin.ofNat 32 (fld w 11 5)) (Fin.ofNat 32 (fld w 6 5)) (bit w 2)) else .error .unusedField
  | 2 => if fld w 0 2 = 0 then .ok (.vfnma (Fin.ofNat 32 (fld w 21 5)) (Fin.ofNat 32 (fld w 16 5)) (Fin.ofNat 32 (fld w 11 5)) (Fin.ofNat 32 (fld w 6 5)) (bit w 2)) else .error .unusedField
  | 3 => if fld w 0 2 = 0 then .ok (.vfnms (Fin.ofNat 32 (fld w 21 5)) (Fin.ofNat 32 (fld w 16 5)) (Fin.ofNat 32 (fld w 11 5)) (Fin.ofNat 32 (fld w 6 5)) (bit w 2)) else .error .unusedField
  | 4 => if fld w 6 5 = 0 ∧ fld w 0 2 = 0 then .ok (.vmacc (Fin.ofNat 32 (fld w 21 5)) (Fin.ofNat 32 (fld w 16 5)) (Fin.ofNat 32 (fld w 11 5)) (bit w 2)) else .error .unusedField
  | 5 => if fld w 0 2 = 0 then .ok (.vdot2 (Fin.ofNat 32 (fld w 21 5)) (Fin.ofNat 32 (fld w 16 5)) (Fin.ofNat 32 (fld w 11 5)) (Fin.ofNat 32 (fld w 6 5)) (bit w 2)) else .error .unusedField
  | _ => .error .reservedOp

/-- Major 0x24 (VMSK), its op in [10:5] (Table 3.7). -/
def decVmsk (w : Nat) : Except DecodeError Instr :=
  match fld w 5 6 with
  | 0 => if fld w 0 5 = 0 then .ok (.mand (Fin.ofNat 32 (fld w 21 5)) (Fin.ofNat 32 (fld w 16 5)) (Fin.ofNat 32 (fld w 11 5))) else .error .unusedField
  | 1 => if fld w 0 5 = 0 then .ok (.mor (Fin.ofNat 32 (fld w 21 5)) (Fin.ofNat 32 (fld w 16 5)) (Fin.ofNat 32 (fld w 11 5))) else .error .unusedField
  | 2 => if fld w 0 5 = 0 then .ok (.mxor (Fin.ofNat 32 (fld w 21 5)) (Fin.ofNat 32 (fld w 16 5)) (Fin.ofNat 32 (fld w 11 5))) else .error .unusedField
  | 3 => if fld w 0 5 = 0 then .ok (.mandn (Fin.ofNat 32 (fld w 21 5)) (Fin.ofNat 32 (fld w 16 5)) (Fin.ofNat 32 (fld w 11 5))) else .error .unusedField
  | 4 => if fld w 11 5 = 0 ∧ fld w 0 5 = 0 then .ok (.mnot (Fin.ofNat 32 (fld w 21 5)) (Fin.ofNat 32 (fld w 16 5))) else .error .unusedField
  | 5 => if fld w 11 5 = 0 ∧ fld w 0 5 = 0 then .ok (.mmov (Fin.ofNat 32 (fld w 21 5)) (Fin.ofNat 32 (fld w 16 5))) else .error .unusedField
  | 6 => if fld w 11 5 = 0 ∧ fld w 0 5 = 0 then .ok (.msbf (Fin.ofNat 32 (fld w 21 5)) (Fin.ofNat 32 (fld w 16 5))) else .error .unusedField
  | 7 => if fld w 11 5 = 0 ∧ fld w 0 5 = 0 then .ok (.msif (Fin.ofNat 32 (fld w 21 5)) (Fin.ofNat 32 (fld w 16 5))) else .error .unusedField
  | 8 => if fld w 11 5 = 0 ∧ fld w 0 5 = 0 then .ok (.msof (Fin.ofNat 32 (fld w 21 5)) (Fin.ofNat 32 (fld w 16 5))) else .error .unusedField
  | 9 => if fld w 11 5 = 0 ∧ fld w 0 5 = 0 then .ok (.mpopc (Fin.ofNat 32 (fld w 21 5)) (Fin.ofNat 32 (fld w 16 5))) else .error .unusedField
  | 10 => if fld w 11 5 = 0 ∧ fld w 0 5 = 0 then .ok (.mfirst (Fin.ofNat 32 (fld w 21 5)) (Fin.ofNat 32 (fld w 16 5))) else .error .unusedField
  | 11 => if fld w 11 5 = 0 ∧ fld w 0 5 = 0 then .ok (.viota (Fin.ofNat 32 (fld w 21 5)) (Fin.ofNat 32 (fld w 16 5))) else .error .unusedField
  | 12 => if fld w 11 10 = 0 ∧ fld w 0 5 = 0 then .ok (.vid (Fin.ofNat 32 (fld w 21 5))) else .error .unusedField
  | 13 => if fld w 11 5 = 0 ∧ fld w 0 5 = 0 then .ok (.mset (Fin.ofNat 32 (fld w 21 5)) (Fin.ofNat 32 (fld w 16 5))) else .error .unusedField
  | _ => .error .reservedOp

/-- Major 0x25 (VPRM), its op in [10:5] (Table 3.7). -/
def decVprm (w : Nat) : Except DecodeError Instr :=
  match fld w 5 6 with
  | 0 => if fld w 0 5 = 0 then .ok (.vslideup (Fin.ofNat 32 (fld w 21 5)) (Fin.ofNat 32 (fld w 16 5)) (Fin.ofNat 32 (fld w 11 5))) else .error .unusedField
  | 1 => if fld w 0 5 = 0 then .ok (.vslidedn (Fin.ofNat 32 (fld w 21 5)) (Fin.ofNat 32 (fld w 16 5)) (Fin.ofNat 32 (fld w 11 5))) else .error .unusedField
  | 2 => if fld w 0 5 = 0 then .ok (.vrgather (Fin.ofNat 32 (fld w 21 5)) (Fin.ofNat 32 (fld w 16 5)) (Fin.ofNat 32 (fld w 11 5))) else .error .unusedField
  | 3 => if fld w 11 5 = 0 ∧ fld w 0 5 = 0 then .ok (.vcompress (Fin.ofNat 32 (fld w 21 5)) (Fin.ofNat 32 (fld w 16 5))) else .error .unusedField
  | 4 => if fld w 11 5 = 0 ∧ fld w 0 5 = 0 then .ok (.vexpand (Fin.ofNat 32 (fld w 21 5)) (Fin.ofNat 32 (fld w 16 5))) else .error .unusedField
  | 5 => if fld w 11 5 = 0 ∧ fld w 3 2 = 0 then .ok (.vshuf (Fin.ofNat 32 (fld w 21 5)) (Fin.ofNat 32 (fld w 16 5)) (Fin.ofNat 8 (fld w 0 3))) else .error .unusedField
  | 6 => if fld w 11 5 = 0 ∧ fld w 4 1 = 0 then .ok (.vxch (Fin.ofNat 32 (fld w 21 5)) (Fin.ofNat 32 (fld w 16 5)) (Fin.ofNat 16 (fld w 0 4))) else .error .unusedField
  | 7 => if fld w 0 5 = 0 then .ok (.vbcast (Fin.ofNat 32 (fld w 21 5)) (Fin.ofNat 32 (fld w 16 5)) (Fin.ofNat 32 (fld w 11 5))) else .error .unusedField
  | 8 => if fld w 0 4 = 0 then .ok (.vredsum (Fin.ofNat 32 (fld w 21 5)) (Fin.ofNat 32 (fld w 16 5)) (Fin.ofNat 32 (fld w 11 5)) (bit w 4)) else .error .unusedField
  | 9 => if fld w 0 4 = 0 then .ok (.vredsumo (Fin.ofNat 32 (fld w 21 5)) (Fin.ofNat 32 (fld w 16 5)) (Fin.ofNat 32 (fld w 11 5)) (bit w 4)) else .error .unusedField
  | 10 => if fld w 0 4 = 0 then .ok (.vredmin (Fin.ofNat 32 (fld w 21 5)) (Fin.ofNat 32 (fld w 16 5)) (Fin.ofNat 32 (fld w 11 5)) (bit w 4)) else .error .unusedField
  | 11 => if fld w 0 4 = 0 then .ok (.vredmax (Fin.ofNat 32 (fld w 21 5)) (Fin.ofNat 32 (fld w 16 5)) (Fin.ofNat 32 (fld w 11 5)) (bit w 4)) else .error .unusedField
  | _ => .error .reservedOp

/-- Major 0x26 (VSIG), its op in [10:5] (Table 3.7). -/
def decVsig (w : Nat) : Except DecodeError Instr :=
  match fld w 5 6 with
  | 0 => if fld w 4 1 = 0 then .ok (.vcmul (Fin.ofNat 32 (fld w 21 5)) (Fin.ofNat 32 (fld w 16 5)) (Fin.ofNat 32 (fld w 11 5)) (bit w 3) (bit w 2) (bit w 1) (bit w 0)) else .error .unusedField
  | 1 => if fld w 4 1 = 0 then .ok (.vcmac (Fin.ofNat 32 (fld w 21 5)) (Fin.ofNat 32 (fld w 16 5)) (Fin.ofNat 32 (fld w 11 5)) (bit w 3) (bit w 2) (bit w 1) (bit w 0)) else .error .unusedField
  | 2 => if fld w 11 5 = 0 ∧ fld w 4 1 = 0 ∧ fld w 0 3 = 0 then .ok (.vcmag2 (Fin.ofNat 32 (fld w 21 5)) (Fin.ofNat 32 (fld w 16 5)) (bit w 3)) else .error .unusedField
  | 3 => if fld w 11 5 = 0 ∧ fld w 4 1 = 0 ∧ fld w 0 3 = 0 then .ok (.vconj (Fin.ofNat 32 (fld w 21 5)) (Fin.ofNat 32 (fld w 16 5)) (bit w 3)) else .error .unusedField
  | 4 => if fld w 0 3 = 0 then .ok (.vbfly2 (Fin.ofNat 32 (fld w 21 5)) (Fin.ofNat 32 (fld w 16 5)) (Fin.ofNat 32 (fld w 11 5)) (bit w 4) (bit w 3)) else .error .unusedField
  | 5 => if fld w 0 3 = 0 then .ok (.vbfly4 (Fin.ofNat 32 (fld w 21 5)) (Fin.ofNat 32 (fld w 16 5)) (Fin.ofNat 32 (fld w 11 5)) (bit w 4) (bit w 3)) else .error .unusedField
  | 6 => if fld w 11 5 = 0 ∧ fld w 4 1 = 0 ∧ fld w 0 3 = 0 then .ok (.vcinv2 (Fin.ofNat 32 (fld w 21 5)) (Fin.ofNat 32 (fld w 16 5)) (bit w 3)) else .error .unusedField
  | 7 => if fld w 3 2 = 0 then .ok (.vqmul (Fin.ofNat 32 (fld w 21 5)) (Fin.ofNat 32 (fld w 16 5)) (Fin.ofNat 32 (fld w 11 5)) (bit w 2) (bit w 1) (bit w 0)) else .error .unusedField
  | 8 => if fld w 0 5 = 0 then .ok (.vqscl (Fin.ofNat 32 (fld w 21 5)) (Fin.ofNat 32 (fld w 16 5)) (Fin.ofNat 32 (fld w 11 5))) else .error .unusedField
  | _ => .error .reservedOp

/-- Major 0x27 (VSFU), its op in [10:5] (Table 3.7). -/
def decVsfu (w : Nat) : Except DecodeError Instr :=
  match fld w 5 6 with
  | 0 => if fld w 11 5 = 0 ∧ fld w 0 4 = 0 then .ok (.sfRcp (Fin.ofNat 32 (fld w 21 5)) (Fin.ofNat 32 (fld w 16 5)) (bit w 4)) else .error .unusedField
  | 1 => if fld w 11 5 = 0 ∧ fld w 0 4 = 0 then .ok (.sfRsq (Fin.ofNat 32 (fld w 21 5)) (Fin.ofNat 32 (fld w 16 5)) (bit w 4)) else .error .unusedField
  | 2 => if fld w 11 5 = 0 ∧ fld w 0 4 = 0 then .ok (.sfSqrt (Fin.ofNat 32 (fld w 21 5)) (Fin.ofNat 32 (fld w 16 5)) (bit w 4)) else .error .unusedField
  | 3 => if fld w 11 5 = 0 ∧ fld w 0 4 = 0 then .ok (.sfExp2 (Fin.ofNat 32 (fld w 21 5)) (Fin.ofNat 32 (fld w 16 5)) (bit w 4)) else .error .unusedField
  | 4 => if fld w 11 5 = 0 ∧ fld w 0 4 = 0 then .ok (.sfLog2 (Fin.ofNat 32 (fld w 21 5)) (Fin.ofNat 32 (fld w 16 5)) (bit w 4)) else .error .unusedField
  | 5 => if fld w 11 5 = 0 ∧ fld w 0 4 = 0 then .ok (.sfSinpi (Fin.ofNat 32 (fld w 21 5)) (Fin.ofNat 32 (fld w 16 5)) (bit w 4)) else .error .unusedField
  | 6 => if fld w 11 5 = 0 ∧ fld w 0 4 = 0 then .ok (.sfCospi (Fin.ofNat 32 (fld w 21 5)) (Fin.ofNat 32 (fld w 16 5)) (bit w 4)) else .error .unusedField
  | 7 => if fld w 0 4 = 0 then .ok (.sfAtan2pi (Fin.ofNat 32 (fld w 21 5)) (Fin.ofNat 32 (fld w 16 5)) (Fin.ofNat 32 (fld w 11 5)) (bit w 4)) else .error .unusedField
  | _ => .error .reservedOp

/-- Major 0x28 (VMEM), its op in [11:7] (R71). -/
def decVmem (w : Nat) : Except DecodeError Instr :=
  match fld w 7 5 with
  | 0 => if fld w 12 5 = 0 ∧ fld w 0 6 = 0 then .ok (.vld (Fin.ofNat 32 (fld w 21 5)) (Fin.ofNat 16 (fld w 17 4)) (bit w 6)) else .error .unusedField
  | 1 => if fld w 12 5 = 0 ∧ fld w 0 6 = 0 then .ok (.vst (Fin.ofNat 32 (fld w 21 5)) (Fin.ofNat 16 (fld w 17 4)) (bit w 6)) else .error .unusedField
  | 2 => if fld w 12 5 = 0 ∧ fld w 0 7 = 0 then .ok (.vstu (Fin.ofNat 32 (fld w 21 5)) (Fin.ofNat 16 (fld w 17 4))) else .error .unusedField
  | 3 => if fld w 12 5 = 0 ∧ fld w 0 7 = 0 then .ok (.vldff (Fin.ofNat 32 (fld w 21 5)) (Fin.ofNat 16 (fld w 17 4))) else .error .unusedField
  | 4 => if fld w 12 5 = 0 ∧ fld w 0 7 = 0 then .ok (.vlds (Fin.ofNat 32 (fld w 21 5)) (Fin.ofNat 16 (fld w 17 4))) else .error .unusedField
  | 5 => if fld w 0 6 = 0 then .ok (.vgath (Fin.ofNat 32 (fld w 21 5)) (Fin.ofNat 16 (fld w 17 4)) (Fin.ofNat 32 (fld w 12 5)) (bit w 6)) else .error .unusedField
  | 6 => if fld w 0 6 = 0 then .ok (.vscat (Fin.ofNat 32 (fld w 21 5)) (Fin.ofNat 16 (fld w 17 4)) (Fin.ofNat 32 (fld w 12 5)) (bit w 6)) else .error .unusedField
  | 7 => if fld w 0 7 = 0 then .ok (.vscatu (Fin.ofNat 32 (fld w 21 5)) (Fin.ofNat 16 (fld w 17 4)) (Fin.ofNat 32 (fld w 12 5))) else .error .unusedField
  | 8 => if fld w 12 5 = 0 ∧ fld w 0 7 = 0 then .ok (.vstcmp (Fin.ofNat 32 (fld w 21 5)) (Fin.ofNat 16 (fld w 17 4))) else .error .unusedField
  | 9 => if fld w 12 5 = 0 ∧ fld w 0 7 = 0 then .ok (.vldexp (Fin.ofNat 32 (fld w 21 5)) (Fin.ofNat 16 (fld w 17 4))) else .error .unusedField
  | 10 => if fld w 4 2 = 0 then .ok (.vamo (Fin.ofNat 32 (fld w 21 5)) (Fin.ofNat 16 (fld w 17 4)) (Fin.ofNat 32 (fld w 12 5)) (bit w 6) (Fin.ofNat 16 (fld w 0 4))) else .error .unusedField
  | 11 => if fld w 4 3 = 0 then .ok (.vredm (Fin.ofNat 32 (fld w 21 5)) (Fin.ofNat 16 (fld w 17 4)) (Fin.ofNat 32 (fld w 12 5)) (Fin.ofNat 16 (fld w 0 4))) else .error .unusedField
  | 12 =>
    if fld w 21 5 = 0 ∧ fld w 12 5 = 0 ∧ fld w 0 7 = 0 then
      match fld w 17 4 with
      | 0 => .ok .vpref0
      | 1 => .ok .vpref1
      | 2 => .ok .vpref2
      | 3 => .ok .vpref3
      | 4 => .ok .vpref4
      | 5 => .ok .vpref5
      | 6 => .ok .vpref6
      | 7 => .ok .vpref7
      | 8 => .ok .vpref8
      | 9 => .ok .vpref9
      | 10 => .ok .vpref10
      | 11 => .ok .vpref11
      | 12 => .ok .vpref12
      | 13 => .ok .vpref13
      | 14 => .ok .vpref14
      | 15 => .ok .vpref15
      | _ => .error .illegalField
    else .error .unusedField
  | _ => .error .reservedOp

/-- Major 0x29 (SDSC), its op in [11:7] (R71). -/
def decSdsc (w : Nat) : Except DecodeError Instr :=
  match fld w 7 5 with
  | 0 => if fld w 12 5 = 0 ∧ fld w 4 3 = 0 then .ok (.sdset (Fin.ofNat 32 (fld w 21 5)) (Fin.ofNat 16 (fld w 17 4)) (Fin.ofNat 16 (fld w 0 4))) else .error .unusedField
  | 1 => if fld w 12 5 = 0 ∧ fld w 4 3 = 0 then .ok (.sdget (Fin.ofNat 32 (fld w 21 5)) (Fin.ofNat 16 (fld w 17 4)) (Fin.ofNat 16 (fld w 0 4))) else .error .unusedField
  | 2 => if fld w 12 5 = 0 ∧ fld w 0 7 = 0 then .ok (.sdld (Fin.ofNat 32 (fld w 21 5)) (Fin.ofNat 16 (fld w 17 4))) else .error .unusedField
  | 3 => if fld w 12 5 = 0 ∧ fld w 0 7 = 0 then .ok (.sdst (Fin.ofNat 32 (fld w 21 5)) (Fin.ofNat 16 (fld w 17 4))) else .error .unusedField
  | 4 => if fld w 12 5 = 0 ∧ fld w 0 7 = 0 then .ok (.sdadv (Fin.ofNat 32 (fld w 21 5)) (Fin.ofNat 16 (fld w 17 4))) else .error .unusedField
  | 5 => if fld w 12 5 = 0 ∧ fld w 0 7 = 0 then .ok (.sdpos (Fin.ofNat 32 (fld w 21 5)) (Fin.ofNat 16 (fld w 17 4))) else .error .unusedField
  | _ => .error .reservedOp

/-- Major 0x2A (MTX), its op in [9:6] (Table 3.8). -/
def decMtx (w : Nat) : Except DecodeError Instr :=
  match fld w 6 4 with
  | 0 =>
    if fld w 10 14 = 0 ∧ fld w 0 6 = 0 then
      match fld w 24 2 with
      | 0 => .ok .mzero0
      | 1 => .ok .mzero1
      | 2 => .ok .mzero2
      | 3 => .ok .mzero3
      | _ => .error .illegalField
    else .error .unusedField
  | 1 => if fld w 0 4 = 0 then .ok (.mopa (Fin.ofNat 4 (fld w 24 2)) (Fin.ofNat 32 (fld w 19 5)) (Fin.ofNat 32 (fld w 14 5)) (Fin.ofNat 4 (fld w 12 2)) (Fin.ofNat 4 (fld w 10 2)) (bit w 5) (bit w 4)) else .error .unusedField
  | 2 => if fld w 0 4 = 0 then .ok (.mops (Fin.ofNat 4 (fld w 24 2)) (Fin.ofNat 32 (fld w 19 5)) (Fin.ofNat 32 (fld w 14 5)) (Fin.ofNat 4 (fld w 12 2)) (Fin.ofNat 4 (fld w 10 2)) (bit w 5) (bit w 4)) else .error .unusedField
  | 3 => if fld w 0 4 = 0 then .ok (.cmopa (Fin.ofNat 4 (fld w 24 2)) (Fin.ofNat 32 (fld w 19 5)) (Fin.ofNat 32 (fld w 14 5)) (Fin.ofNat 4 (fld w 12 2)) (Fin.ofNat 4 (fld w 10 2)) (bit w 5) (bit w 4)) else .error .unusedField
  | 4 => .ok (.mopasp (Fin.ofNat 4 (fld w 24 2)) (Fin.ofNat 32 (fld w 19 5)) (Fin.ofNat 32 (fld w 14 5)) (Fin.ofNat 4 (fld w 12 2)) (Fin.ofNat 4 (fld w 10 2)) (bit w 5) (bit w 4) (bit w 3) (Fin.ofNat 8 (fld w 0 3)))
  | 5 => if fld w 23 1 = 0 ∧ fld w 10 9 = 0 ∧ fld w 0 6 = 0 then .ok (.mld (Fin.ofNat 4 (fld w 24 2)) (Fin.ofNat 16 (fld w 19 4))) else .error .unusedField
  | 6 => if fld w 23 1 = 0 ∧ fld w 10 9 = 0 ∧ fld w 0 6 = 0 then .ok (.mst (Fin.ofNat 4 (fld w 24 2)) (Fin.ofNat 16 (fld w 19 4))) else .error .unusedField
  | 7 => if fld w 10 4 = 0 ∧ fld w 0 6 = 0 then .ok (.mrdv (Fin.ofNat 4 (fld w 24 2)) (Fin.ofNat 32 (fld w 19 5)) (Fin.ofNat 32 (fld w 14 5))) else .error .unusedField
  | 8 => if fld w 10 4 = 0 ∧ fld w 0 6 = 0 then .ok (.mwrv (Fin.ofNat 4 (fld w 24 2)) (Fin.ofNat 32 (fld w 19 5)) (Fin.ofNat 32 (fld w 14 5))) else .error .unusedField
  | 9 => if fld w 24 2 = 0 ∧ fld w 14 5 = 0 ∧ fld w 10 2 = 0 ∧ fld w 0 6 = 0 then .ok (.rlld (Fin.ofNat 32 (fld w 19 5)) (Fin.ofNat 4 (fld w 12 2))) else .error .unusedField
  | 10 => if fld w 10 16 = 0 ∧ fld w 0 6 = 0 then .ok (.rlpass) else .error .unusedField
  | 11 => if fld w 24 2 = 0 ∧ fld w 14 5 = 0 ∧ fld w 10 2 = 0 ∧ fld w 0 6 = 0 then .ok (.rlrd (Fin.ofNat 32 (fld w 19 5)) (Fin.ofNat 4 (fld w 12 2))) else .error .unusedField
  | _ => .error .reservedOp

/-- The major opcode, bits [31:26], selects the format (R53, R56, Table 3.2). -/
def decodeMajor (w : Nat) : Except DecodeError Instr :=
  match fld w 26 6 with
  | 1 => decSys w
  | 2 => decLuh w
  | 3 => decPcadd w
  | 4 => decAlu w
  | 5 => decAddi w
  | 6 => decAndi w
  | 7 => decOri w
  | 8 => decXori w
  | 9 => decSlti w
  | 10 => decSltiu w
  | 11 => decShi w
  | 12 => decLd w
  | 13 => decSt w
  | 14 => decAmo w
  | 15 => decFp w
  | 16 => decBz w
  | 17 => decBc w
  | 18 => decJ w
  | 19 => decJal w
  | 20 => decJalr w
  | 21 => decMsg w
  | 22 => decEng w
  | 23 => decCsr w
  | 32 => decVctl w
  | 33 => decVop w
  | 34 => decVops w
  | 35 => decVfma w
  | 36 => decVmsk w
  | 37 => decVprm w
  | 38 => decVsig w
  | 39 => decVsfu w
  | 40 => decVmem w
  | 41 => decSdsc w
  | 42 => decMtx w
  | _ => .error .reservedMajor

/-- One word read as an instruction: R57 checks 2, 3 and 4. -/
def decodeWord (w : Nat) : Except DecodeError Instr :=
  match decodeMajor w with
  | .error e => .error e
  | .ok i => if i.wf then .ok i else .error .illegalField

/-- Little-endian bytes as a number (R53). -/
def leNat : List (BitVec 8) → Nat
  | [] => 0
  | b :: bs => b.toNat + 256 * leNat bs

/-- A number as `n` little-endian bytes. -/
def toLe : Nat → Nat → List (BitVec 8)
  | 0, _ => []
  | n + 1, v => BitVec.ofNat 8 v :: toLe n (v / 256)

/-- The decoder on bytes: the instruction at their head and the bytes after it. -/
def decode (bs : List (BitVec 8)) : Except DecodeError (Instr × List (BitVec 8)) :=
  match bs with
  | b0 :: b1 :: b2 :: b3 :: rest =>
    match decodeWord (leNat [b0, b1, b2, b3]) with
    | .error e => .error e
    | .ok i => .ok (i, rest)
  | _ => .error .truncated

/-- The instruction the decoder reads from a word numbered as the opcode table numbers it: bit 0 the least significant bit of
the one 32-bit word. The word is laid out in memory as the hardware stores it, four little-endian bytes. -/
def decodeTableWord (_nbits w : Nat) : Option Instr :=
  match decode (toLe 4 w) with
  | .ok (i, _) => some i
  | .error _ => none

/-- The instruction has a word; the machine events have none. -/
def Instr.hasWord : Instr → Bool
  | .add _ _ _ _ => true
  | .sub _ _ _ _ => true
  | .and _ _ _ => true
  | .or _ _ _ => true
  | .xor _ _ _ => true
  | .andn _ _ _ => true
  | .orn _ _ _ => true
  | .sll _ _ _ _ => true
  | .srl _ _ _ _ => true
  | .sra _ _ _ _ => true
  | .rotr _ _ _ _ => true
  | .slt _ _ _ => true
  | .sltu _ _ _ => true
  | .min _ _ _ => true
  | .max _ _ _ => true
  | .minu _ _ _ => true
  | .maxu _ _ _ => true
  | .mul _ _ _ _ => true
  | .mulh _ _ _ => true
  | .mulhu _ _ _ => true
  | .div _ _ _ _ => true
  | .divu _ _ _ _ => true
  | .rem _ _ _ _ => true
  | .remu _ _ _ _ => true
  | .clz _ _ _ => true
  | .ctz _ _ _ => true
  | .popc _ _ _ => true
  | .brev _ _ => true
  | .sext _ _ _ => true
  | .zext _ _ _ => true
  | .shadd _ _ _ _ => true
  | .cmovz _ _ _ => true
  | .cmovnz _ _ _ => true
  | .addi _ _ _ => true
  | .andi _ _ _ => true
  | .ori _ _ _ => true
  | .xori _ _ _ => true
  | .slti _ _ _ => true
  | .sltiu _ _ _ => true
  | .slli _ _ _ _ => true
  | .srli _ _ _ _ => true
  | .srai _ _ _ _ => true
  | .rotri _ _ _ _ => true
  | .luh _ _ => true
  | .pcadd _ _ => true
  | .ld _ _ _ _ => true
  | .st _ _ _ _ => true
  | .lda _ _ _ _ _ => true
  | .sta _ _ _ _ _ => true
  | .swap _ _ _ _ _ _ => true
  | .cas _ _ _ _ _ _ => true
  | .amoFadd _ _ _ _ _ _ => true
  | .amoFand _ _ _ _ _ _ => true
  | .amoFor _ _ _ _ _ _ => true
  | .amoFxor _ _ _ _ _ _ => true
  | .amoFmin _ _ _ _ _ _ => true
  | .amoFmax _ _ _ _ _ _ => true
  | .amoFminu _ _ _ _ _ _ => true
  | .amoFmaxu _ _ _ _ _ _ => true
  | .amoFaddf _ _ _ _ _ => true
  | .fadd _ _ _ _ _ => true
  | .fsub _ _ _ _ _ => true
  | .fmul _ _ _ _ _ => true
  | .fdiv _ _ _ _ _ => true
  | .fsqrt _ _ _ _ => true
  | .fmin _ _ _ _ => true
  | .fmax _ _ _ _ => true
  | .fmadd _ _ _ _ _ => true
  | .feq _ _ _ _ => true
  | .flt _ _ _ _ => true
  | .fle _ _ _ _ => true
  | .fclass _ _ _ => true
  | .fcvtI _ _ _ _ _ => true
  | .fcvtF _ _ _ _ _ => true
  | .fcvt _ _ _ _ _ => true
  | .beqz _ _ => true
  | .bnez _ _ => true
  | .bltz _ _ => true
  | .bgez _ _ => true
  | .bgtz _ _ => true
  | .blez _ _ => true
  | .beq _ _ _ => true
  | .bne _ _ _ => true
  | .blt _ _ _ => true
  | .bge _ _ _ => true
  | .bltu _ _ _ => true
  | .bgeu _ _ _ => true
  | .j _ => true
  | .jal _ => true
  | .jalr _ _ _ => true
  | .fence _ _ => true
  | .tlbinv _ _ _ _ => true
  | .csrr _ _ => true
  | .csrw _ _ => true
  | .csrset _ _ _ => true
  | .csrclr _ _ _ => true
  | .csrswap _ _ _ => true
  | .send _ _ _ => true
  | .sendc _ _ => true
  | .contid _ _ => true
  | .spawn _ _ => true
  | .jwait _ => true
  | .jdone _ => true
  | .jstat _ _ => true
  | .enq _ _ _ => true
  | .enqr _ _ _ => true
  | .bararv _ _ => true
  | .barwt _ _ => true
  | .brnext _ _ => true
  | .brdone _ => true
  | .setvl _ _ _ => true
  | .loopv _ => true
  | .nexts _ => true
  | .vrep _ _ => true
  | .vtag _ _ => true
  | .vmvx _ _ _ => true
  | .vmvs _ _ _ => true
  | .vadd _ _ _ _ => true
  | .vsub _ _ _ _ => true
  | .vrsub _ _ _ _ => true
  | .vmul _ _ _ _ => true
  | .vmulh _ _ _ _ => true
  | .vmin _ _ _ _ => true
  | .vmax _ _ _ _ => true
  | .vabs _ _ => true
  | .vneg _ _ => true
  | .vand _ _ _ => true
  | .vor _ _ _ => true
  | .vxor _ _ _ => true
  | .vandn _ _ _ => true
  | .vsll _ _ _ => true
  | .vsrl _ _ _ => true
  | .vsra _ _ _ => true
  | .vsadd _ _ _ _ => true
  | .vssub _ _ _ _ => true
  | .vavg _ _ _ _ => true
  | .vdiv _ _ _ _ => true
  | .vcvt _ _ _ => true
  | .vcmpeq _ _ _ => true
  | .vcmpne _ _ _ => true
  | .vcmplt _ _ _ => true
  | .vcmple _ _ _ => true
  | .vsel _ _ _ => true
  | .vmrg _ _ _ => true
  | .vclass _ _ => true
  | .vaddVs _ _ _ _ => true
  | .vsubVs _ _ _ _ => true
  | .vrsubVs _ _ _ _ => true
  | .vmulVs _ _ _ _ => true
  | .vmulhVs _ _ _ _ => true
  | .vminVs _ _ _ _ => true
  | .vmaxVs _ _ _ _ => true
  | .vandVs _ _ _ => true
  | .vorVs _ _ _ => true
  | .vxorVs _ _ _ => true
  | .vandnVs _ _ _ => true
  | .vsllVs _ _ _ => true
  | .vsrlVs _ _ _ => true
  | .vsraVs _ _ _ => true
  | .vsaddVs _ _ _ _ => true
  | .vssubVs _ _ _ _ => true
  | .vavgVs _ _ _ _ => true
  | .vdivVs _ _ _ _ => true
  | .vcmpeqVs _ _ _ => true
  | .vcmpneVs _ _ _ => true
  | .vcmpltVs _ _ _ => true
  | .vcmpleVs _ _ _ => true
  | .vfma _ _ _ _ _ => true
  | .vfms _ _ _ _ _ => true
  | .vfnma _ _ _ _ _ => true
  | .vfnms _ _ _ _ _ => true
  | .vmacc _ _ _ _ => true
  | .vdot2 _ _ _ _ _ => true
  | .mand _ _ _ => true
  | .mor _ _ _ => true
  | .mxor _ _ _ => true
  | .mandn _ _ _ => true
  | .mnot _ _ => true
  | .mmov _ _ => true
  | .msbf _ _ => true
  | .msif _ _ => true
  | .msof _ _ => true
  | .mpopc _ _ => true
  | .mfirst _ _ => true
  | .viota _ _ => true
  | .vid _ => true
  | .mset _ _ => true
  | .vslideup _ _ _ => true
  | .vslidedn _ _ _ => true
  | .vrgather _ _ _ => true
  | .vcompress _ _ => true
  | .vexpand _ _ => true
  | .vshuf _ _ _ => true
  | .vxch _ _ _ => true
  | .vbcast _ _ _ => true
  | .vredsum _ _ _ _ => true
  | .vredsumo _ _ _ _ => true
  | .vredmin _ _ _ _ => true
  | .vredmax _ _ _ _ => true
  | .vcmul _ _ _ _ _ _ _ => true
  | .vcmac _ _ _ _ _ _ _ => true
  | .vcmag2 _ _ _ => true
  | .vconj _ _ _ => true
  | .vbfly2 _ _ _ _ _ => true
  | .vbfly4 _ _ _ _ _ => true
  | .vcinv2 _ _ _ => true
  | .vqmul _ _ _ _ _ _ => true
  | .vqscl _ _ _ => true
  | .sfRcp _ _ _ => true
  | .sfRsq _ _ _ => true
  | .sfSqrt _ _ _ => true
  | .sfExp2 _ _ _ => true
  | .sfLog2 _ _ _ => true
  | .sfSinpi _ _ _ => true
  | .sfCospi _ _ _ => true
  | .sfAtan2pi _ _ _ _ => true
  | .vld _ _ _ => true
  | .vst _ _ _ => true
  | .vstu _ _ => true
  | .vldff _ _ => true
  | .vlds _ _ => true
  | .vgath _ _ _ _ => true
  | .vscat _ _ _ _ => true
  | .vscatu _ _ _ => true
  | .vstcmp _ _ => true
  | .vldexp _ _ => true
  | .vamo _ _ _ _ _ => true
  | .vredm _ _ _ _ => true
  | .sdset _ _ _ => true
  | .sdget _ _ _ => true
  | .sdld _ _ => true
  | .sdst _ _ => true
  | .sdadv _ _ => true
  | .sdpos _ _ => true
  | .mopa _ _ _ _ _ _ _ => true
  | .mops _ _ _ _ _ _ _ => true
  | .cmopa _ _ _ _ _ _ _ => true
  | .mopasp _ _ _ _ _ _ _ _ _ => true
  | .mld _ _ => true
  | .mst _ _ => true
  | .mrdv _ _ _ => true
  | .mwrv _ _ _ => true
  | .rlld _ _ => true
  | .rlrd _ _ => true
  | .ecall => true
  | .trapret => true
  | .brk => true
  | .ptfenceStrand => true
  | .ptfenceCore => true
  | .ptfenceCluster => true
  | .ptfenceDie => true
  | .ptfenceSystem => true
  | .tlbsyncStrand => true
  | .tlbsyncCore => true
  | .tlbsyncCluster => true
  | .tlbsyncDie => true
  | .tlbsyncSystem => true
  | .xpfence => true
  | .park => true
  | .yield => true
  | .jexit => true
  | .bar0 => true
  | .bar1 => true
  | .bar2 => true
  | .bar3 => true
  | .bar4 => true
  | .bar5 => true
  | .bar6 => true
  | .bar7 => true
  | .bar8 => true
  | .bar9 => true
  | .bar10 => true
  | .bar11 => true
  | .bar12 => true
  | .bar13 => true
  | .bar14 => true
  | .bar15 => true
  | .vfork2 => true
  | .vfork4 => true
  | .vjoin => true
  | .vwait => true
  | .vpref0 => true
  | .vpref1 => true
  | .vpref2 => true
  | .vpref3 => true
  | .vpref4 => true
  | .vpref5 => true
  | .vpref6 => true
  | .vpref7 => true
  | .vpref8 => true
  | .vpref9 => true
  | .vpref10 => true
  | .vpref11 => true
  | .vpref12 => true
  | .vpref13 => true
  | .vpref14 => true
  | .vpref15 => true
  | .mzero0 => true
  | .mzero1 => true
  | .mzero2 => true
  | .mzero3 => true
  | .rlpass => true
  | .frontEndIssue _ => false
  | .syncTrapEntry _ _ _ _ => false
  | .asyncTrapEntry _ => false
  | .postedStoreError _ _ _ => false
  | .watchdogExpiry _ => false
  | .watchdogReset _ => false
  | .registerFileError _ _ _ _ => false
  | .handlerStart _ => false
  | .reservationTimeout _ => false
  | .growOffer _ => false
  | .laneChange _ => false
  | .messageArrival _ => false
  | .messageReoffer _ => false
  | .continuationDelivery _ => false
  | .preemptRequest _ => false
  | .saveComplete _ => false
  | .resume _ _ => false
  | .resumeComplete _ => false
  | .vectorInstructionStart _ => false
  | .vectorBeat _ => false
  | .vectorLoadDataReturn _ _ _ => false
  | .repetitionReissue _ => false
  | .vforkSplit _ => false
  | .vjoinReassemble _ => false
  | .sfuRequestSend _ => false
  | .sfuServiceStart _ => false
  | .sfuResultReturn _ => false
  | .rlpassSend _ => false
  | .rlpassTake _ => false
  | .fenceRetire _ => false
  | .xpfenceRetire _ => false
  | .ptfenceRetire _ => false
  | .tlbinvDrop _ => false
  | .tlbsyncRetire _ => false
  | .pageWalk _ _ => false
  | .walkerReadReturn _ => false
  | .mgWaitPoll _ => false
  | .mgWaitTimeout _ => false
  | .loadDataReturn _ _ _ _ _ => false
  | .hostRequestCompletion _ _ _ => false
  | .hostCompletionTimeout _ => false
  | .clmBankAccess _ _ _ _ => false
  | .cspBankAccess _ _ _ _ => false
  | .l2BankAccess _ _ _ => false
  | .l2FillReturn _ _ => false
  | .csmAccess _ _ _ => false
  | .nearBankOperation _ _ _ _ => false
  | .ownerScrub _ => false
  | .l2PatrolScrub _ _ _ => false
  | .lpddrSectorService _ _ => false
  | .regulatorTokenFill _ _ => false
  | .lpddrPatrolScrub _ => false
  | .domJoin _ _ _ => false
  | .domLeave _ _ => false
  | .barrierCounterError _ _ _ => false
  | .vlWrite _ _ => false
  | .vmcWrite _ _ => false
  | .fcsrWrite _ _ => false
  | .tprvHoldClear _ => false
  | .xasidWrite _ _ => false
  | .berthRecordPlace _ _ _ _ _ _ _ => false
  | .brctlEnable _ _ _ => false
  | .brctlCursorEnable _ _ _ => false
  | .ecpriUplaneFrame _ _ _ _ _ _ _ => false
  | .ecpriCplaneFrame _ _ _ _ _ => false
  | .ecpriDelayMeasurement _ _ => false
  | .unmatchedFrame _ => false
  | .ptpEventFrame _ _ _ => false
  | .synceLockChange _ => false
  | .ptmRequest => false
  | .jobRelease _ => false
  | .promotionSweep => false
  | .timetablePop => false
  | .dispatchWithdraw _ => false
  | .serverBudgetExhausted _ => false
  | .serverSuspensionEnd _ => false
  | .jsrvWrite _ _ => false
  | .jobEnd _ _ _ => false
  | .deadlineExpiry _ => false
  | .exitRoutineStart _ => false
  | .exitBudgetExpiry _ => false
  | .commandAccept _ => false
  | .ferryCopy _ => false
  | .ferryCopy3 _ => false
  | .ferryGather _ => false
  | .ferryScatter _ => false
  | .ferryFill _ => false
  | .ferryMigrate _ => false
  | .ferryUpdate _ => false
  | .ldpcDecode _ => false
  | .ldpcEncode _ => false
  | .polarEncode _ => false
  | .polarDecode _ => false
  | .txUplane _ => false
  | .txCplane _ => false
  | .txRawFrame _ => false
  | .txLaunch _ => false
  | .txLate _ => false
  | .commandCompletion _ => false
  | .clearanceGo _ => false
  | .clearanceDecision _ => false
  | .clearanceStopPoint _ => false
  | .clearanceHorizon _ => false
  | .clearanceVacancy _ => false
  | .clusterRetirement _ => false
  | .channelRetirement _ => false
  | .l2cfgCsmwWrite _ => false
  | .csmResizeComplete => false
  | .l2errDiscard _ => false
  | .xdirWrite _ _ => false
  | .xhlogDisable _ => false
  | .partitionRegisterWrite _ _ => false
  | .accessTableWrite _ _ => false
  | .clrlogWrite _ => false
  | .mkeyRegen _ => false
  | .keyRegenComplete _ => false
  | .mregWrite _ _ _ => false
  | .pwrcapWrite _ => false
  | .powerCapExceeded => false
  | .partitionCapExceeded _ => false
  | .thermalThrottle => false
  | .thermalStop => false
  | .thermalSupplyRemoval => false
  | .powerOnBoot => false
  | .hostRecoverySupply _ _ => false
  | .spdmRequest => false
  | .fwhoStart _ => false
  | .handoverVerified _ => false
  | .handoverCommit => false
  | .hostMemoryRequest _ _ _ _ => false
  | .atsTranslationResponse _ _ _ => false
  | .atsTimeout _ => false
  | .priResponse _ _ => false
  | .priTimeout _ => false
  | .atsInvalidation _ => false
  | .sqEnable _ _ _ => false
  | .sqDoorbell _ _ _ => false
  | .sqDescriptorFetch _ _ _ => false
  | .sqStop _ _ => false
  | .sqStopComplete _ _ => false
  | .vfFlr _ => false
  | .twinRequest _ _ _ => false
  | .twinLinkDown => false
  | .migrationExport _ => false
  | .migrationQuiesced => false
  | .migrationQuiesceTimeout => false
  | .migrationStreamed => false
  | .migrationCancel => false
  | .migrationImport _ _ => false
  | .migrationSourceDone => false
  | .registerWrite _ _ _ _ => false
  | .twinLinkUp => false
  | .ptpHoldover => false
  | .twinPtmTime _ => false

/-- Format A of Table 3.1. -/
def encA (major rd ra rb fn : Nat) : Nat :=
  major * 2 ^ 26 + rd * 2 ^ 21 + ra * 2 ^ 16 + rb * 2 ^ 11 + fn

/-- Format I of Table 3.1. -/
def encI (major rd ra imm : Nat) : Nat :=
  major * 2 ^ 26 + rd * 2 ^ 21 + ra * 2 ^ 16 + imm

/-- Format M of Table 3.1. -/
def encM (major rd ra size imm : Nat) : Nat :=
  major * 2 ^ 26 + rd * 2 ^ 21 + ra * 2 ^ 16 + size * 2 ^ 13 + imm

/-- Format U of Table 3.1. -/
def encU (major rd imm : Nat) : Nat :=
  major * 2 ^ 26 + rd * 2 ^ 21 + imm

/-- Format BZ of Table 3.1. -/
def encBZ (major cond ra off : Nat) : Nat :=
  major * 2 ^ 26 + cond * 2 ^ 23 + ra * 2 ^ 18 + off

/-- Format BC of Table 3.1. -/
def encBC (major ra rb cond off : Nat) : Nat :=
  major * 2 ^ 26 + ra * 2 ^ 21 + rb * 2 ^ 16 + cond * 2 ^ 13 + off

/-- Format J of Table 3.1. -/
def encJ (major off : Nat) : Nat :=
  major * 2 ^ 26 + off

/-- Format V of Table 3.1. -/
def encV (major vd va vb op mod : Nat) : Nat :=
  major * 2 ^ 26 + vd * 2 ^ 21 + va * 2 ^ 16 + vb * 2 ^ 11 + op * 2 ^ 5 + mod

/-- Format W of Table 3.1. -/
def encW (major vd va vb vc op mod : Nat) : Nat :=
  major * 2 ^ 26 + vd * 2 ^ 21 + va * 2 ^ 16 + vb * 2 ^ 11 + vc * 2 ^ 6 + op * 2 ^ 3 + mod

/-- Format L of Table 3.1. -/
def encL (major v sd vi op mod : Nat) : Nat :=
  major * 2 ^ 26 + v * 2 ^ 21 + sd * 2 ^ 17 + vi * 2 ^ 12 + op * 2 ^ 7 + mod

/-- Format T of Table 3.1. -/
def encT (major ac va vb qa qb op mod : Nat) : Nat :=
  major * 2 ^ 26 + ac * 2 ^ 24 + va * 2 ^ 19 + vb * 2 ^ 14 + qa * 2 ^ 12 + qb * 2 ^ 10 + op * 2 ^ 6 + mod

set_option maxHeartbeats 1000000 in
/-- The encoder: the word of an instruction, its major, op and fields each at its place in chapter 3. An event has no word
(`hasWord`) and is given 0, which no instruction has (R58). -/
def encode : Instr → Nat
  | .add d a b w => encA 0x04 d.val a.val b.val (w.toNat * 2 ^ 10)
  | .sub d a b w => encA 0x04 d.val a.val b.val (1 + w.toNat * 2 ^ 10)
  | .and d a b => encA 0x04 d.val a.val b.val 2
  | .or d a b => encA 0x04 d.val a.val b.val 3
  | .xor d a b => encA 0x04 d.val a.val b.val 4
  | .andn d a b => encA 0x04 d.val a.val b.val 5
  | .orn d a b => encA 0x04 d.val a.val b.val 6
  | .sll d a b w => encA 0x04 d.val a.val b.val (7 + w.toNat * 2 ^ 10)
  | .srl d a b w => encA 0x04 d.val a.val b.val (8 + w.toNat * 2 ^ 10)
  | .sra d a b w => encA 0x04 d.val a.val b.val (9 + w.toNat * 2 ^ 10)
  | .rotr d a b w => encA 0x04 d.val a.val b.val (10 + w.toNat * 2 ^ 10)
  | .slt d a b => encA 0x04 d.val a.val b.val 11
  | .sltu d a b => encA 0x04 d.val a.val b.val 12
  | .min d a b => encA 0x04 d.val a.val b.val 13
  | .max d a b => encA 0x04 d.val a.val b.val 14
  | .minu d a b => encA 0x04 d.val a.val b.val 15
  | .maxu d a b => encA 0x04 d.val a.val b.val 16
  | .mul d a b w => encA 0x04 d.val a.val b.val (17 + w.toNat * 2 ^ 10)
  | .mulh d a b => encA 0x04 d.val a.val b.val 18
  | .mulhu d a b => encA 0x04 d.val a.val b.val 19
  | .div d a b w => encA 0x04 d.val a.val b.val (20 + w.toNat * 2 ^ 10)
  | .divu d a b w => encA 0x04 d.val a.val b.val (21 + w.toNat * 2 ^ 10)
  | .rem d a b w => encA 0x04 d.val a.val b.val (22 + w.toNat * 2 ^ 10)
  | .remu d a b w => encA 0x04 d.val a.val b.val (23 + w.toNat * 2 ^ 10)
  | .clz d a w => encA 0x04 d.val a.val 0 (24 + w.toNat * 2 ^ 10)
  | .ctz d a w => encA 0x04 d.val a.val 0 (25 + w.toNat * 2 ^ 10)
  | .popc d a w => encA 0x04 d.val a.val 0 (26 + w.toNat * 2 ^ 10)
  | .brev d a => encA 0x04 d.val a.val 0 27
  | .sext d a s => encA 0x04 d.val a.val s.val 28
  | .zext d a s => encA 0x04 d.val a.val s.val 29
  | .shadd d a b w => encA 0x04 d.val a.val b.val (30 + w.toNat * 2 ^ 10)
  | .cmovz d a b => encA 0x04 d.val a.val b.val 31
  | .cmovnz d a b => encA 0x04 d.val a.val b.val 32
  | .addi d a i => encI 0x05 d.val a.val i.val
  | .andi d a i => encI 0x06 d.val a.val i.val
  | .ori d a i => encI 0x07 d.val a.val i.val
  | .xori d a i => encI 0x08 d.val a.val i.val
  | .slti d a i => encI 0x09 d.val a.val i.val
  | .sltiu d a i => encI 0x0A d.val a.val i.val
  | .slli d a w n => encI 0x0B d.val a.val (w.toNat * 2 ^ 8 + n.val)
  | .srli d a w n => encI 0x0B d.val a.val (64 + w.toNat * 2 ^ 8 + n.val)
  | .srai d a w n => encI 0x0B d.val a.val (128 + w.toNat * 2 ^ 8 + n.val)
  | .rotri d a w n => encI 0x0B d.val a.val (192 + w.toNat * 2 ^ 8 + n.val)
  | .luh d i => encU 0x02 d.val i.val
  | .pcadd d i => encU 0x03 d.val i.val
  | .ld d a s i => encM 0x0C d.val a.val s.val i.val
  | .st t a s i => encM 0x0D t.val a.val s.val i.val
  | .lda d a w o s => encA 0x0E d.val a.val 0 (w.toNat * 2 ^ 5 + o.val * 2 ^ 3 + s.val)
  | .sta a b w o s => encA 0x0E 0 a.val b.val (64 + w.toNat * 2 ^ 5 + o.val * 2 ^ 3 + s.val)
  | .swap d a b w o s => encA 0x0E d.val a.val b.val (128 + w.toNat * 2 ^ 5 + o.val * 2 ^ 3 + s.val)
  | .cas d a b w o s => encA 0x0E d.val a.val b.val (192 + w.toNat * 2 ^ 5 + o.val * 2 ^ 3 + s.val)
  | .amoFadd d a b w o s => encA 0x0E d.val a.val b.val (256 + w.toNat * 2 ^ 5 + o.val * 2 ^ 3 + s.val)
  | .amoFand d a b w o s => encA 0x0E d.val a.val b.val (320 + w.toNat * 2 ^ 5 + o.val * 2 ^ 3 + s.val)
  | .amoFor d a b w o s => encA 0x0E d.val a.val b.val (384 + w.toNat * 2 ^ 5 + o.val * 2 ^ 3 + s.val)
  | .amoFxor d a b w o s => encA 0x0E d.val a.val b.val (448 + w.toNat * 2 ^ 5 + o.val * 2 ^ 3 + s.val)
  | .amoFmin d a b w o s => encA 0x0E d.val a.val b.val (512 + w.toNat * 2 ^ 5 + o.val * 2 ^ 3 + s.val)
  | .amoFmax d a b w o s => encA 0x0E d.val a.val b.val (576 + w.toNat * 2 ^ 5 + o.val * 2 ^ 3 + s.val)
  | .amoFminu d a b w o s => encA 0x0E d.val a.val b.val (640 + w.toNat * 2 ^ 5 + o.val * 2 ^ 3 + s.val)
  | .amoFmaxu d a b w o s => encA 0x0E d.val a.val b.val (704 + w.toNat * 2 ^ 5 + o.val * 2 ^ 3 + s.val)
  | .amoFaddf d a b o s => encA 0x0E d.val a.val b.val (768 + o.val * 2 ^ 3 + s.val)
  | .fadd d a b f z => encA 0x0F d.val a.val b.val (f.val * 2 ^ 3 + z.toNat * 2 ^ 2)
  | .fsub d a b f z => encA 0x0F d.val a.val b.val (32 + f.val * 2 ^ 3 + z.toNat * 2 ^ 2)
  | .fmul d a b f z => encA 0x0F d.val a.val b.val (64 + f.val * 2 ^ 3 + z.toNat * 2 ^ 2)
  | .fdiv d a b f z => encA 0x0F d.val a.val b.val (96 + f.val * 2 ^ 3 + z.toNat * 2 ^ 2)
  | .fsqrt d a f z => encA 0x0F d.val a.val 0 (128 + f.val * 2 ^ 3 + z.toNat * 2 ^ 2)
  | .fmin d a b f => encA 0x0F d.val a.val b.val (160 + f.val * 2 ^ 3)
  | .fmax d a b f => encA 0x0F d.val a.val b.val (192 + f.val * 2 ^ 3)
  | .fmadd d a b f z => encA 0x0F d.val a.val b.val (224 + f.val * 2 ^ 3 + z.toNat * 2 ^ 2)
  | .feq d a b f => encA 0x0F d.val a.val b.val (256 + f.val * 2 ^ 3)
  | .flt d a b f => encA 0x0F d.val a.val b.val (288 + f.val * 2 ^ 3)
  | .fle d a b f => encA 0x0F d.val a.val b.val (320 + f.val * 2 ^ 3)
  | .fclass d a f => encA 0x0F d.val a.val 0 (352 + f.val * 2 ^ 3)
  | .fcvtI d a f z t => encA 0x0F d.val a.val 0 (384 + f.val * 2 ^ 3 + z.toNat * 2 ^ 2 + t.val)
  | .fcvtF d a f z t => encA 0x0F d.val a.val 0 (416 + f.val * 2 ^ 3 + z.toNat * 2 ^ 2 + t.val)
  | .fcvt d a f z g => encA 0x0F d.val a.val 0 (448 + f.val * 2 ^ 3 + z.toNat * 2 ^ 2 + g.val)
  | .beqz a o => encBZ 0x10 0 a.val o.val
  | .bnez a o => encBZ 0x10 1 a.val o.val
  | .bltz a o => encBZ 0x10 2 a.val o.val
  | .bgez a o => encBZ 0x10 3 a.val o.val
  | .bgtz a o => encBZ 0x10 4 a.val o.val
  | .blez a o => encBZ 0x10 5 a.val o.val
  | .beq a b o => encBC 0x11 a.val b.val 0 o.val
  | .bne a b o => encBC 0x11 a.val b.val 1 o.val
  | .blt a b o => encBC 0x11 a.val b.val 2 o.val
  | .bge a b o => encBC 0x11 a.val b.val 3 o.val
  | .bltu a b o => encBC 0x11 a.val b.val 4 o.val
  | .bgeu a b o => encBC 0x11 a.val b.val 5 o.val
  | .j o => encJ 0x12 o.val
  | .jal o => encJ 0x13 o.val
  | .jalr d a i => encI 0x14 d.val a.val i.val
  | .fence s k => encA 0x01 0 0 0 (192 + s.val * 2 ^ 3 + k.val)
  | .tlbinv c a b l => encA 0x01 c.val a.val b.val (320 + l.toNat)
  | .csrr d c => encI 0x17 d.val 0 c.val
  | .csrw a c => encI 0x17 0 a.val (4096 + c.val)
  | .csrset d a c => encI 0x17 d.val a.val (8192 + c.val)
  | .csrclr d a c => encI 0x17 d.val a.val (12288 + c.val)
  | .csrswap d a c => encI 0x17 d.val a.val (16384 + c.val)
  | .send n a b => encA 0x15 n.val a.val b.val 0
  | .sendc n a => encA 0x15 n.val a.val 0 64
  | .contid d n => encA 0x15 d.val 0 0 (128 + n.val)
  | .spawn d a => encA 0x15 d.val a.val 0 320
  | .jwait d => encA 0x15 d.val 0 0 384
  | .jdone a => encA 0x15 0 a.val 0 448
  | .jstat d a => encA 0x15 d.val a.val 0 576
  | .enq a b r => encA 0x16 0 a.val b.val r.toNat
  | .enqr n a r => encA 0x16 n.val a.val 0 (64 + r.toNat)
  | .bararv t d => encA 0x16 t.val 0 0 (192 + d.val)
  | .barwt a d => encA 0x16 0 a.val 0 (256 + d.val)
  | .brnext d a => encA 0x16 d.val a.val 0 320
  | .brdone a => encA 0x16 0 a.val 0 384
  | .setvl d a k => encV 0x20 d.val a.val 0 0 k.toNat
  | .loopv a => encV 0x20 0 a.val 0 1 0
  | .nexts d => encV 0x20 d.val 0 0 2 0
  | .vrep r n => encV 0x20 0 0 0 3 (r.toNat * 2 ^ 4 + n.val)
  | .vtag d t => encV 0x20 d.val 0 0 6 t.val
  | .vmvx d a b => encV 0x20 d.val a.val b.val 8 0
  | .vmvs d a b => encV 0x20 d.val a.val b.val 9 0
  | .vadd d a b z => encV 0x21 d.val a.val b.val 0 (z.toNat * 2 ^ 4)
  | .vsub d a b z => encV 0x21 d.val a.val b.val 1 (z.toNat * 2 ^ 4)
  | .vrsub d a b z => encV 0x21 d.val a.val b.val 2 (z.toNat * 2 ^ 4)
  | .vmul d a b z => encV 0x21 d.val a.val b.val 3 (z.toNat * 2 ^ 4)
  | .vmulh d a b z => encV 0x21 d.val a.val b.val 4 (z.toNat * 2 ^ 4)
  | .vmin d a b z => encV 0x21 d.val a.val b.val 5 (z.toNat * 2 ^ 4)
  | .vmax d a b z => encV 0x21 d.val a.val b.val 6 (z.toNat * 2 ^ 4)
  | .vabs d a => encV 0x21 d.val a.val 0 7 0
  | .vneg d a => encV 0x21 d.val a.val 0 8 0
  | .vand d a b => encV 0x21 d.val a.val b.val 9 0
  | .vor d a b => encV 0x21 d.val a.val b.val 10 0
  | .vxor d a b => encV 0x21 d.val a.val b.val 11 0
  | .vandn d a b => encV 0x21 d.val a.val b.val 12 0
  | .vsll d a b => encV 0x21 d.val a.val b.val 13 0
  | .vsrl d a b => encV 0x21 d.val a.val b.val 14 0
  | .vsra d a b => encV 0x21 d.val a.val b.val 15 0
  | .vsadd d a b z => encV 0x21 d.val a.val b.val 16 (z.toNat * 2 ^ 4)
  | .vssub d a b z => encV 0x21 d.val a.val b.val 17 (z.toNat * 2 ^ 4)
  | .vavg d a b z => encV 0x21 d.val a.val b.val 18 (z.toNat * 2 ^ 4)
  | .vdiv d a b z => encV 0x21 d.val a.val b.val 19 (z.toNat * 2 ^ 4)
  | .vcvt d a z => encV 0x21 d.val a.val 0 20 (z.toNat * 2 ^ 4)
  | .vcmpeq d a b => encV 0x21 d.val a.val b.val 21 0
  | .vcmpne d a b => encV 0x21 d.val a.val b.val 22 0
  | .vcmplt d a b => encV 0x21 d.val a.val b.val 23 0
  | .vcmple d a b => encV 0x21 d.val a.val b.val 24 0
  | .vsel d a b => encV 0x21 d.val a.val b.val 25 0
  | .vmrg d a b => encV 0x21 d.val a.val b.val 26 0
  | .vclass d a => encV 0x21 d.val a.val 0 27 0
  | .vaddVs d a b z => encV 0x22 d.val a.val b.val 0 (z.toNat * 2 ^ 4)
  | .vsubVs d a b z => encV 0x22 d.val a.val b.val 1 (z.toNat * 2 ^ 4)
  | .vrsubVs d a b z => encV 0x22 d.val a.val b.val 2 (z.toNat * 2 ^ 4)
  | .vmulVs d a b z => encV 0x22 d.val a.val b.val 3 (z.toNat * 2 ^ 4)
  | .vmulhVs d a b z => encV 0x22 d.val a.val b.val 4 (z.toNat * 2 ^ 4)
  | .vminVs d a b z => encV 0x22 d.val a.val b.val 5 (z.toNat * 2 ^ 4)
  | .vmaxVs d a b z => encV 0x22 d.val a.val b.val 6 (z.toNat * 2 ^ 4)
  | .vandVs d a b => encV 0x22 d.val a.val b.val 9 0
  | .vorVs d a b => encV 0x22 d.val a.val b.val 10 0
  | .vxorVs d a b => encV 0x22 d.val a.val b.val 11 0
  | .vandnVs d a b => encV 0x22 d.val a.val b.val 12 0
  | .vsllVs d a b => encV 0x22 d.val a.val b.val 13 0
  | .vsrlVs d a b => encV 0x22 d.val a.val b.val 14 0
  | .vsraVs d a b => encV 0x22 d.val a.val b.val 15 0
  | .vsaddVs d a b z => encV 0x22 d.val a.val b.val 16 (z.toNat * 2 ^ 4)
  | .vssubVs d a b z => encV 0x22 d.val a.val b.val 17 (z.toNat * 2 ^ 4)
  | .vavgVs d a b z => encV 0x22 d.val a.val b.val 18 (z.toNat * 2 ^ 4)
  | .vdivVs d a b z => encV 0x22 d.val a.val b.val 19 (z.toNat * 2 ^ 4)
  | .vcmpeqVs d a b => encV 0x22 d.val a.val b.val 21 0
  | .vcmpneVs d a b => encV 0x22 d.val a.val b.val 22 0
  | .vcmpltVs d a b => encV 0x22 d.val a.val b.val 23 0
  | .vcmpleVs d a b => encV 0x22 d.val a.val b.val 24 0
  | .vfma d a b c z => encW 0x23 d.val a.val b.val c.val 0 (z.toNat * 2 ^ 2)
  | .vfms d a b c z => encW 0x23 d.val a.val b.val c.val 1 (z.toNat * 2 ^ 2)
  | .vfnma d a b c z => encW 0x23 d.val a.val b.val c.val 2 (z.toNat * 2 ^ 2)
  | .vfnms d a b c z => encW 0x23 d.val a.val b.val c.val 3 (z.toNat * 2 ^ 2)
  | .vmacc d a b z => encW 0x23 d.val a.val b.val 0 4 (z.toNat * 2 ^ 2)
  | .vdot2 d a b c z => encW 0x23 d.val a.val b.val c.val 5 (z.toNat * 2 ^ 2)
  | .mand d a b => encV 0x24 d.val a.val b.val 0 0
  | .mor d a b => encV 0x24 d.val a.val b.val 1 0
  | .mxor d a b => encV 0x24 d.val a.val b.val 2 0
  | .mandn d a b => encV 0x24 d.val a.val b.val 3 0
  | .mnot d a => encV 0x24 d.val a.val 0 4 0
  | .mmov d a => encV 0x24 d.val a.val 0 5 0
  | .msbf d a => encV 0x24 d.val a.val 0 6 0
  | .msif d a => encV 0x24 d.val a.val 0 7 0
  | .msof d a => encV 0x24 d.val a.val 0 8 0
  | .mpopc d a => encV 0x24 d.val a.val 0 9 0
  | .mfirst d a => encV 0x24 d.val a.val 0 10 0
  | .viota d a => encV 0x24 d.val a.val 0 11 0
  | .vid d => encV 0x24 d.val 0 0 12 0
  | .mset d a => encV 0x24 d.val a.val 0 13 0
  | .vslideup d a b => encV 0x25 d.val a.val b.val 0 0
  | .vslidedn d a b => encV 0x25 d.val a.val b.val 1 0
  | .vrgather d a b => encV 0x25 d.val a.val b.val 2 0
  | .vcompress d a => encV 0x25 d.val a.val 0 3 0
  | .vexpand d a => encV 0x25 d.val a.val 0 4 0
  | .vshuf d a p => encV 0x25 d.val a.val 0 5 p.val
  | .vxch d a x => encV 0x25 d.val a.val 0 6 x.val
  | .vbcast d a b => encV 0x25 d.val a.val b.val 7 0
  | .vredsum d a b z => encV 0x25 d.val a.val b.val 8 (z.toNat * 2 ^ 4)
  | .vredsumo d a b z => encV 0x25 d.val a.val b.val 9 (z.toNat * 2 ^ 4)
  | .vredmin d a b z => encV 0x25 d.val a.val b.val 10 (z.toNat * 2 ^ 4)
  | .vredmax d a b z => encV 0x25 d.val a.val b.val 11 (z.toNat * 2 ^ 4)
  | .vcmul d a b z n y x => encV 0x26 d.val a.val b.val 0 (z.toNat * 2 ^ 3 + n.toNat * 2 ^ 2 + y.toNat * 2 ^ 1 + x.toNat)
  | .vcmac d a b z n y x => encV 0x26 d.val a.val b.val 1 (z.toNat * 2 ^ 3 + n.toNat * 2 ^ 2 + y.toNat * 2 ^ 1 + x.toNat)
  | .vcmag2 d a z => encV 0x26 d.val a.val 0 2 (z.toNat * 2 ^ 3)
  | .vconj d a z => encV 0x26 d.val a.val 0 3 (z.toNat * 2 ^ 3)
  | .vbfly2 d a b i z => encV 0x26 d.val a.val b.val 4 (i.toNat * 2 ^ 4 + z.toNat * 2 ^ 3)
  | .vbfly4 d a b i z => encV 0x26 d.val a.val b.val 5 (i.toNat * 2 ^ 4 + z.toNat * 2 ^ 3)
  | .vcinv2 d a z => encV 0x26 d.val a.val 0 6 (z.toNat * 2 ^ 3)
  | .vqmul d a b n y x => encV 0x26 d.val a.val b.val 7 (n.toNat * 2 ^ 2 + y.toNat * 2 ^ 1 + x.toNat)
  | .vqscl d a b => encV 0x26 d.val a.val b.val 8 0
  | .sfRcp d a z => encV 0x27 d.val a.val 0 0 (z.toNat * 2 ^ 4)
  | .sfRsq d a z => encV 0x27 d.val a.val 0 1 (z.toNat * 2 ^ 4)
  | .sfSqrt d a z => encV 0x27 d.val a.val 0 2 (z.toNat * 2 ^ 4)
  | .sfExp2 d a z => encV 0x27 d.val a.val 0 3 (z.toNat * 2 ^ 4)
  | .sfLog2 d a z => encV 0x27 d.val a.val 0 4 (z.toNat * 2 ^ 4)
  | .sfSinpi d a z => encV 0x27 d.val a.val 0 5 (z.toNat * 2 ^ 4)
  | .sfCospi d a z => encV 0x27 d.val a.val 0 6 (z.toNat * 2 ^ 4)
  | .sfAtan2pi d a b z => encV 0x27 d.val a.val b.val 7 (z.toNat * 2 ^ 4)
  | .vld d s c => encL 0x28 d.val s.val 0 0 (c.toNat * 2 ^ 6)
  | .vst t s c => encL 0x28 t.val s.val 0 1 (c.toNat * 2 ^ 6)
  | .vstu t s => encL 0x28 t.val s.val 0 2 0
  | .vldff d s => encL 0x28 d.val s.val 0 3 0
  | .vlds d s => encL 0x28 d.val s.val 0 4 0
  | .vgath d s i c => encL 0x28 d.val s.val i.val 5 (c.toNat * 2 ^ 6)
  | .vscat t s i c => encL 0x28 t.val s.val i.val 6 (c.toNat * 2 ^ 6)
  | .vscatu t s i => encL 0x28 t.val s.val i.val 7 0
  | .vstcmp t s => encL 0x28 t.val s.val 0 8 0
  | .vldexp d s => encL 0x28 d.val s.val 0 9 0
  | .vamo d s i c p => encL 0x28 d.val s.val i.val 10 (c.toNat * 2 ^ 6 + p.val)
  | .vredm t s i p => encL 0x28 t.val s.val i.val 11 p.val
  | .sdset a s f => encL 0x29 a.val s.val 0 0 f.val
  | .sdget d s f => encL 0x29 d.val s.val 0 1 f.val
  | .sdld a s => encL 0x29 a.val s.val 0 2 0
  | .sdst a s => encL 0x29 a.val s.val 0 3 0
  | .sdadv a s => encL 0x29 a.val s.val 0 4 0
  | .sdpos d s => encL 0x29 d.val s.val 0 5 0
  | .mopa c a b p q l z => encT 0x2A c.val a.val b.val p.val q.val 1 (l.toNat * 2 ^ 5 + z.toNat * 2 ^ 4)
  | .mops c a b p q l z => encT 0x2A c.val a.val b.val p.val q.val 2 (l.toNat * 2 ^ 5 + z.toNat * 2 ^ 4)
  | .cmopa c a b p q l z => encT 0x2A c.val a.val b.val p.val q.val 3 (l.toNat * 2 ^ 5 + z.toNat * 2 ^ 4)
  | .mopasp c a b p q l z n m => encT 0x2A c.val a.val b.val p.val q.val 4 (l.toNat * 2 ^ 5 + z.toNat * 2 ^ 4 + n.toNat * 2 ^ 3 + m.val)
  | .mld c s => encT 0x2A c.val s.val 0 0 0 5 0
  | .mst c s => encT 0x2A c.val s.val 0 0 0 6 0
  | .mrdv c d b => encT 0x2A c.val d.val b.val 0 0 7 0
  | .mwrv c a b => encT 0x2A c.val a.val b.val 0 0 8 0
  | .rlld a p => encT 0x2A 0 a.val 0 p.val 0 9 0
  | .rlrd a p => encT 0x2A 0 a.val 0 p.val 0 11 0
  | .ecall => encA 0x01 0 0 0 0
  | .trapret => encA 0x01 0 0 0 64
  | .brk => encA 0x01 0 0 0 128
  | .ptfenceStrand => encA 0x01 0 0 0 256
  | .ptfenceCore => encA 0x01 0 0 0 264
  | .ptfenceCluster => encA 0x01 0 0 0 272
  | .ptfenceDie => encA 0x01 0 0 0 280
  | .ptfenceSystem => encA 0x01 0 0 0 288
  | .tlbsyncStrand => encA 0x01 0 0 0 384
  | .tlbsyncCore => encA 0x01 0 0 0 392
  | .tlbsyncCluster => encA 0x01 0 0 0 400
  | .tlbsyncDie => encA 0x01 0 0 0 408
  | .tlbsyncSystem => encA 0x01 0 0 0 416
  | .xpfence => encA 0x01 0 0 0 448
  | .park => encA 0x15 0 0 0 192
  | .yield => encA 0x15 0 0 0 256
  | .jexit => encA 0x15 0 0 0 512
  | .bar0 => encA 0x16 0 0 0 128
  | .bar1 => encA 0x16 0 0 0 129
  | .bar2 => encA 0x16 0 0 0 130
  | .bar3 => encA 0x16 0 0 0 131
  | .bar4 => encA 0x16 0 0 0 132
  | .bar5 => encA 0x16 0 0 0 133
  | .bar6 => encA 0x16 0 0 0 134
  | .bar7 => encA 0x16 0 0 0 135
  | .bar8 => encA 0x16 0 0 0 136
  | .bar9 => encA 0x16 0 0 0 137
  | .bar10 => encA 0x16 0 0 0 138
  | .bar11 => encA 0x16 0 0 0 139
  | .bar12 => encA 0x16 0 0 0 140
  | .bar13 => encA 0x16 0 0 0 141
  | .bar14 => encA 0x16 0 0 0 142
  | .bar15 => encA 0x16 0 0 0 143
  | .vfork2 => encV 0x20 0 0 0 4 0
  | .vfork4 => encV 0x20 0 0 0 4 1
  | .vjoin => encV 0x20 0 0 0 5 0
  | .vwait => encV 0x20 0 0 0 7 0
  | .vpref0 => encL 0x28 0 0 0 12 0
  | .vpref1 => encL 0x28 0 1 0 12 0
  | .vpref2 => encL 0x28 0 2 0 12 0
  | .vpref3 => encL 0x28 0 3 0 12 0
  | .vpref4 => encL 0x28 0 4 0 12 0
  | .vpref5 => encL 0x28 0 5 0 12 0
  | .vpref6 => encL 0x28 0 6 0 12 0
  | .vpref7 => encL 0x28 0 7 0 12 0
  | .vpref8 => encL 0x28 0 8 0 12 0
  | .vpref9 => encL 0x28 0 9 0 12 0
  | .vpref10 => encL 0x28 0 10 0 12 0
  | .vpref11 => encL 0x28 0 11 0 12 0
  | .vpref12 => encL 0x28 0 12 0 12 0
  | .vpref13 => encL 0x28 0 13 0 12 0
  | .vpref14 => encL 0x28 0 14 0 12 0
  | .vpref15 => encL 0x28 0 15 0 12 0
  | .mzero0 => encT 0x2A 0 0 0 0 0 0 0
  | .mzero1 => encT 0x2A 1 0 0 0 0 0 0
  | .mzero2 => encT 0x2A 2 0 0 0 0 0 0
  | .mzero3 => encT 0x2A 3 0 0 0 0 0 0
  | .rlpass => encT 0x2A 0 0 0 0 0 10 0
  | .frontEndIssue _ => 0
  | .syncTrapEntry _ _ _ _ => 0
  | .asyncTrapEntry _ => 0
  | .postedStoreError _ _ _ => 0
  | .watchdogExpiry _ => 0
  | .watchdogReset _ => 0
  | .registerFileError _ _ _ _ => 0
  | .handlerStart _ => 0
  | .reservationTimeout _ => 0
  | .growOffer _ => 0
  | .laneChange _ => 0
  | .messageArrival _ => 0
  | .messageReoffer _ => 0
  | .continuationDelivery _ => 0
  | .preemptRequest _ => 0
  | .saveComplete _ => 0
  | .resume _ _ => 0
  | .resumeComplete _ => 0
  | .vectorInstructionStart _ => 0
  | .vectorBeat _ => 0
  | .vectorLoadDataReturn _ _ _ => 0
  | .repetitionReissue _ => 0
  | .vforkSplit _ => 0
  | .vjoinReassemble _ => 0
  | .sfuRequestSend _ => 0
  | .sfuServiceStart _ => 0
  | .sfuResultReturn _ => 0
  | .rlpassSend _ => 0
  | .rlpassTake _ => 0
  | .fenceRetire _ => 0
  | .xpfenceRetire _ => 0
  | .ptfenceRetire _ => 0
  | .tlbinvDrop _ => 0
  | .tlbsyncRetire _ => 0
  | .pageWalk _ _ => 0
  | .walkerReadReturn _ => 0
  | .mgWaitPoll _ => 0
  | .mgWaitTimeout _ => 0
  | .loadDataReturn _ _ _ _ _ => 0
  | .hostRequestCompletion _ _ _ => 0
  | .hostCompletionTimeout _ => 0
  | .clmBankAccess _ _ _ _ => 0
  | .cspBankAccess _ _ _ _ => 0
  | .l2BankAccess _ _ _ => 0
  | .l2FillReturn _ _ => 0
  | .csmAccess _ _ _ => 0
  | .nearBankOperation _ _ _ _ => 0
  | .ownerScrub _ => 0
  | .l2PatrolScrub _ _ _ => 0
  | .lpddrSectorService _ _ => 0
  | .regulatorTokenFill _ _ => 0
  | .lpddrPatrolScrub _ => 0
  | .domJoin _ _ _ => 0
  | .domLeave _ _ => 0
  | .barrierCounterError _ _ _ => 0
  | .vlWrite _ _ => 0
  | .vmcWrite _ _ => 0
  | .fcsrWrite _ _ => 0
  | .tprvHoldClear _ => 0
  | .xasidWrite _ _ => 0
  | .berthRecordPlace _ _ _ _ _ _ _ => 0
  | .brctlEnable _ _ _ => 0
  | .brctlCursorEnable _ _ _ => 0
  | .ecpriUplaneFrame _ _ _ _ _ _ _ => 0
  | .ecpriCplaneFrame _ _ _ _ _ => 0
  | .ecpriDelayMeasurement _ _ => 0
  | .unmatchedFrame _ => 0
  | .ptpEventFrame _ _ _ => 0
  | .synceLockChange _ => 0
  | .ptmRequest => 0
  | .jobRelease _ => 0
  | .promotionSweep => 0
  | .timetablePop => 0
  | .dispatchWithdraw _ => 0
  | .serverBudgetExhausted _ => 0
  | .serverSuspensionEnd _ => 0
  | .jsrvWrite _ _ => 0
  | .jobEnd _ _ _ => 0
  | .deadlineExpiry _ => 0
  | .exitRoutineStart _ => 0
  | .exitBudgetExpiry _ => 0
  | .commandAccept _ => 0
  | .ferryCopy _ => 0
  | .ferryCopy3 _ => 0
  | .ferryGather _ => 0
  | .ferryScatter _ => 0
  | .ferryFill _ => 0
  | .ferryMigrate _ => 0
  | .ferryUpdate _ => 0
  | .ldpcDecode _ => 0
  | .ldpcEncode _ => 0
  | .polarEncode _ => 0
  | .polarDecode _ => 0
  | .txUplane _ => 0
  | .txCplane _ => 0
  | .txRawFrame _ => 0
  | .txLaunch _ => 0
  | .txLate _ => 0
  | .commandCompletion _ => 0
  | .clearanceGo _ => 0
  | .clearanceDecision _ => 0
  | .clearanceStopPoint _ => 0
  | .clearanceHorizon _ => 0
  | .clearanceVacancy _ => 0
  | .clusterRetirement _ => 0
  | .channelRetirement _ => 0
  | .l2cfgCsmwWrite _ => 0
  | .csmResizeComplete => 0
  | .l2errDiscard _ => 0
  | .xdirWrite _ _ => 0
  | .xhlogDisable _ => 0
  | .partitionRegisterWrite _ _ => 0
  | .accessTableWrite _ _ => 0
  | .clrlogWrite _ => 0
  | .mkeyRegen _ => 0
  | .keyRegenComplete _ => 0
  | .mregWrite _ _ _ => 0
  | .pwrcapWrite _ => 0
  | .powerCapExceeded => 0
  | .partitionCapExceeded _ => 0
  | .thermalThrottle => 0
  | .thermalStop => 0
  | .thermalSupplyRemoval => 0
  | .powerOnBoot => 0
  | .hostRecoverySupply _ _ => 0
  | .spdmRequest => 0
  | .fwhoStart _ => 0
  | .handoverVerified _ => 0
  | .handoverCommit => 0
  | .hostMemoryRequest _ _ _ _ => 0
  | .atsTranslationResponse _ _ _ => 0
  | .atsTimeout _ => 0
  | .priResponse _ _ => 0
  | .priTimeout _ => 0
  | .atsInvalidation _ => 0
  | .sqEnable _ _ _ => 0
  | .sqDoorbell _ _ _ => 0
  | .sqDescriptorFetch _ _ _ => 0
  | .sqStop _ _ => 0
  | .sqStopComplete _ _ => 0
  | .vfFlr _ => 0
  | .twinRequest _ _ _ => 0
  | .twinLinkDown => 0
  | .migrationExport _ => 0
  | .migrationQuiesced => 0
  | .migrationQuiesceTimeout => 0
  | .migrationStreamed => 0
  | .migrationCancel => 0
  | .migrationImport _ _ => 0
  | .migrationSourceDone => 0
  | .registerWrite _ _ _ _ => 0
  | .twinLinkUp => 0
  | .ptpHoldover => 0
  | .twinPtmTime _ => 0

end Sys2Proof
end

