-- ==== Sys2Proof/Machine/Links.lean ====
section
/-! DEFINITION. The host link and the twin link as strands meet them (chapter 24): requests that leave the die, and their completions. -/

namespace Sys2Proof.Machine

/-- Draw a ticket of the die-wide sequence counter (R93, R326). -/
def Die.ticket (d : Die) : Die := { d with tickets := d.tickets + 1 }

/-- `HVF` of an owner (Table 24.2); owners below 0x100 have none and read zero (R438). -/
def Die.hvf (d : Die) (o : Nat) : Nat := if 0x100 ≤ o then d.reg (0x20000C000000 + 8 * (o - 0x100)) else 0

/-- `TWCTL`.UP (Table 24.5). -/
def Die.twinUp (d : Die) : Bool := d.reg 0x20000C010000 / 2 % 2 == 1

/-- The address that a request carries: the host's (R438) or the twin's (R446). -/
def Die.linkAddr (d : Die) (twin : Bool) (o pa : Nat) : Nat :=
  if twin then pa - 0xC00000000000 else bits (d.hvf o) 63 46 * 2 ^ 46 + (pa - 0x800000000000)

/-- Send a message. -/
def Die.send (d : Die) (m : LinkMsg) : Die := { d with sent := m :: d.sent }

/-- The PASID that an owner's requests to the host carry (R438): 1 + PASID, or 0. -/
def Die.pasidOf (d : Die) (twin : Bool) (o : Nat) : Nat :=
  if !twin && bits (d.hvf o) 25 25 == 1 then bits (d.hvf o) 45 26 + 1 else 0

/-- Send a strand's request. -/
def Die.sendReq (d : Die) (o : Nat) (q : HostReq) : Die :=
  d.send ⟨q.twin, o, q.op, d.linkAddr q.twin o q.pa, q.size, q.a, q.b, d.pasidOf q.twin o, q.relaxed⟩

/-! ### The order of a strand's requests to the host (R330, Table 17.3) -/

/-- An earlier request is ordered before one that reads, or writes, `n` bytes at `pa`: by its location, by the device order, or by a source at
scope .y. -/
def HostSent.before (e : HostSent) (pa n : Nat) (load store device : Bool) : Bool :=
  decide (e.pa < pa + n ∧ pa < e.pa + e.size) || (e.device && device) || (load && e.loads) || (store && e.stores)

/-- The requests of a context after one more; where every later request follows one already, no other matters. -/
def pushSent (l : List HostSent) (e : HostSent) : List HostSent :=
  if l.any fun x => x.loads && x.stores then l else l ++ [e]

/-- A source of order at scope .y: the earlier loads, or stores, or both, come before every later load, or store, or both. -/
def Strand.orderHost (t : Strand) (load store loads stores : Bool) : Strand :=
  { t with run := { t.run with hostLog := t.run.hostLog.map fun e =>
    if (e.load && load) || (e.store && store) then { e with loads := e.loads || loads, stores := e.stores || stores } else e } }

/-- The translation that an access of the issuing strand went through. -/
def State.pageOf (s : State) (va : Nat) : Copy :=
  (s.die.findCopy s.core s.me.id.owner s.me.xasid.toNat va []).getD Copy.window

/-- Whether a request to the host leaves with Relaxed Ordering: nothing orders it behind an earlier one. A release orders it behind all (R93). -/
def State.relaxes (s : State) (pa n : Nat) (load store device : Bool) (order : Nat) : Bool :=
  !((order.testBit 1 && s.me.run.hostLog != []) || s.me.run.hostLog.any fun e => e.before pa n load store device)

/-- Count a request to the host: a load comes before every later store (R322), an acquire before everything later (R93). -/
def State.hostSent (s : State) (pa n : Nat) (load store device : Bool) (order : Nat) : State :=
  s.modMe fun t => { t with run := { t.run with
    hostLog := pushSent t.run.hostLog ⟨pa, n, load, store, device, order.testBit 0, order.testBit 0 || load⟩ } }

/-- A request reads; it writes. -/
def LinkOp.loads : LinkOp → Bool
  | .write | .message => false
  | _ => true
def LinkOp.stores : LinkOp → Bool
  | .read => false
  | _ => true

/-! ### Writes that have not performed (R319, R333) -/

/-- No posted write of the issuing strand is outstanding. -/
def State.drained (s : State) : Bool := s.die.posted.all fun p => p.source != s.meId

/-- An instruction before which every earlier store of the strand is to have performed waits for those that a link has not performed, and
executes again (R103, R106, R331, R333, R345). -/
def State.drain (s : State) (f : State → State) : State := if s.drained then f s else s.waitIn .fence

/-! ### Requests -/

/-- The oldest posted write of a source that waits for its translation by the host (R439). -/
def Die.heldBy (d : Die) (source : Nat) : Option Posted := d.posted.find? fun p => p.source == source && p.held.isSome

/-- A request that cannot leave: the twin link is down (R448), or the function may send no AtomicOp (R445). -/
def State.linkFault (s : State) (q : HostReq) : Option Nat :=
  if q.twin then (if s.die.twinUp then none else some 0x10)
  else if q.atomic && q.op != .read && !sget false s.die.atomicEn s.me.id.owner then some 0x2C
  else none

/-- Send a request of the issuing strand, which then waits for the completion; with ATS a host request asks for its translation first
(R108, R438, R439, R445, R446). -/
def State.linkWait (s : State) (q : HostReq) : State :=
  let copy := s.pageOf q.va.toNat
  let dev := pteMt copy.pte == 1
  let q := { q with
    copy := copy
    made := s.die.clock
    relaxed := !q.twin && s.relaxes q.pa q.size q.op.loads q.op.stores dev q.order }
  let s := if q.twin then s else s.hostSent q.pa q.size q.op.loads q.op.stores dev q.order
  let wait (q : HostReq) (s : State) : State :=
    s.modMe fun t => { t with run := { t.run with wait := .host, since := s.die.dtime, hostReq := some q } }
  if !q.twin && (bits (s.die.hvf s.me.id.owner) 24 24 == 1 || (s.die.heldBy s.meId).isSome) then wait { q with phase := .translating } s
  else wait { q with phase := .sent } (s.modDie fun d => d.sendReq s.me.id.owner q)

/-- A load or AMO of the issuing strand to the host or the twin window. -/
def State.linkRequest (s : State) (q : HostReq) : State :=
  match s.linkFault q with
  | some c => s.trap c q.va
  | none => s.linkWait q

/-- A posted write to the host leaves; with ATS, or behind one that waits, it first waits for its translation (R438, R439). -/
def Die.postHost (d : Die) (source o va : Nat) (copy : Copy) (m : LinkMsg) : Die :=
  if bits (d.hvf o) 24 24 = 1 ∨ (d.heldBy source).isSome then
    { d with posted := d.posted ++ [⟨source, o, false, copy, va, d.clock, some ⟨m, false, d.dtime⟩⟩] }
  else d.send m

/-- A posted write to the twin leaves; it performs when the twin accepts it (R319). -/
def Die.postTwin (d : Die) (source o va : Nat) (copy : Copy) (m : LinkMsg) : Die :=
  { d.send m with posted := d.posted ++ [⟨source, o, true, copy, va, d.clock, none⟩] }

/-- A posted store to the host or the twin window (R438, R448); it performs when the host link sends it, or when the twin accepts it (R319).
`order` as in `HostReq`. -/
def State.linkStore (s : State) (twin : Bool) (pa : Nat) (bs : List Byte) (va : Nat) (order : Nat := 0) : State :=
  let o := s.me.id.owner
  let copy := s.pageOf va
  let msg (d : Die) (relaxed : Bool) : LinkMsg :=
    ⟨twin, o, .write, d.linkAddr twin o pa, bs.length, leVal bs, 0, d.pasidOf twin o, relaxed⟩
  if twin then
    if !s.die.twinUp then s.postError s.meId 0x10 va
    else s.modDie fun d => d.postTwin s.meId o va copy (msg d false)
  else
    let dev := pteMt copy.pte == 1
    let r := s.relaxes pa bs.length false true dev order
    (s.modDie fun d => d.postHost s.meId o va copy (msg d r)).hostSent pa bs.length false true dev order

end Sys2Proof.Machine
end

