-- ==== Sys2Proof/Machine/Barrier.lean ====
section
/-! DEFINITION. Synchronisation domains (R291 to R296): the domain slots of a strand and the barrier counters. -/

namespace Sys2Proof.Machine

/-- LEVEL of a slot (Table 14.10). -/
def domLevel (v : Nat) : Nat := bits v 31 30
/-- ID of a slot. -/
def domId (v : Nat) : Nat := bits v 29 24
/-- COUNT of a slot. -/
def domCount (v : Nat) : Nat := bits v 16 8
/-- ARR of a slot. -/
def domArr (v : Nat) : Bool := v / 2 % 2 == 1
/-- V of a slot. -/
def domV (v : Nat) : Bool := v % 2 == 1

/-- The key of a counter: the counter ID of the strand's own, its core's, its cluster's or the die's (R292). -/
def barrierKey (strand level id : Nat) : Nat :=
  2 ^ 20 * level + 64 * (if level = 0 then strand else if level = 1 then strand / 8 else if level = 2 then strand / 32 else 0) + id

/-- The key that a slot of a strand names. -/
def slotKey (strand v : Nat) : Nat := barrierKey strand (domLevel v) (domId v)

/-- A counter. -/
def State.barrier (s : State) (k : Nat) : Barrier := sget Barrier.free s.die.barriers k

/-- Replace a counter. -/
def State.setBarrier (s : State) (k : Nat) (b : Barrier) : State :=
  s.modDie fun d => { d with barriers := sset Barrier.free d.barriers k b }

/-- Clear ARR in every slot of a strand that names a counter. -/
def Strand.clearArr (t : Strand) (i k : Nat) : Strand :=
  { t with dom := t.dom.map fun e => if e.2 < 2 ^ 64 && domV e.2 && slotKey i e.2 == k then (e.1, putBits e.2 1 1 0) else e }

/-- The same in a saved context's slots. -/
def Saved.clearArr (v : Saved) (k : Nat) : Saved :=
  { v with dom := v.dom.map fun e => if e.2 < 2 ^ 64 && domV e.2 && slotKey v.last e.2 == k then (e.1, putBits e.2 1 1 0) else e }

/-- Every member's ARR := 0, saved members included. -/
def State.clearArr (s : State) (k : Nat) : State :=
  { s with
    me := s.me.clearArr s.meId k
    others := s.others.map fun e => (e.1, e.2.clearArr e.1 k)
    die := { s.die with jobs := s.die.jobs.map fun e => (e.1, { e.2 with slots := e.2.slots.map fun v => v.clearArr k }) } }

/-- The phase completes: P advances, the arrivals are cleared and the members released (R293). -/
def State.phaseComplete (s : State) (k : Nat) : State :=
  let b := s.barrier k
  (s.setBarrier k { b with phase := (b.phase + 1) % 2 ^ 32, arrivals := 0 }).clearArr k

/-- A slot's value. -/
def Strand.domSlot (t : Strand) (n : Nat) : Nat := sget 0 t.dom n % 2 ^ 64

/-- An uncorrectable error has freed the counter that a slot names (R296). -/
def Strand.domFailed (t : Strand) (n : Nat) : Bool := decide (2 ^ 64 ≤ sget 0 t.dom n)

/-- Mark the slots of a list that name a counter as failed, until they are rewritten. -/
def failSlots (i k : Nat) (l : List (Nat × Nat)) : List (Nat × Nat) :=
  l.map fun e => if e.2 < 2 ^ 64 && domV e.2 && slotKey i e.2 == k then (e.1, 2 ^ 64 + e.2) else e

/-- Write a slot. -/
def State.setDom (s : State) (i n v : Nat) : State := s.modStrand i fun t => { t with dom := sset 0 t.dom n v }

/-- Mark the phase, plus one, that a BAR of a slot waits on, or 0 for none (R294). -/
def State.setBarPhase (s : State) (i n p : Nat) : State :=
  s.modStrand i fun t => { t with run := { t.run with barPhase := sset 0 t.run.barPhase n p } }

/-- The fault of a join, or none (R292). -/
def joinFault (owner v : Nat) (b : Barrier) : Option Nat :=
  let idLimit := match domLevel v with | 0 => 1 | 1 => 4 | 2 => 16 | _ => 64
  let countLimit := match domLevel v with | 0 => 1 | 1 => 8 | 2 => 32 | _ => 256
  if b.owner ≠ 0 ∧ b.owner ≠ owner + 1 then some 0x12
  else if idLimit ≤ domId v ∨ domCount v = 0 ∨ countLimit < domCount v then some 0x01
  else if b.owner = 0 then none
  else if domCount v ≠ b.count ∨ b.count ≤ b.members ∨ b.phase ≠ 0 ∨ b.arrivals ≠ 0 then some 0x01
  else none

/-- V = 1 written to a slot (R292): a fault code, or the state. -/
def State.domJoin (s : State) (i n v : Nat) : Except Nat State :=
  let t := s.strand i
  if domV (t.domSlot n) then .error 0x01
  else
    let k := slotKey i v
    let b := s.barrier k
    match joinFault t.id.owner v b with
    | some c => .error c
    | none =>
      let b' := if b.owner = 0 then ⟨t.id.owner + 1, domCount v, 1, 0, 0⟩ else { b with members := b.members + 1 }
      .ok (((s.setBarrier k b').setBarPhase i n 0).setDom i n (domLevel v * 2 ^ 30 + domId v * 2 ^ 24 + domCount v * 2 ^ 8 + 1))

/-- One member fewer of a counter, with its arrival if it has arrived (R295). -/
def State.counterLeave (s : State) (k : Nat) (arr : Bool) : State :=
  let b := s.barrier k
  if b.owner = 0 then s
  else
    let b' := { b with
      count := b.count - 1
      members := b.members - 1
      arrivals := if arr then b.arrivals - 1 else b.arrivals }
    if b'.count = 0 then s.setBarrier k Barrier.free
    else
      let s := s.setBarrier k b'
      if b'.arrivals = b'.count then s.phaseComplete k else s

/-- A member leaves its domain and its slot is cleared (R295). -/
def State.domLeave (s : State) (i n : Nat) : State :=
  let v := (s.strand i).domSlot n
  let failed := (s.strand i).domFailed n
  let s := (s.setDom i n 0).setBarPhase i n 0
  if domV v && !failed then s.counterLeave (slotKey i v) (domArr v) else s

/-- A saved context leaves its domains (R295); its strand-level counter goes with it. -/
def State.leaveSaved (s : State) (v : Saved) : State :=
  v.dom.foldl (fun s e => if e.2 < 2 ^ 64 && domV e.2 && domLevel e.2 != 0 then s.counterLeave (slotKey v.last e.2) (domArr e.2) else s) s

/-- The domains of a context resumed on strand `i` (R295): its slots hold what the area holds, with ARR as it is now; on another core it
leaves its core-level domains, in another cluster its cluster-level ones. -/
def State.resumeDomains (s : State) (i : Nat) (v : Saved) : State :=
  let s := (s.setBarrier (barrierKey i 0 0) v.own).modStrand i fun t => { t with run := { t.run with barPhase := v.barPhase } }
  (List.range 16).foldl (fun s n =>
    let a := (s.strand i).domSlot n
    let arr := domArr (sget 0 v.dom n)
    if !domV a then s
    else if 2 ^ 64 ≤ sget 0 v.dom n then s.setDom i n (2 ^ 64 + a)
    else if (domLevel a = 1 ∧ i / 8 ≠ v.last / 8) ∨ (domLevel a = 2 ∧ i / 32 ≠ v.last / 32) then
      ((s.setDom i n 0).setBarPhase i n 0).counterLeave (slotKey v.last a) arr
    else s.setDom i n (putBits a 1 1 (if arr then 1 else 0))) s

/-- Leave every domain whose slot satisfies a test (R295). -/
def State.leaveDomains (s : State) (i : Nat) (p : Nat → Bool) : State :=
  (List.range 16).foldl (fun s n => if p ((s.strand i).domSlot n) then s.domLeave i n else s) s

/-- A write to `DOM`n (R292). -/
def State.domWrite (s : State) (i n v : Nat) : Except Nat State :=
  if domV v then s.domJoin i n v else .ok (s.domLeave i n)

/-- The word of an instruction of the BAR family whose slot cannot be used: code 0x01 where V = 0 (R293), code 0x70 where an error freed the
counter (R296). -/
def State.barFault (s : State) (d : Nat) (word : Nat) : Option State :=
  let v := s.me.domSlot d
  if !domV v then some (s.illegal 0x01 word)
  else if s.me.domFailed d then some (s.trap 0x70 0)
  else none

/-- Arrive at a domain: one arrival, ARR := 1, and the phase completes at the last (R293). An arrival is a release at the domain's level, so it
waits for the writes that the twin has still to accept (Table 17.3, R331). -/
def State.arrive (s : State) (d : Nat) : State :=
  let v := s.me.domSlot d
  let k := slotKey s.meId v
  let b := s.barrier k
  let s := (s.setDom s.meId d (putBits v 1 1 1)).setBarrier k { b with arrivals := b.arrivals + 1 }
  if b.arrivals + 1 = b.count then s.phaseComplete k else s

/-- BARARV (R293). -/
def State.barArrive (s : State) (r : Fin 32) (d word : Nat) : State :=
  match s.barFault d word with
  | some s => s
  | none =>
    let v := s.me.domSlot d
    if domArr v then s.waitIn .barrier
    else if domLevel v ≠ 0 ∧ !s.drained then s.waitIn .fence
    else (s.arrive d).writeRetire r (BitVec.ofNat 64 (s.barrier (slotKey s.meId v)).phase)

/-- BARWT: wait while P = a[31:0] (R293). -/
def State.barWait (s : State) (a : Fin 32) (d word : Nat) : State :=
  match s.barFault d word with
  | some s => s
  | none =>
    if (s.barrier (slotKey s.meId (s.me.domSlot d))).phase = (s.reg a).toNat % 2 ^ 32 then s.waitIn .barrier else s.retire

/-- BAR: arrive with no register written, then wait on the phase it arrived in; a BAR that has arrived does not arrive again (R293, R294). -/
def State.bar (s : State) (d word : Nat) : State :=
  match s.barFault d word with
  | some s => s.setBarPhase s.meId d 0
  | none =>
    let v := s.me.domSlot d
    let k := slotKey s.meId v
    match sget 0 s.me.run.barPhase d with
    | q + 1 => if (s.barrier k).phase = q then s.waitIn .barrier else (s.setBarPhase s.meId d 0).retire
    | 0 =>
      if domArr v then s.waitIn .barrier
      else if domLevel v ≠ 0 ∧ !s.drained then s.waitIn .fence
      else
        let p := (s.barrier k).phase
        let s := s.arrive d
        if (s.barrier k).phase = p then (s.setBarPhase s.meId d (p + 1)).waitIn .barrier else s.retire

/-- A barrier counter error (R296): an error record; the counter is freed, and the slots of its members, saved ones included, fail until they are
rewritten. -/
def State.barrierError (s : State) (level unit id : Nat) : State :=
  let k := 2 ^ 20 * level + 64 * unit + id
  let b := s.barrier k
  if b.owner = 0 then s
  else
    let s := (s.modDie fun d => d.errorRecord 0x70 2048 k).setBarrier k Barrier.free
    { s with
      me := { s.me with dom := failSlots s.meId k s.me.dom }
      others := s.others.map fun e => (e.1, { e.2 with dom := failSlots e.1 k e.2.dom })
      die := { s.die with jobs := s.die.jobs.map fun e => (e.1, { e.2 with
        slots := e.2.slots.map fun v => { v with dom := failSlots v.last k v.dom } }) } }

end Sys2Proof.Machine
end

