-- ==== Sys2Proof/Machine/Flags.lean ====
section
/-! DEFINITION. The floating-point control and flags: the effective rounding mode (R24, R39) and how results set FCSR (R24). -/

namespace Sys2Proof.Machine

/-- The rounding mode that RM names (Table 1.5). -/
def Mode.ofCode : Nat → Mode
  | 0 => .rne
  | 1 => .rtz
  | 2 => .rup
  | _ => .rdn

/-- FCSR.RM. -/
def Strand.rm (t : Strand) : Nat := bits t.fcsr.toNat 7 5

/-- FCSR.SAT8. -/
def Strand.sat8 (t : Strand) : Bool := t.fcsr.getLsbD 8

/-- The effective mode of a scalar FP instruction (R39). -/
def Strand.scalarMode (t : Strand) (rz : Bool) : Mode := if rz then .rtz else Mode.ofCode t.rm

/-- The effective mode of vector, matrix and SFU arithmetic: the directed modes become nearest even (R24, R39). -/
def Strand.vectorMode (t : Strand) (rz : Bool) : Mode :=
  if rz then .rtz else if t.rm = 1 then .rtz else .rne

/-- OR flags into FCSR[4:0] (R24). -/
def Strand.raise (t : Strand) (f : Flags) : Strand := { t with fcsr := t.fcsr ||| f.zeroExtend 9 }

/-- OR flags into the issuing strand's FCSR. -/
def State.raise (s : State) (f : Flags) : State := s.modMe (·.raise f)

/-- A write to FCSR: a value of 0b100 to 0b111 leaves RM unchanged and writes the other fields (R24). -/
def Strand.writeFcsr (t : Strand) (v : Nat) : Strand :=
  { t with fcsr := BitVec.ofNat 9 (if bits v 7 5 < 4 then v else putBits v 7 5 t.rm) }

end Sys2Proof.Machine
end

