-- ==== Sys2Proof/Machine/Csr.lean ====
section
/-! DEFINITION. Control and status registers (R19 to R25, R100): which are allocated, what a read gives and what a write does. -/

namespace Sys2Proof.Machine

/-- Instructions are queued, or a repetition has re-issues to come. -/
def VCtx.busy (c : VCtx) : Bool := c.queue != [] || c.rep.running

/-! ### The vector context's controls -/

/-- k, the lane groups held: popcount(GM) (Table 1.6). -/
def VCtx.k (c : VCtx) : Nat := (List.range 4).countP fun i => c.gm.getLsbD i

/-- The strand holds a vector lease (R13). -/
def VCtx.leased (c : VCtx) : Bool := c.gm != 0

/-- VLMAX = 64·k. -/
def VCtx.vlmax (c : VCtx) : Nat := 64 * c.k

/-- The group size G of VMC (Table 1.4). -/
def VCtx.g (c : VCtx) : Nat := 2 ^ bits c.vmc.toNat 5 4

/-- TPOL. -/
def VCtx.tpol (c : VCtx) : Bool := c.vmc.getLsbD 3
/-- IPOL. -/
def VCtx.ipol (c : VCtx) : Bool := c.vmc.getLsbD 2
/-- MP. -/
def VCtx.mp (c : VCtx) : Bool := c.vmc.getLsbD 1
/-- ME. -/
def VCtx.me (c : VCtx) : Bool := c.vmc.getLsbD 0
/-- SE. -/
def VCtx.se (c : VCtx) : Bool := c.vmc.getLsbD 6

/-- A write to VL stores min(value, G·VLMAX) (R22). -/
def VCtx.setVl (c : VCtx) (v : Nat) : VCtx := { c with vl := Nat.min v (c.g * c.vlmax) }

/-- A write to VMC that lowers G below VL / VLMAX also sets VL := G·VLMAX (R22). -/
def VCtx.setVmc (c : VCtx) (v : Nat) : VCtx :=
  let c := { c with vmc := BitVec.ofNat 7 v }
  { c with vl := Nat.min c.vl (c.g * c.vlmax) }

/-! ### Numbers -/

/-- The lowest privilege of a CSR, bits [9:8] of its number (R19). -/
def csrPriv (n : Nat) : Nat := bits n 9 8

/-- A read-only CSR, bits [11:10] = 0b11 (R19). -/
def csrReadOnly (n : Nat) : Bool := bits n 11 10 == 3

/-- The allocated numbers (Table 1.3, R209, R291, R336). -/
def csrAllocated (n : Nat) : Bool :=
  [0x000, 0x010, 0x011, 0x012, 0x100, 0x101, 0x140, 0x141, 0x142, 0x143, 0x144, 0x145, 0x180, 0x300, 0x301, 0x380, 0x381, 0x382,
    0xC00, 0xC01, 0xC10, 0xC11, 0xC12, 0xC13, 0xC14].contains n ||
  decide (0x040 ≤ n ∧ n < 0x050) || decide (0xC20 ≤ n ∧ n < 0xC40)

/-- The writable CSRs of the vector context (R20). -/
def csrVector (n : Nat) : Bool := n == 0x010 || n == 0x011 || n == 0x012

/-- A core's own state. -/
def State.coreS (s : State) (c : Nat) : CoreS := sget CoreS.empty s.die.cores c

/-- Replace a core's own state. -/
def State.setCoreS (s : State) (c : Nat) (x : CoreS) : State :=
  s.modDie fun d => { d with cores := sset CoreS.empty d.cores c x }

/-- A byte of CLAT (Table 10.3). -/
def LatEntry.code (e : LatEntry) : Nat :=
  (match e.own with | some o => 0x80 + 8 * (o % 8) | none => 0) + (match e.pend with | some p => 0x40 + p % 8 | none => 0)

/-- CLAT (Table 10.3): group g at bits [8g+7:8g]. -/
def CoreS.clat (c : CoreS) : Nat := c.lat.foldr (fun e r => e.code + 256 * r) 0

/-- TPRV (Table 1.9). -/
def Strand.tprv (t : Strand) : Nat :=
  (if t.trap.hold then 0x100 else 0) + 16 * t.priv.code + t.trap.pprv.code

/-- LGRANT (Table 1.6); it reads zero without a lease (R20). -/
def Strand.lgrant (t : Strand) : Nat :=
  if t.ctx.leased then 64 * (t.id.prefG - 1) + 16 * (t.id.minG - 1) + t.ctx.gm.toNat else 0

/-- TSHAPE (Table 1.7). -/
def Strand.tshape (t : Strand) : Nat :=
  if t.ctx.leased then t.ctx.k * 2 ^ 16 + 64 * 2 ^ 8 + 16 * t.ctx.k else 0

/-- What a CSR reads (Table 1.3). -/
def State.csrRead (s : State) (n : Nat) : Word :=
  let t := s.me
  match n with
  | 0x000 => t.fcsr.zeroExtend 64
  | 0x010 => BitVec.ofNat 64 t.ctx.vl
  | 0x011 => t.ctx.vmc.zeroExtend 64
  | 0x012 => BitVec.ofNat 64 t.ctx.vstart
  | 0x100 => t.trap.stvec
  | 0x101 => t.trap.sscratch
  | 0x140 => t.trap.tcause.zeroExtend 64
  | 0x141 => t.trap.tpc
  | 0x142 => t.trap.tval
  | 0x143 => t.trap.telem
  | 0x144 => t.trap.tidx3.zeroExtend 64
  | 0x145 => BitVec.ofNat 64 t.tprv
  | 0x180 => t.xasid.zeroExtend 64
  | 0x300 => t.trap.ftvec
  | 0x301 => t.trap.fscratch
  | 0x380 => BitVec.ofNat 64 (s.coreS s.core).clat
  | 0x381 => BitVec.ofNat 64 ((s.coreS s.core).wdog.toNat * 2 ^ 16 + (s.coreS s.core).rgwin.toNat)
  | 0x382 => t.fxsel.zeroExtend 64
  | 0xC00 => BitVec.ofNat 64 s.die.dtime
  | 0xC01 => t.id.job.zeroExtend 64
  | 0xC10 => BitVec.ofNat 64 t.ctx.vlmax
  | 0xC11 => BitVec.ofNat 64 t.tshape
  | 0xC12 => BitVec.ofNat 64 t.lgrant
  | 0xC13 => BitVec.ofNat 64 t.ctx.strip
  | 0xC14 => BitVec.ofNat 64 t.ctx.stripn
  | n =>
    if 0xC20 ≤ n ∧ n < 0xC40 then (sget 0 t.ctx.pix (n - 0xC20)).zeroExtend 64
    else if 0x040 ≤ n ∧ n < 0x050 then BitVec.ofNat 64 (t.domSlot (n - 0x040))
    else 0

/-- Change the issuing strand's trap CSRs. -/
def State.modTrap (s : State) (f : Trap → Trap) : State := s.modMe fun t => { t with trap := f t.trap }

/-- Change the issuing strand's vector context. -/
def State.modCtx (s : State) (f : VCtx → VCtx) : State := s.modMe fun t => { t with ctx := f t.ctx }

/-- A write to TPRV (Table 1.9): HOLD and PPRV; a write of 0 to HOLD clears it (R201). -/
def Trap.writeTprv (t : Trap) (v : Nat) : Trap := { t with hold := bits v 8 8 == 1, pprv := Priv.ofCode (bits v 1 0) }

/-- What a write to a CSR does: a fault code, or the state (R20, R22, R24, R209, R292, R336). Only writable numbers come here. -/
def State.csrWrite (s : State) (n : Nat) (w : Word) : Except Nat State :=
  let v := w.toNat
  if csrVector n && !s.me.ctx.leased then .error 0x01
  else match n with
  | 0x000 => .ok (s.modMe (·.writeFcsr v))
  | 0x010 => .ok (s.modCtx (·.setVl v))
  | 0x011 => .ok (s.modCtx (·.setVmc v))
  | 0x012 => .ok (s.modCtx fun c => { c with vstart := v })
  | 0x100 => .ok (s.modTrap fun t => { t with stvec := w &&& ~~~3 })
  | 0x101 => .ok (s.modTrap fun t => { t with sscratch := w })
  | 0x140 => .ok (s.modTrap fun t => { t with tcause := w.truncate 9 })
  | 0x141 => .ok (s.modTrap fun t => { t with tpc := w })
  | 0x142 => .ok (s.modTrap fun t => { t with tval := w })
  | 0x143 => .ok (s.modTrap fun t => { t with telem := w })
  | 0x144 => .ok (s.modTrap fun t => { t with tidx3 := w.truncate 63 })
  | 0x145 => .ok (s.modTrap (·.writeTprv v))
  | 0x180 => .ok (s.modMe fun t => { t with xasid := w.truncate 16 })
  | 0x300 => .ok (s.modTrap fun t => { t with ftvec := w &&& ~~~3 })
  | 0x301 => .ok (s.modTrap fun t => { t with fscratch := w })
  | 0x381 =>
    .ok (s.setCoreS s.core { s.coreS s.core with wdog := BitVec.ofNat 16 (bits v 31 16), rgwin := BitVec.ofNat 16 (bits v 15 0) })
  | 0x382 => .ok (s.modMe fun t => { t with fxsel := w.truncate 9 })
  | n => if 0x040 ≤ n ∧ n < 0x050 then s.domWrite s.meId (n - 0x040) v else .ok s

/-- The checks of R19, in their order: a fault code, or none. -/
def State.csrFault (s : State) (n : Nat) (writes : Bool) : Option Nat :=
  if s.me.priv.code < csrPriv n then some 0x02
  else if !csrAllocated n then some 0x01
  else if csrReadOnly n && writes then some 0x01
  else none

/-- A CSR instruction (R100): checks, then the write of `new old` where there is one, then rd := old. A faulting one changes no state. -/
def State.csrOp (s : State) (d : Fin 32) (n word : Nat) (new : Option (Word → Word)) : Out :=
  match s.csrFault n new.isSome with
  | some c => ok (s.illegal c word)
  | none =>
    let old := s.csrRead n
    match new with
    | none => ok (s.writeRetire d old)
    | some f =>
      match s.csrWrite n (f old) with
      | .error c => ok (s.illegal c word)
      | .ok s => ok (s.writeRetire d old)

def execCsrr (d : Fin 32) (c : Fin 4096) (s : State) : Out := s.csrOp d c.val (encode (.csrr d c)) none
/-- CSRW writes no register. -/
def execCsrw (a : Fin 32) (c : Fin 4096) (s : State) : Out :=
  s.csrOp 0 c.val (encode (.csrw a c)) (some fun _ => s.reg a)
/-- CSRSET and CSRCLR with source `s0` only read (R19, R100). -/
def execCsrset (d a : Fin 32) (c : Fin 4096) (s : State) : Out :=
  s.csrOp d c.val (encode (.csrset d a c)) (if a = 0 then none else some fun old => old ||| s.reg a)
def execCsrclr (d a : Fin 32) (c : Fin 4096) (s : State) : Out :=
  s.csrOp d c.val (encode (.csrclr d a c)) (if a = 0 then none else some fun old => old &&& ~~~s.reg a)
/-- CSRSWAP writes even when rd is `s0` (R100). -/
def execCsrswap (d a : Fin 32) (c : Fin 4096) (s : State) : Out :=
  s.csrOp d c.val (encode (.csrswap d a c)) (some fun _ => s.reg a)

/-! ### CSR writes as steps of their own (R21, R22, R24, R201, R292, R336) -/

/-- Act on another strand as the issuing one, and come back. -/
def State.at (s : State) (i : Nat) (f : State → State) : State := (f (s.focus i)).focus s.meId

/-- A write by strand `i` that takes effect where it is allowed. -/
def State.csrWriteAt (s : State) (i n v : Nat) : State :=
  s.at i fun s => match s.csrWrite n (BitVec.ofNat 64 v) with
    | .ok s => s
    | .error _ => s

def execVlWrite (strand value : Nat) (s : State) : Out := ok (s.csrWriteAt strand 0x010 value)
def execVmcWrite (strand value : Nat) (s : State) : Out := ok (s.csrWriteAt strand 0x011 value)
def execFcsrWrite (strand value : Nat) (s : State) : Out := ok (s.csrWriteAt strand 0x000 value)
/-- A write of 0 to TPRV.HOLD (R201): the other fields keep their values. -/
def execTprvHoldClear (strand : Nat) (s : State) : Out :=
  ok (s.modStrand strand fun t => { t with trap := { t.trap with hold := false } })
/-- A write of XASID waits until the vector queue is empty and every earlier access has been translated (R336). -/
def execXasidWrite (strand value : Nat) (s : State) : Out :=
  ok (if (s.strand strand).ctx.busy || s.die.walks.any fun e => e.1 == strand then s else s.csrWriteAt strand 0x180 value)
/-- A join that faults changes nothing here; as an instruction it traps (R292). -/
def execDomJoin (strand slot value : Nat) (s : State) : Out :=
  ok (match s.domJoin strand (slot % 16) (value / 2 * 2 + 1) with
    | .ok s => s
    | .error _ => s)
def execDomLeave (strand slot : Nat) (s : State) : Out := ok (s.domLeave strand (slot % 16))
def execBarrierCounterError (level unit id : Nat) (s : State) : Out := ok (s.barrierError level unit id)

end Sys2Proof.Machine
end

