-- ==== Sys2Proof/Machine/Operands.lean ====
section
/-! DEFINITION. Vector operands: element tags and promotion (R30 to R32), groups, mixed layout and overlap (R27, R113, R114, R198),
elements of a group, active words (R23), and how an element-wise instruction writes its destination (R111). -/

namespace Sys2Proof.Machine

/-! ### Tags -/

/-- The tag of a code of Table 1.10; none for 15. -/
def Tag.ofCode : Nat → Option Tag
  | 0 => some .raw | 1 => some .i32 | 2 => some .ui32 | 3 => some .i16 | 4 => some .ui16 | 5 => some .i8 | 6 => some .ui8
  | 7 => some .f32 | 8 => some .bf16 | 9 => some .f16 | 10 => some .e4m3 | 11 => some .e5m2 | 12 => some .ci16 | 13 => some .cbf16
  | 14 => some .cf32
  | _ => none

/-- The code of a tag (Table 1.10). -/
def Tag.code : Tag → Nat
  | .raw => 0 | .i32 => 1 | .ui32 => 2 | .i16 => 3 | .ui16 => 4 | .i8 => 5 | .ui8 => 6 | .f32 => 7 | .bf16 => 8 | .f16 => 9
  | .e4m3 => 10 | .e5m2 => 11 | .ci16 => 12 | .cbf16 => 13 | .cf32 => 14

/-- Bits of an element: a sub-element of a packed tag, a complex element whole (Table 1.10). -/
def Tag.ebits : Tag → Nat
  | .raw | .i32 | .ui32 | .f32 | .ci16 | .cbf16 => 32
  | .i16 | .ui16 | .bf16 | .f16 => 16
  | .i8 | .ui8 | .e4m3 | .e5m2 => 8
  | .cf32 => 64

/-- Twice the elements of a word: s of R113 doubled, so that cf32 has 1. -/
def Tag.s2 (t : Tag) : Nat := 64 / t.ebits

/-- Sub-elements of a word; 1 for cf32. -/
def Tag.per (t : Tag) : Nat := if t = .cf32 then 1 else 32 / t.ebits

def Tag.isComplex : Tag → Bool
  | .ci16 | .cbf16 | .cf32 => true
  | _ => false

/-- The component type of a complex tag (R35); a real tag is its own. -/
def Tag.comp : Tag → Tag
  | .ci16 => .i16
  | .cbf16 => .bf16
  | .cf32 => .f32
  | t => t

/-- A real integer tag. -/
def Tag.isInt : Tag → Bool
  | .i32 | .ui32 | .i16 | .ui16 | .i8 | .ui8 => true
  | _ => false

/-- A signed integer tag. -/
def Tag.isSigned : Tag → Bool
  | .i32 | .i16 | .i8 => true
  | _ => false

/-- The format of a real floating-point tag. -/
def Tag.fmt : Tag → Option Fmt
  | .f32 => some .f32 | .bf16 => some .bf16 | .f16 => some .f16 | .e4m3 => some .e4m3 | .e5m2 => some .e5m2
  | _ => none

/-- A real floating-point tag. -/
def Tag.isFloat (t : Tag) : Bool := t.fmt.isSome

/-- The integer tag of a signedness and width. -/
def Tag.intOf (signed : Bool) (w : Nat) : Tag :=
  if signed then (if w = 8 then .i8 else if w = 16 then .i16 else .i32)
  else if w = 8 then .ui8 else if w = 16 then .ui16 else .ui32

/-- Tag promotion: the first matching row of Table 1.11; none where it gives "fault". -/
def Tag.promote (a b : Tag) : Option Tag :=
  if a = .raw then some b
  else if b = .raw ∨ a = b then some a
  else if a.isInt && b.isInt then
    if a.isSigned = b.isSigned then some (if a.ebits ≥ b.ebits then a else b)
    else
      let ws := if a.isSigned then a.ebits else b.ebits
      let wu := if a.isSigned then b.ebits else a.ebits
      some (Tag.intOf true (Nat.min 32 (Nat.max ws (2 * wu))))
  else if a.isComplex && b.isComplex then some .cf32
  else if a.isComplex || b.isComplex then none
  else if a.isInt || b.isInt then some .f32
  else if a = .f32 ∨ b = .f32 then some .f32
  else if (a = .bf16 ∧ b = .f16) ∨ (a = .f16 ∧ b = .bf16) then some .f32
  else if a = .bf16 ∨ b = .bf16 then some .bf16
  else some .f16

/-- A raw source counts as the promoted type (R32). -/
def Tag.orPromoted (t : Tag) (p : Option Tag) : Tag :=
  match t, p with
  | .raw, some q => q
  | t, _ => t

/-! ### Words and elements of a group -/

/-- Word `n` of the group at register `r` (R27). -/
def VCtx.word (c : VCtx) (r n : Nat) : Nat := (sget 0 c.v (256 * (r + n / c.vlmax) + n % c.vlmax)).toNat

/-- Write word `n` of the group at register `r`. -/
def VCtx.setWord (c : VCtx) (r n x : Nat) : VCtx :=
  { c with v := sset 0 c.v (256 * (r + n / c.vlmax) + n % c.vlmax) (BitVec.ofNat 32 x) }

/-- Element `e` of a group in a tag's layout: re in the low half for a complex tag (Table 1.10, R113). -/
def VCtx.elem (c : VCtx) (r : Nat) (t : Tag) (e : Nat) : Nat :=
  if t = .cf32 then c.word r (2 * e) + 2 ^ 32 * c.word r (2 * e + 1)
  else bits (c.word r (e / t.per)) (t.ebits * (e % t.per) + t.ebits - 1) (t.ebits * (e % t.per))

/-- Write element `e` of a group in a tag's layout. -/
def VCtx.setElem (c : VCtx) (r : Nat) (t : Tag) (e x : Nat) : VCtx :=
  if t = .cf32 then (c.setWord r (2 * e) x).setWord r (2 * e + 1) (x / 2 ^ 32)
  else
    c.setWord r (e / t.per)
      (putBits (c.word r (e / t.per)) (t.ebits * (e % t.per) + t.ebits - 1) (t.ebits * (e % t.per)) x)

/-- The tag of the group at register `r`: its lowest register's (R27). -/
def VCtx.tag (c : VCtx) (r : Nat) : Tag := sget .raw c.tags r

/-- Set the tags of `n` registers (R27). -/
def VCtx.setTags (c : VCtx) (r n : Nat) (t : Tag) : VCtx := { c with tags := ssetAll .raw c.tags r (List.replicate n t) }

/-- The components of an element: re and im of a complex one, else the element. -/
def Tag.split (t : Tag) (x : Nat) : List Nat :=
  if t.isComplex then [x % 2 ^ (t.ebits / 2), x / 2 ^ (t.ebits / 2) % 2 ^ (t.ebits / 2)] else [x]

/-- Join the components of an element. -/
def Tag.join (t : Tag) : List Nat → Nat
  | [] => 0
  | [x] => x
  | re :: im :: _ => re % 2 ^ (t.ebits / 2) + 2 ^ (t.ebits / 2) * (im % 2 ^ (t.ebits / 2))

/-! ### Masks -/

/-- Bit `n` of mask register `m`. -/
def VCtx.mbit (c : VCtx) (m n : Nat) : Bool := (sget 0 c.masks m).getLsbD n

/-- Write bits of a mask register: the pairs of `ws`, later ones over earlier ones. -/
def VCtx.setMask (c : VCtx) (m : Nat) (ws : List (Nat × Bool)) : VCtx :=
  { c with masks := sset 0 c.masks m (ws.foldl (fun x w =>
      if w.2 then x ||| BitVec.twoPow 2048 w.1 else x &&& ~~~BitVec.twoPow 2048 w.1) (sget 0 c.masks m)) }

/-- The mask condition of R23 for the bit that governs a unit. -/
def VCtx.maskOn (c : VCtx) (n : Nat) : Bool := !c.me || xor (c.mbit 0 n) c.mp

/-- `active(n)` of R23. -/
def VCtx.active (c : VCtx) (n : Nat) : Bool := decide (c.vstart ≤ n) && decide (n < c.vl) && c.maskOn n

/-- The unit of an operation, a word or a complex element of two words (R31): words in a unit. -/
def unitWords (half : Bool) : Nat := if half then 2 else 1

/-- The units from VSTART to VL (R23, R31). -/
def VCtx.units (c : VCtx) (half : Bool) : List Nat :=
  let m := unitWords half
  (List.range (c.vl / m - c.vstart / m)).map (c.vstart / m + ·)

/-- A unit is active, VSTART aside: mask bit 2n governs complex element n of cf32 (R31). -/
def VCtx.unitOn (c : VCtx) (half : Bool) (u : Nat) : Bool := c.maskOn (unitWords half * u)

/-! ### Group, overlap and layout checks -/

/-- A register operand: its first register, the registers it spans. -/
structure Span where
  reg : Nat
  size : Nat
  deriving DecidableEq, Repr

/-- The group check, code 0x22 (R27, R113): a multiple of a size of at most 8. -/
def Span.groupOk (p : Span) : Bool := decide (p.size ≤ 8) && p.reg % p.size == 0

/-- Two operands share a register (R114). -/
def Span.overlaps (p q : Span) : Bool := decide (p.reg < q.reg + q.size) && decide (q.reg < p.reg + p.size)

/-- The group and overlap checks of R198 in their order: all group checks, then all overlap checks of the destination with a source.
`exact` says that an exact overlap of equal groups is legal (R114). -/
def spanFault (exact : Bool) (dest : Option Span) (srcs : List Span) : Option Nat :=
  if !(dest.toList ++ srcs).all Span.groupOk then some 0x22
  else match dest with
    | none => none
    | some d => if srcs.any fun p => d.overlaps p && !(exact && decide (p = d)) then some 0x21 else none

/-- How the elements of an instruction lie: units are complex elements of two words, elements a unit, and the size of each operand. -/
structure Layout where
  half : Bool
  per : Nat
  sizes : List Nat
  mixed : Bool
  deriving DecidableEq, Repr

/-- The layout of operands with these tags (R113): s_n is the largest s, and an operand with s < s_n spans G·s_n/s registers. -/
def layoutOf (g : Nat) (tags : List Tag) : Layout :=
  let sn := tags.foldl (fun m t => Nat.max m t.s2) 0
  let mixed := tags.any fun t => t.s2 ≠ sn
  ⟨!mixed && sn == 1, Nat.max 1 (sn / 2), tags.map fun t => g * sn / t.s2, mixed⟩

/-- The spans of registers with the sizes of a layout. -/
def spansOf (regs sizes : List Nat) : List Span := (regs.zip sizes).map fun p => ⟨p.1, p.2⟩

/-- Check an instruction whose operands are registers with tags, the first one the destination where `hasDest`: a fault code, or the
layout. -/
def checkLayout (g : Nat) (hasDest : Bool) (ops : List (Nat × Tag)) : Except Nat Layout :=
  let l := layoutOf g (ops.map Prod.snd)
  let spans := spansOf (ops.map Prod.fst) l.sizes
  let f := if hasDest then spanFault (!l.mixed) spans.head? (spans.drop 1) else spanFault true none spans
  match f with
  | some c => .error c
  | none => .ok l

/-- Turn a condition into a fault code. -/
def failIf (b : Bool) (code : Nat) : Except Nat Unit := if b then .error code else .ok ()

/-! ### Writing a destination -/

/-- Fold writes of elements into a group. -/
def VCtx.writeElems (c : VCtx) (r : Nat) (t : Tag) (ws : List (Nat × Nat)) : VCtx :=
  ws.foldl (fun c w => c.setElem r t w.1 w.2) c

/-- Zero the words from `a` to `b` − 1 of a group. -/
def VCtx.zeroWords (c : VCtx) (r a b : Nat) : VCtx :=
  (List.range (b - a)).foldl (fun c i => c.setWord r (a + i) 0) c

/-- A destination of an element-wise instruction. -/
structure Dest where
  reg : Nat
  /-- Registers it spans. -/
  size : Nat
  /-- The layout its elements are written in. -/
  lay : Tag
  /-- The tag it takes. -/
  tag : Tag
  half : Bool
  /-- Elements a unit. -/
  per : Nat
  /-- ME and IPOL play no part (R134). -/
  every : Bool := false
  deriving DecidableEq, Repr

/-- The elements of a unit. -/
def Dest.elems (d : Dest) (u : Nat) : List Nat := (List.range d.per).map (d.per * u + ·)

/-- The first word of the tail (R23, R31, R113). -/
def Dest.tailFrom (d : Dest) (vl : Nat) : Nat :=
  let e := d.per * (vl / unitWords d.half)
  if d.lay = .cf32 then 2 * e else (e + d.lay.per - 1) / d.lay.per

/-- What an instruction writes in one destination of `base`: `f e` gives element e and its flags. Inactive elements below VL follow IPOL
and the tail follows TPOL; with VSTART at or beyond VL no word is written (R23, R111). The controls, masks and sources are those of `c`. -/
def VCtx.elementInto (c base : VCtx) (d : Dest) (f : Nat → Nat × Flags) : VCtx × Flags :=
  let x := base.setTags d.reg d.size d.tag
  if c.vl ≤ c.vstart then (x, 0)
  else
    let us := c.units d.half
    let on := us.filter fun u => d.every || c.unitOn d.half u
    let off := us.filter fun u => !(d.every || c.unitOn d.half u)
    let res := on.flatMap fun u => (d.elems u).map fun e => (e, f e)
    let x := x.writeElems d.reg d.lay (res.map fun r => (r.1, r.2.1))
    let x := if c.ipol then x.writeElems d.reg d.lay (off.flatMap fun u => (d.elems u).map fun e => (e, 0)) else x
    let x := if c.tpol then x.zeroWords d.reg (d.tailFrom c.vl) (d.size * c.vlmax) else x
    (x, (res.map fun r => r.2.2).foldl (· ||| ·) 0)

/-- What an element-wise instruction writes. -/
def VCtx.elementWise (c : VCtx) (d : Dest) (f : Nat → Nat × Flags) : VCtx × Flags := c.elementInto c d f

/-! ### Values of elements -/

/-- The exact integer of an element of an integer or raw component tag. -/
def Tag.int (t : Tag) (x : Nat) : Int :=
  if t.isSigned then toSigned t.ebits x else ((x % 2 ^ t.ebits : Nat) : Int)

/-- The exact value of an element of a real tag (R32). -/
def Tag.value (t : Tag) (x : Nat) : FV :=
  match t.fmt with
  | some f => FV.ofBits f x
  | none => FV.ofInt (t.int x)

/-- The range of an integer tag. -/
def Tag.lo (t : Tag) : Int := if t.isSigned then -(2 ^ (t.ebits - 1) : Nat) else 0
def Tag.hi (t : Tag) : Int := if t.isSigned then (2 ^ (t.ebits - 1) : Nat) - 1 else (2 ^ t.ebits : Nat) - 1

/-- The rounding controls of an instruction: the effective mode and FCSR.SAT8. -/
structure Rnd where
  mode : Mode
  sat8 : Bool
  deriving DecidableEq, Repr

/-- The rounding controls of a vector instruction (R24, R39). -/
def State.rnd (s : State) (rz : Bool) : Rnd := ⟨s.me.vectorMode rz, s.me.sat8⟩

/-- Round an exact value once into a real tag: a format (R39, R41), or an integer tag in the effective mode (R40). -/
def Rnd.into (r : Rnd) (t : Tag) (x : FV) : Nat × Flags :=
  match t.fmt with
  | some f => x.round f r.mode r.sat8
  | none => let (i, fl) := x.toInt r.mode t.lo t.hi; (wrapBits t.ebits i, fl)

/-- Convert a component of one real tag to another (R40, R41, R112); `sat` is the saturating integer conversion of R131 and R132. -/
def Rnd.convert (r : Rnd) (sat : Bool) (ft tt : Tag) (x : Nat) : Nat × Flags :=
  if ft = .raw ∨ tt = .raw then (x, 0)
  else match ft.fmt, tt.fmt with
    | none, none => (wrapBits tt.ebits (if sat then clampInt tt.lo tt.hi (ft.int x) else ft.int x), 0)
    | some f, _ =>
      let v := FV.ofBits f x
      let (b, fl) := r.into tt v
      (b, fl ||| v.sigFlag)
    | none, _ => r.into tt (ft.value x)

/-- Convert an element, a complex one component by component (R112, R132). -/
def Rnd.convertElem (r : Rnd) (sat : Bool) (ft tt : Tag) (x : Nat) : Nat × Flags :=
  if ft.isComplex && tt.isComplex then
    let rs := (ft.split x).map (r.convert sat ft.comp tt.comp)
    (tt.join (rs.map Prod.fst), (rs.map Prod.snd).foldl (· ||| ·) 0)
  else r.convert sat ft tt x

/-! ### Scalar operands -/

/-- A VOPS operand in a tag: the lowest sub-element for a packed tag, re and im for cf32, else bits [31:0] (R31). -/
def scalarElem (t : Tag) (w : Word) : Nat := w.toNat % 2 ^ t.ebits

/-- A second operand: a vector register or a scalar value. -/
inductive Src where
  | vec (reg : Nat)
  | scalar (w : Word)
  deriving DecidableEq, Repr

/-- Element `e` of an operand in a layout. -/
def VCtx.srcElem (c : VCtx) (s : Src) (t : Tag) (e : Nat) : Nat :=
  match s with
  | .vec r => c.elem r t e
  | .scalar w => scalarElem t w

/-- The tag of an operand: a scalar takes that of the vector operand (R31). -/
def VCtx.srcTag (c : VCtx) (s : Src) (ta : Tag) : Tag :=
  match s with
  | .vec r => c.tag r
  | .scalar _ => ta

/-- An operand in the list of registers to check. -/
def Src.op (s : Src) (t : Tag) : List (Nat × Tag) :=
  match s with
  | .vec r => [(r, t)]
  | .scalar _ => []

/-! ### Vector instructions as a whole -/

/-- A vector instruction that ends in this step: without a lease code 0x01 (R57 check 5); a fault changes no state; otherwise it
retires with `VSTART` := 0 (R23). -/
def State.vector (s : State) (word : Nat) (f : State → Except TrapVals State) : Out :=
  if !s.me.ctx.leased then ok (s.illegal 0x01 word)
  else match f s with
    | .error v => ok (s.trapWith v)
    | .ok t => ok (t.modCtx fun c => { c with vstart := 0 }).retire

/-- A decode fault of a vector instruction (R57 check 7). -/
def decodeFault (word : Nat) (x : Except Nat State) : Except TrapVals State :=
  match x with
  | .error c => .error { code := c, tval := BitVec.ofNat 64 word }
  | .ok s => .ok s

/-- A vector instruction that can fault only at decode. -/
def State.vectorD (s : State) (word : Nat) (f : State → Except Nat State) : Out :=
  s.vector word fun s => decodeFault word (f s)

/-- Replace the context and OR the flags of the active words into FCSR (R24). -/
def State.putCtx (s : State) (r : VCtx × Flags) : State := (s.modCtx fun _ => r.1).raise r.2

/-- The 0x20 of a real result into a complex destination, or the reverse (R112). -/
def realMismatch (p d : Tag) : Bool := p.isComplex != d.isComplex

end Sys2Proof.Machine
end

