-- ==== Sys2Proof/Machine/Lanes.lean ====
section
/-! DEFINITION. The lane allocation table (R208 to R216): grants, reservations, grows, and the change of a context's block. -/

namespace Sys2Proof.Machine

/-- Change a core's own state. -/
def State.modCoreS (s : State) (c : Nat) (f : CoreS → CoreS) : State := s.setCoreS c (f (s.coreS c))

/-! ### Blocks -/

/-- Entries of the table with their lane groups. -/
def CoreS.entries (c : CoreS) : List (Nat × LatEntry) := (List.range 4).zip c.lat

/-- The groups that a strand owns, a bit each. -/
def CoreS.owned (c : CoreS) (strand : Nat) : BitVec 4 :=
  c.entries.foldl (fun b e => if e.2.own = some strand then b ||| BitVec.twoPow 4 e.1 else b) 0

/-- The groups of an aligned block. -/
def blockMask (start size : Nat) : BitVec 4 := BitVec.ofNat 4 ((2 ^ size - 1) * 2 ^ start)

/-- The aligned blocks of a size, lowest first (R208). -/
def blocksOfSize (size : Nat) : List Nat := (List.range (4 / size)).map (· * size)

/-- The groups that a reservation holds. -/
def CoreS.reserved (c : CoreS) : BitVec 4 := c.reservations.foldl (fun b r => b ||| r.groups) 0

/-- The groups that no strand owns and no reservation holds. -/
def CoreS.freeGroups (c : CoreS) : BitVec 4 :=
  c.entries.foldl (fun b e => if e.2.own = none then b ||| BitVec.twoPow 4 e.1 else b) 0 &&& ~~~c.reserved

/-- A set of groups lies in another. -/
def groupsIn (a b : BitVec 4) : Bool := a &&& b == a

/-- Change the entries of a set of groups. -/
def CoreS.modGroups (c : CoreS) (g : BitVec 4) (f : LatEntry → LatEntry) : CoreS :=
  { c with lat := c.entries.map fun e => if g.getLsbD e.1 then f e.2 else e.2 }

/-- Withdraw the grow of a strand: its pending change of groups that nobody owns (R212). -/
def CoreS.withdrawGrow (c : CoreS) (strand : Nat) : CoreS :=
  { c with lat := c.lat.map fun e => if e.own = none ∧ e.pend = some strand then { e with pend := none } else e }

/-- The strands with a grow to some of these groups. -/
def CoreS.growsIn (c : CoreS) (g : BitVec 4) : List Nat :=
  c.entries.filterMap fun e => if g.getLsbD e.1 && e.2.own.isNone then e.2.pend else none

/-- Withdraw the grows that a dispatch or a resume needs the groups of (R212). -/
def CoreS.withdrawGrows (c : CoreS) (g : BitVec 4) : CoreS := (c.growsIn g).foldl CoreS.withdrawGrow c

/-- A grant of R210: the largest k of 4, 2 and 1 from `minG` to `prefG` with a free aligned block, the lowest such block. -/
def CoreS.findGrant (c : CoreS) (minG prefG : Nat) : Option (BitVec 4) :=
  [4, 2, 1].findSome? fun k =>
    if minG ≤ k ∧ k ≤ prefG then
      ((blocksOfSize k).find? fun b => groupsIn (blockMask b k) c.freeGroups).map fun b => blockMask b k
    else none

/-- Give groups to a strand. -/
def CoreS.give (c : CoreS) (strand : Nat) (g : BitVec 4) : CoreS :=
  (c.withdrawGrows g).modGroups g fun _ => ⟨some strand, none⟩

/-- Free every group of a strand (R210); its pending changes go with them. -/
def CoreS.release (c : CoreS) (strand : Nat) : CoreS :=
  { c.withdrawGrow strand with lat := (c.withdrawGrow strand).lat.map fun e => if e.own = some strand then ⟨none, none⟩ else e }

/-! ### Reservations -/

/-- The first group and size of the block that a strand owns. -/
def CoreS.blockOf (c : CoreS) (strand : Nat) : Nat × Nat :=
  let g := c.owned strand
  (((List.range 4).find? fun i => g.getLsbD i).getD 0, (List.range 4).countP fun i => g.getLsbD i)

/-- Halve a block, keeping its lower half, until it leaves `b`: the groups kept and the halvings, or none where it would fall below
the owner's minimum (R211). -/
def shrinkTo (b : BitVec 4) (minG start : Nat) : Nat → Nat → Option (BitVec 4 × Nat)
  | 0, _ => none
  | fuel + 1, size =>
    if blockMask start size &&& b = 0 then some (blockMask start size, 0)
    else if size / 2 < minG ∨ size < 2 then none
    else (shrinkTo b minG start fuel (size / 2)).map fun r => (r.1, r.2 + 1)

/-- The owners in a block. -/
def CoreS.ownersIn (c : CoreS) (b : BitVec 4) : List Nat :=
  (c.entries.filterMap fun e => if b.getLsbD e.1 then e.2.own else none).eraseDups

/-- The halvings that block `b` needs in all, or none where an owner cannot shrink far enough (R211). -/
def CoreS.halvings (c : CoreS) (minOf : Nat → Nat) (b : BitVec 4) : Option Nat :=
  (c.ownersIn b).foldl (fun acc o =>
    match acc, shrinkTo b (minOf o) (c.blockOf o).1 4 (c.blockOf o).2 with
    | some n, some r => some (n + r.2)
    | _, _ => none) (some 0)

/-- The block that a reservation takes: the fewest halvings, then the lowest first group (R211). -/
def CoreS.reserveBlock (c : CoreS) (minOf : Nat → Nat) (size : Nat) : Option (BitVec 4) :=
  ((blocksOfSize size).foldl (fun best s =>
    let b := blockMask s size
    if c.reserved &&& b ≠ 0 then best
    else match c.halvings minOf b, best with
      | none, best => best
      | some n, none => some (n, b)
      | some n, some m => if n < m.1 then some (n, b) else some m) none).map Prod.snd

/-- Mark the shrinks of a block for the strand that will receive it (R211). -/
def CoreS.markShrinks (c : CoreS) (minOf : Nat → Nat) (b : BitVec 4) (strand : Nat) : CoreS :=
  (c.ownersIn b).foldl (fun x o =>
    match shrinkTo b (minOf o) (c.blockOf o).1 4 (c.blockOf o).2 with
    | some r => x.modGroups (c.owned o &&& ~~~r.1) fun e => { e with pend := some strand }
    | none => x) c

/-- The minimum of a strand's job. -/
def State.minOf (s : State) (i : Nat) : Nat := (s.strand i).id.minG

/-- Reserve a block for a dispatch to `strand` (R211): the state with the reservation, or none where no owner can shrink far enough. -/
def State.reserve (s : State) (strand job minG : Nat) (msg : Option Msg) : Option State :=
  let core := strand / 8
  let c := s.coreS core
  (if c.rgwin = 0 then none else c.reserveBlock s.minOf minG).map fun b =>
    let c := (c.withdrawGrows b).markShrinks s.minOf b strand
    s.setCoreS core { c with reservations := c.reservations ++ [⟨strand, job, msg, b, s.die.dtime, c.rgwin.toNat⟩] }

/-- Every shrink of a reservation has taken effect (R211). -/
def CoreS.ready (c : CoreS) (r : Reservation) : Bool :=
  c.entries.all fun e => !r.groups.getLsbD e.1 || e.2.own == none || e.2.own == some r.strand

/-- Withdraw a reservation: its shrinks that were not taken, and the groups released to it (R211). -/
def CoreS.dropReservation (c : CoreS) (r : Reservation) : CoreS :=
  { c with
    reservations := c.reservations.filter (· ≠ r)
    lat := c.lat.map fun e =>
      if e.own = some r.strand then ⟨none, none⟩ else if e.pend = some r.strand then { e with pend := none } else e }

/-! ### Grows -/

/-- The buddy block of R212: with the strand's own it forms the aligned block of twice the size. -/
def CoreS.buddy (c : CoreS) (strand : Nat) : BitVec 4 :=
  let (b, k) := c.blockOf strand
  if k = 0 ∨ k = 4 then 0 else blockMask (if b / k % 2 = 0 then b + k else b - k) k

/-- Offer a grow (R212): the lowest strand below its preference whose buddy block is free. -/
def State.growOffer (s : State) (core : Nat) : State :=
  let c := s.coreS core
  if c.reservations ≠ [] ∨ (c.lat.any fun e => e.pend ≠ none) then s
  else
    match (List.range 8).find? fun j =>
      let i := 8 * core + j
      decide ((c.blockOf i).2 ≠ 0 ∧ (c.blockOf i).2 < (s.strand i).id.prefG) && c.buddy i != 0 && groupsIn (c.buddy i) c.freeGroups with
    | some j => s.setCoreS core (c.modGroups (c.buddy (8 * core + j)) fun e => { e with pend := some (8 * core + j) })
    | none => s

/-! ### The change of a context's block -/

/-- The context's data in a block of another size (R214 step 3, R233). -/
def VCtx.regrant (c : VCtx) (gm : BitVec 4) : VCtx :=
  let d := { c with gm := gm }
  let k := Nat.min c.k d.k
  let low : BitVec 2048 := BitVec.ofNat 2048 (2 ^ (64 * k) - 1)
  { d with
    v := sfilter (fun n => n % 256 < 64 * k) c.v
    tiles := sfilter (fun n => n % 4096 < 64 * (16 * k)) c.tiles
    masks := c.masks.foldl (fun m e => sset 0 m e.1 (e.2 &&& low)) []
    mf := c.mf &&& low
    mfc := sfilter (· < 64 * k) c.mfc }

/-- A strand has a pending change: a shrink of its groups or a grow (R211, R212). -/
def CoreS.pending (c : CoreS) (strand : Nat) : Bool :=
  c.lat.any fun e => (e.own == some strand && e.pend != none) || (e.own == none && e.pend == some strand)

/-- The groups that a reservation waits for. -/
def CoreS.awaited (c : CoreS) (strand : Nat) : BitVec 4 :=
  c.reservations.foldl (fun b r => if r.strand = strand then b ||| r.groups else b) 0

/-- The table after a strand takes its pending change: released groups pass to the reserving strand, those outside its block become free
(R214 step 4). -/
def CoreS.take (c : CoreS) (strand : Nat) : CoreS :=
  { c with lat := c.entries.map fun e =>
      if e.2.own = some strand then
        match e.2.pend with
        | some p => if (c.awaited p).getLsbD e.1 then ⟨some p, none⟩ else ⟨none, none⟩
        | none => e.2
      else if e.2.own = none ∧ e.2.pend = some strand then ⟨some strand, none⟩
      else e.2 }

/-- Take the pending change of a strand, where R214 step 1 lets it. -/
def State.laneChange (s : State) (i : Nat) : State :=
  let t := s.strand i
  let c := s.coreS (i / 8)
  if !t.ctx.leased || t.ctx.vstart ≠ 0 || t.ctx.fork.n ≠ 0 || !c.pending i then s
  else
    let c := c.take i
    (s.setCoreS (i / 8) c).setStrand i { t with ctx := t.ctx.regrant (c.owned i) }

/-- Withdraw the pending changes of a strand (R216). -/
def State.withdrawChanges (s : State) (i : Nat) : State :=
  s.modCoreS (i / 8) fun c =>
    { c with lat := c.lat.map fun e => if e.own = some i ∨ (e.own = none ∧ e.pend = some i) then { e with pend := none } else e }

/-- The next generation of a strand (R261): one on, past every value that the absent-context table holds for it. -/
def CoreS.nextGen (c : CoreS) (j : Nat) : Nat :=
  go 65 ((sget 0 c.gens j + 1) % 65536)
where
  /-- Skip the values that are held. -/
  go : Nat → Nat → Nat
    | 0, g => g
    | fuel + 1, g => if c.absent.any fun a => a.strand == j && a.gen == g then go fuel ((g + 1) % 65536) else g

/-- Free a strand's groups and end its context (R210). -/
def State.freeLanes (s : State) (i : Nat) : State :=
  (s.modCoreS (i / 8) (·.release i)).modStrand i fun t => { t with ctx := VCtx.absent }

/-- GROW_OFFER (R212). -/
def execGrowOffer (core : Nat) (s : State) : Out := ok (s.growOffer core)

end Sys2Proof.Machine
end

