-- ==== Sys2Proof/Machine/Vop.lean ====
section
/-! DEFINITION. VOP, VOPS and VFMA (R129 to R137): register arithmetic, shifts, conversion, compares, selection and fused
multiply-add. -/

namespace Sys2Proof.Machine

/-- What an element-wise instruction that passes its checks does: its destination and each element with its flags. -/
structure Plan where
  dest : Dest
  elem : Nat → Nat × Flags

/-- An element-wise instruction: its checks in the issuing strand's context, then its elements (R109, R111). -/
def State.elementWise (s : State) (word : Nat) (plan : VCtx → Except Nat Plan) : Out :=
  s.vectorD word fun s =>
    match plan s.me.ctx with
    | .error c => .error c
    | .ok p => .ok (s.putCtx (s.me.ctx.elementWise p.dest p.elem))

/-! ### Arithmetic -/

/-- The arithmetic operations of Table 5.3. -/
inductive AOp where
  | add | sub | rsub | mul | mulh | min | max | abs | neg | sadd | ssub | avg | div
  deriving DecidableEq, Repr

/-- VSADD and VSSUB saturate in the promoted type and again on conversion (R131). -/
def AOp.saturates : AOp → Bool
  | .sadd | .ssub => true
  | _ => false

/-- The promoted types that Table 5.3 gives a meaning. -/
def AOp.legal (op : AOp) (p : Tag) : Bool :=
  if p = .raw then false
  else if p.isInt then true
  else if p.isComplex then
    match op with
    | .add | .sub | .rsub | .neg => true
    | .sadd | .ssub | .avg => p == .ci16
    | _ => false
  else
    match op with
    | .mulh | .sadd | .ssub | .avg => false
    | _ => true

/-- The exact integer of an operation at width w; wrapping comes after. -/
def AOp.int (op : AOp) (t : Tag) (a b : Int) : Int :=
  match op with
  | .add => a + b
  | .sub => a - b
  | .rsub => b - a
  | .mul => a * b
  | .mulh => (a * b) / (2 ^ t.ebits : Nat)
  | .min => if b < a then b else a
  | .max => if a < b then b else a
  | .abs => a.natAbs
  | .neg => -a
  | .sadd => clampInt t.lo t.hi (a + b)
  | .ssub => clampInt t.lo t.hi (a - b)
  | .avg => (a + b + 1) / 2
  | .div => if b = 0 then -1 else Int.tdiv a b

/-- The exact value of a floating-point operation with its flags (R36 to R38, R131). -/
def AOp.flt (op : AOp) (a b : FV) : FV × Flags :=
  match op with
  | .add => sumFV [a, b]
  | .sub => sumFV [a, b.neg]
  | .rsub => sumFV [b, a.neg]
  | .mul => a.mul b
  | .min => FV.minMax false a b
  | .max => FV.minMax true a b
  | .abs => (a.abs, a.sigFlag)
  | .neg => (a.neg, a.sigFlag)
  | .div => a.div b
  | .mulh | .sadd | .ssub | .avg => (.nan false, 0)

/-- One component: computed in the promoted component type `t`, rounded or wrapped there (R112). -/
def AOp.component (op : AOp) (r : Rnd) (t la lb : Tag) (x y : Nat) : Nat × Flags :=
  if t.isInt then (wrapBits t.ebits (op.int t (la.int x) (lb.int y)), 0)
  else
    let (v, fl) := op.flt (la.value x) (lb.value y)
    let (b, f2) := r.into t v
    (b, fl ||| f2)

/-- One element: every component, then the conversion to the destination's tag (R112, R129). -/
def AOp.elem (op : AOp) (r : Rnd) (p dt la lb : Tag) (x y : Nat) : Nat × Flags :=
  let rs := ((la.split x).zip (lb.split y)).map fun q => op.component r p.comp la.comp lb.comp q.1 q.2
  let fl := (rs.map Prod.snd).foldl (· ||| ·) 0
  let (b, f2) := r.convertElem op.saturates p dt (p.join (rs.map Prod.fst))
  (b, fl ||| f2)

/-- The checks of R198 and Table 5.3 with what follows them. -/
def AOp.plan (op : AOp) (r : Rnd) (d a : Nat) (b : Src) (c : VCtx) : Except Nat Plan := do
  let ta := c.tag a
  let tb := c.srcTag b ta
  let p := ta.promote tb
  let la := ta.orPromoted p
  let lb := tb.orPromoted p
  let dt := (c.tag d).orPromoted p
  let l ← checkLayout c.g true ([(d, dt), (a, la)] ++ b.op lb)
  let pt ← p.elim (.error 0x20) .ok
  failIf (!op.legal pt || realMismatch pt dt) 0x20
  .ok ⟨⟨d, l.sizes.headD 1, dt, dt, l.half, l.per, false⟩,
    fun e => op.elem r pt dt la lb (c.elem a la e) (c.srcElem b lb e)⟩

/-- A unary operation reads va alone. -/
def AOp.plan1 (op : AOp) (r : Rnd) (d a : Nat) (c : VCtx) : Except Nat Plan := do
  let ta := c.tag a
  let dt := (c.tag d).orPromoted (some ta)
  let l ← checkLayout c.g true [(d, dt), (a, ta)]
  failIf (!op.legal ta || realMismatch ta dt) 0x20
  .ok ⟨⟨d, l.sizes.headD 1, dt, dt, l.half, l.per, false⟩,
    fun e => op.elem r ta dt ta ta (c.elem a ta e) (c.elem a ta e)⟩

/-- The second operand of a VOP. -/
def vb (b : Fin 32) : Src := .vec b.val
/-- The scalar operand of a VOPS form, read at issue (R110). -/
def State.vs (s : State) (b : Fin 32) : Src := .scalar (s.reg b)

def execVadd (d a b : Fin 32) (z : Bool) (s : State) : Out :=
  s.elementWise (encode (.vadd d a b z)) (AOp.add.plan (s.rnd z) d a (vb b))
def execVsub (d a b : Fin 32) (z : Bool) (s : State) : Out :=
  s.elementWise (encode (.vsub d a b z)) (AOp.sub.plan (s.rnd z) d a (vb b))
def execVrsub (d a b : Fin 32) (z : Bool) (s : State) : Out :=
  s.elementWise (encode (.vrsub d a b z)) (AOp.rsub.plan (s.rnd z) d a (vb b))
def execVmul (d a b : Fin 32) (z : Bool) (s : State) : Out :=
  s.elementWise (encode (.vmul d a b z)) (AOp.mul.plan (s.rnd z) d a (vb b))
def execVmulh (d a b : Fin 32) (z : Bool) (s : State) : Out :=
  s.elementWise (encode (.vmulh d a b z)) (AOp.mulh.plan (s.rnd z) d a (vb b))
def execVmin (d a b : Fin 32) (z : Bool) (s : State) : Out :=
  s.elementWise (encode (.vmin d a b z)) (AOp.min.plan (s.rnd z) d a (vb b))
def execVmax (d a b : Fin 32) (z : Bool) (s : State) : Out :=
  s.elementWise (encode (.vmax d a b z)) (AOp.max.plan (s.rnd z) d a (vb b))
def execVsadd (d a b : Fin 32) (z : Bool) (s : State) : Out :=
  s.elementWise (encode (.vsadd d a b z)) (AOp.sadd.plan (s.rnd z) d a (vb b))
def execVssub (d a b : Fin 32) (z : Bool) (s : State) : Out :=
  s.elementWise (encode (.vssub d a b z)) (AOp.ssub.plan (s.rnd z) d a (vb b))
def execVavg (d a b : Fin 32) (z : Bool) (s : State) : Out :=
  s.elementWise (encode (.vavg d a b z)) (AOp.avg.plan (s.rnd z) d a (vb b))
def execVdiv (d a b : Fin 32) (z : Bool) (s : State) : Out :=
  s.elementWise (encode (.vdiv d a b z)) (AOp.div.plan (s.rnd z) d a (vb b))
def execVaddVs (d a b : Fin 32) (z : Bool) (s : State) : Out :=
  s.elementWise (encode (.vaddVs d a b z)) (AOp.add.plan (s.rnd z) d a (s.vs b))
def execVsubVs (d a b : Fin 32) (z : Bool) (s : State) : Out :=
  s.elementWise (encode (.vsubVs d a b z)) (AOp.sub.plan (s.rnd z) d a (s.vs b))
def execVrsubVs (d a b : Fin 32) (z : Bool) (s : State) : Out :=
  s.elementWise (encode (.vrsubVs d a b z)) (AOp.rsub.plan (s.rnd z) d a (s.vs b))
def execVmulVs (d a b : Fin 32) (z : Bool) (s : State) : Out :=
  s.elementWise (encode (.vmulVs d a b z)) (AOp.mul.plan (s.rnd z) d a (s.vs b))
def execVmulhVs (d a b : Fin 32) (z : Bool) (s : State) : Out :=
  s.elementWise (encode (.vmulhVs d a b z)) (AOp.mulh.plan (s.rnd z) d a (s.vs b))
def execVminVs (d a b : Fin 32) (z : Bool) (s : State) : Out :=
  s.elementWise (encode (.vminVs d a b z)) (AOp.min.plan (s.rnd z) d a (s.vs b))
def execVmaxVs (d a b : Fin 32) (z : Bool) (s : State) : Out :=
  s.elementWise (encode (.vmaxVs d a b z)) (AOp.max.plan (s.rnd z) d a (s.vs b))
def execVsaddVs (d a b : Fin 32) (z : Bool) (s : State) : Out :=
  s.elementWise (encode (.vsaddVs d a b z)) (AOp.sadd.plan (s.rnd z) d a (s.vs b))
def execVssubVs (d a b : Fin 32) (z : Bool) (s : State) : Out :=
  s.elementWise (encode (.vssubVs d a b z)) (AOp.ssub.plan (s.rnd z) d a (s.vs b))
def execVavgVs (d a b : Fin 32) (z : Bool) (s : State) : Out :=
  s.elementWise (encode (.vavgVs d a b z)) (AOp.avg.plan (s.rnd z) d a (s.vs b))
def execVdivVs (d a b : Fin 32) (z : Bool) (s : State) : Out :=
  s.elementWise (encode (.vdivVs d a b z)) (AOp.div.plan (s.rnd z) d a (s.vs b))
def execVabs (d a : Fin 32) (s : State) : Out := s.elementWise (encode (.vabs d a)) (AOp.abs.plan1 (s.rnd false) d a)
def execVneg (d a : Fin 32) (s : State) : Out := s.elementWise (encode (.vneg d a)) (AOp.neg.plan1 (s.rnd false) d a)

/-! ### Bitwise operations and shifts -/

/-- The bitwise operations: tags equal, or one of them raw; the result bits are copied without conversion (R129), word by word in the sources'
layout, so a typed destination of another layout does not make the layout mixed (log 79). -/
def planBitwise (f : Nat → Nat → Nat) (d a : Nat) (b : Src) (c : VCtx) : Except Nat Plan := do
  let ta := c.tag a
  let tb := c.srcTag b ta
  let p := ta.promote tb
  let lay := ta.orPromoted p
  let dt := (c.tag d).orPromoted (some lay)
  let l ← checkLayout c.g true ([(d, lay), (a, lay)] ++ b.op lay)
  failIf (!(ta == tb || ta == .raw || tb == .raw)) 0x20
  .ok ⟨⟨d, l.sizes.headD 1, lay, dt, l.half, l.per, false⟩,
    fun e => (f (c.elem a lay e) (c.srcElem b lay e) % 2 ^ lay.ebits, 0)⟩

/-- a & ~b. -/
def andNot (a b : Nat) : Nat := a ^^^ (a &&& b)

def execVand (d a b : Fin 32) (s : State) : Out := s.elementWise (encode (.vand d a b)) (planBitwise (· &&& ·) d a (vb b))
def execVandVs (d a b : Fin 32) (s : State) : Out := s.elementWise (encode (.vandVs d a b)) (planBitwise (· &&& ·) d a (s.vs b))
def execVor (d a b : Fin 32) (s : State) : Out := s.elementWise (encode (.vor d a b)) (planBitwise (· ||| ·) d a (vb b))
def execVorVs (d a b : Fin 32) (s : State) : Out := s.elementWise (encode (.vorVs d a b)) (planBitwise (· ||| ·) d a (s.vs b))
def execVxor (d a b : Fin 32) (s : State) : Out := s.elementWise (encode (.vxor d a b)) (planBitwise (· ^^^ ·) d a (vb b))
def execVxorVs (d a b : Fin 32) (s : State) : Out := s.elementWise (encode (.vxorVs d a b)) (planBitwise (· ^^^ ·) d a (s.vs b))
def execVandn (d a b : Fin 32) (s : State) : Out := s.elementWise (encode (.vandn d a b)) (planBitwise andNot d a (vb b))
def execVandnVs (d a b : Fin 32) (s : State) : Out := s.elementWise (encode (.vandnVs d a b)) (planBitwise andNot d a (s.vs b))

/-- The shifts: integer and raw tags; the amount is b mod w, read in va's layout; the result keeps va's tag (R130). -/
def planShift (f : Nat → Nat → Nat → Nat) (d a : Nat) (b : Src) (c : VCtx) : Except Nat Plan := do
  let t := c.tag a
  let l ← checkLayout c.g true ([(d, t), (a, t)] ++ b.op t)
  failIf (!(t.isInt || t == .raw)) 0x20
  .ok ⟨⟨d, l.sizes.headD 1, t, t, l.half, l.per, false⟩,
    fun e => (f t.ebits (c.elem a t e) (c.srcElem b t e % t.ebits), 0)⟩

def shl (w x n : Nat) : Nat := x * 2 ^ n % 2 ^ w
def shr (_w x n : Nat) : Nat := x / 2 ^ n
def sar (w x n : Nat) : Nat := wrapBits w (toSigned w x / (2 ^ n : Nat))

def execVsll (d a b : Fin 32) (s : State) : Out := s.elementWise (encode (.vsll d a b)) (planShift shl d a (vb b))
def execVsllVs (d a b : Fin 32) (s : State) : Out := s.elementWise (encode (.vsllVs d a b)) (planShift shl d a (s.vs b))
def execVsrl (d a b : Fin 32) (s : State) : Out := s.elementWise (encode (.vsrl d a b)) (planShift shr d a (vb b))
def execVsrlVs (d a b : Fin 32) (s : State) : Out := s.elementWise (encode (.vsrlVs d a b)) (planShift shr d a (s.vs b))
def execVsra (d a b : Fin 32) (s : State) : Out := s.elementWise (encode (.vsra d a b)) (planShift sar d a (vb b))
def execVsraVs (d a b : Fin 32) (s : State) : Out := s.elementWise (encode (.vsraVs d a b)) (planShift sar d a (s.vs b))

/-! ### Conversion, class, selection -/

/-- VCVT (R132): a raw destination takes va's tag, a raw source is read as the destination's type; both copy words. -/
def planCvt (r : Rnd) (d a : Nat) (c : VCtx) : Except Nat Plan := do
  let ta := c.tag a
  let td := c.tag d
  let dt := td.orPromoted (some ta)
  let la := ta.orPromoted (some td)
  let l ← checkLayout c.g true [(d, dt), (a, la)]
  failIf (!(ta == .raw || td == .raw) && realMismatch ta td) 0x20
  .ok ⟨⟨d, l.sizes.headD 1, dt, dt, l.half, l.per, false⟩, fun e =>
    if ta = .raw ∨ td = .raw then (c.elem a la e, 0) else r.convertElem true ta dt (c.elem a ta e)⟩

def execVcvt (d a : Fin 32) (z : Bool) (s : State) : Out := s.elementWise (encode (.vcvt d a z)) (planCvt (s.rnd z) d a)

/-- VCLASS (R135): the one-hot class of Table 4.10 in a ui32 word or ui16 sub-element. -/
def planClass (d a : Nat) (c : VCtx) : Except Nat Plan := do
  let ta := c.tag a
  let dt : Tag := match ta with
    | .f32 => .ui32
    | .bf16 | .f16 => .ui16
    | t => t
  let l ← checkLayout c.g true [(d, dt), (a, ta)]
  let f ← (match ta with
    | .f32 => .ok Fmt.f32
    | .bf16 => .ok Fmt.bf16
    | .f16 => .ok Fmt.f16
    | _ => .error 0x20 : Except Nat Fmt)
  .ok ⟨⟨d, l.sizes.headD 1, dt, dt, l.half, l.per, false⟩, fun e => (fclass f (c.elem a ta e), 0)⟩

def execVclass (d a : Fin 32) (s : State) : Out := s.elementWise (encode (.vclass d a)) (planClass d a)

/-- sel(n) of R134: bit n of m0 XOR MP. -/
def VCtx.sel (c : VCtx) (n : Nat) : Bool := xor (c.mbit 0 n) c.mp

/-- VSEL (R134): ME and IPOL play no part, TPOL governs the tail. -/
def planSel (r : Rnd) (d a b : Nat) (c : VCtx) : Except Nat Plan := do
  let ta := c.tag a
  let tb := c.tag b
  let p := ta.promote tb
  let la := ta.orPromoted p
  let lb := tb.orPromoted p
  let dt := (c.tag d).orPromoted p
  let l ← checkLayout c.g true [(d, dt), (a, la), (b, lb)]
  let pt ← p.elim (.error 0x20) .ok
  failIf (realMismatch pt dt) 0x20
  .ok ⟨⟨d, l.sizes.headD 1, dt, dt, l.half, l.per, true⟩, fun e =>
    let q := if c.sel (unitWords l.half * (e / l.per)) then r.convertElem false la pt (c.elem a la e)
      else r.convertElem false lb pt (c.elem b lb e)
    let q2 := r.convertElem false pt dt q.1
    (q2.1, q.2 ||| q2.2)⟩

def execVsel (d a b : Fin 32) (s : State) : Out := s.elementWise (encode (.vsel d a b)) (planSel (s.rnd false) d a b)

/-- The lowest word from VSTART to VL that selects va with its bit of mf set (R134); both words of a complex element are selected by its
lower word's mask bit (R31). -/
def VCtx.mergeFault (c : VCtx) (half : Bool) : Option Nat :=
  ((List.range (c.vl - c.vstart)).map (c.vstart + ·)).find? fun n => c.sel (unitWords half * (n / unitWords half)) && c.mf.getLsbD n

/-- VMRG (R134, R196): as VSEL, but a selected word of va with its bit of `mf` set raises the recorded fault; the tag of vd changes at
issue all the same (R125, log 41). -/
def execVmrg (d a b : Fin 32) (s : State) : Out :=
  let word := encode (.vmrg d a b)
  let plan := planSel (s.rnd false) d a b
  let c := s.me.ctx
  match plan c with
  | .error _ => s.elementWise word plan
  | .ok p =>
    match c.leased, c.mergeFault p.dest.half with
    | true, some w =>
      ok ((s.modCtx fun c => c.setTags p.dest.reg p.dest.size p.dest.tag).trapWith
        { code := sget 0 c.mfc w, tval := 0, telem := w, vstart := some c.vstart })
    | _, _ => s.elementWise word plan

/-! ### Compares -/

/-- The relations of the compares. -/
inductive Rel where
  | eq | ne | lt | le
  deriving DecidableEq, Repr

/-- The relation on integers. -/
def Rel.int (r : Rel) (a b : Int) : Bool :=
  match r with
  | .eq => a == b | .ne => a != b | .lt => a < b | .le => a ≤ b

/-- The relation on floating-point values: a NaN makes NE true and the others false (R133). -/
def Rel.flt (r : Rel) (a b : FV) : Bool :=
  match r with
  | .eq => a.eq b | .ne => !a.eq b | .lt => a.lt b | .le => a.lt b || a.eq b

/-- NV: a signalling NaN, and for LT and LE any NaN (R133). -/
def Rel.flags (r : Rel) (a b : FV) : Flags :=
  match r with
  | .eq | .ne => a.sigFlag ||| b.sigFlag
  | .lt | .le => flagIf (a.isNan || b.isNan) fNV

/-- One element: EQ holds where both components of a complex one are equal, NE where they are not (R133). -/
def Rel.elem (r : Rel) (p la lb : Tag) (x y : Nat) : Bool × Flags :=
  let rs := ((la.split x).zip (lb.split y)).map fun q =>
    if p.comp.isInt then (r.int (la.comp.int q.1) (lb.comp.int q.2), (0 : Flags))
    else (r.flt (la.comp.value q.1) (lb.comp.value q.2), r.flags (la.comp.value q.1) (lb.comp.value q.2))
  ((if r = .ne then rs.any Prod.fst else rs.all Prod.fst), (rs.map Prod.snd).foldl (· ||| ·) 0)

/-- What a compare writes: units with their bits, inactive ones by IPOL, the tail bits to G·VLMAX − 1 by TPOL (R133); with cf32 operands the
tail begins at bit 2·⌊VL/2⌋ (R23, R31). -/
def VCtx.compare (c : VCtx) (m : Nat) (l : Layout) (f : Nat → Bool × Flags) : VCtx × Flags :=
  if c.vl ≤ c.vstart then (c, 0)
  else
    let bitsOf (u : Nat) : List Nat := (List.range (unitWords l.half)).map (unitWords l.half * u + ·)
    let us := c.units l.half
    let res := (us.filter (c.unitOn l.half)).map fun u =>
      let es := (List.range l.per).map fun j => f (l.per * u + j)
      (u, es.all Prod.fst, (es.map Prod.snd).foldl (· ||| ·) 0)
    let on := res.flatMap fun q => (bitsOf q.1).map fun n => (n, q.2.1)
    let off := if c.ipol then (us.filter fun u => !c.unitOn l.half u).flatMap fun u => (bitsOf u).map fun n => (n, false) else []
    let from_ := unitWords l.half * (c.vl / unitWords l.half)
    let tail := if c.tpol then (List.range (c.g * c.vlmax - from_)).map fun i => (from_ + i, false) else []
    (c.setMask m (on ++ off ++ tail), (res.map fun q => q.2.2).foldl (· ||| ·) 0)

/-- A compare into mask register `m` (R133): a fault code, or the context with the flags. -/
def Rel.run (r : Rel) (m a : Nat) (b : Src) (c : VCtx) : Except Nat (VCtx × Flags) := do
  let ta := c.tag a
  let tb := c.srcTag b ta
  let p := ta.promote tb
  let la := ta.orPromoted p
  let lb := tb.orPromoted p
  let l ← checkLayout c.g false ([(a, la)] ++ b.op lb)
  let pt ← p.elim (.error 0x20) .ok
  failIf (pt == .raw || (pt.isComplex && (r == .lt || r == .le))) 0x20
  .ok (c.compare m l fun e => r.elem pt la lb (c.elem a la e) (c.srcElem b lb e))

/-- A compare as an instruction. -/
def State.vcompare (s : State) (word : Nat) (r : Rel) (m a : Fin 32) (b : Src) : Out :=
  s.vectorD word fun s =>
    match r.run m a b s.me.ctx with
    | .error c => .error c
    | .ok q => .ok (s.putCtx q)

def execVcmpeq (d a b : Fin 32) (s : State) : Out := s.vcompare (encode (.vcmpeq d a b)) .eq d a (vb b)
def execVcmpeqVs (d a b : Fin 32) (s : State) : Out := s.vcompare (encode (.vcmpeqVs d a b)) .eq d a (s.vs b)
def execVcmpne (d a b : Fin 32) (s : State) : Out := s.vcompare (encode (.vcmpne d a b)) .ne d a (vb b)
def execVcmpneVs (d a b : Fin 32) (s : State) : Out := s.vcompare (encode (.vcmpneVs d a b)) .ne d a (s.vs b)
def execVcmplt (d a b : Fin 32) (s : State) : Out := s.vcompare (encode (.vcmplt d a b)) .lt d a (vb b)
def execVcmpltVs (d a b : Fin 32) (s : State) : Out := s.vcompare (encode (.vcmpltVs d a b)) .lt d a (s.vs b)
def execVcmple (d a b : Fin 32) (s : State) : Out := s.vcompare (encode (.vcmple d a b)) .le d a (vb b)
def execVcmpleVs (d a b : Fin 32) (s : State) : Out := s.vcompare (encode (.vcmpleVs d a b)) .le d a (s.vs b)

/-! ### Fused multiply-add -/

/-- VFMA, VFMS, VFNMA, VFNMS and VMACC (R136): na negates the product, nc the third source. VMACC reads its third source from vd in
vd's own tag; in mixed layout vd as that source is no overlap with vd as the destination (log 69). -/
def planFma (na nc acc : Bool) (r : Rnd) (d a b x : Nat) (c : VCtx) : Except Nat Plan := do
  let ta := c.tag a
  let tb := c.tag b
  let tx := c.tag x
  let p := (ta.promote tb).bind (·.promote tx)
  let dt := (c.tag d).orPromoted p
  let la := ta.orPromoted p
  let lb := tb.orPromoted p
  let lx := if acc then dt else tx.orPromoted p
  let l ← checkLayout c.g true ([(d, dt), (a, la), (b, lb)] ++ if acc then [] else [(x, lx)])
  let pt ← p.elim (.error 0x20) .ok
  failIf (pt == .raw || pt.isComplex || dt.isComplex) 0x20
  .ok ⟨⟨d, l.sizes.headD 1, dt, dt, l.half, l.per, false⟩, fun e =>
    let x1 := c.elem a la e
    let x2 := c.elem b lb e
    let x3 := c.elem x lx e
    if pt.isInt then
      let ab := la.int x1 * lb.int x2
      let v := (if na then -ab else ab) + (if nc then -lx.int x3 else lx.int x3)
      r.convert false pt dt (wrapBits pt.ebits v)
    else
      let (v, fl) := dotFV [FV.negIf nc (lx.value x3)] [(FV.negIf na (la.value x1), lb.value x2)]
      let (q, f2) := r.into dt v
      (q, fl ||| f2)⟩

def execVfma (d a b c : Fin 32) (z : Bool) (s : State) : Out :=
  s.elementWise (encode (.vfma d a b c z)) (planFma false false false (s.rnd z) d a b c)
def execVfms (d a b c : Fin 32) (z : Bool) (s : State) : Out :=
  s.elementWise (encode (.vfms d a b c z)) (planFma false true false (s.rnd z) d a b c)
def execVfnma (d a b c : Fin 32) (z : Bool) (s : State) : Out :=
  s.elementWise (encode (.vfnma d a b c z)) (planFma true false false (s.rnd z) d a b c)
def execVfnms (d a b c : Fin 32) (z : Bool) (s : State) : Out :=
  s.elementWise (encode (.vfnms d a b c z)) (planFma true true false (s.rnd z) d a b c)
def execVmacc (d a b : Fin 32) (z : Bool) (s : State) : Out :=
  s.elementWise (encode (.vmacc d a b z)) (planFma false false true (s.rnd z) d a b d)

/-- VDOT2 (R137): c + a₀·b₀ + a₁·b₁ a word; every operand is one element a word, so it is never in mixed layout. -/
def planDot2 (r : Rnd) (d a b x : Nat) (c : VCtx) : Except Nat Plan := do
  let ta := c.tag a
  let tb := c.tag b
  let p := ta.promote tb
  let l ← checkLayout c.g true [(d, .raw), (a, .raw), (b, .raw), (x, .raw)]
  let pt ← p.elim (.error 0x20) .ok
  let want : Tag := if pt = .i16 then .i32 else if pt = .ui16 then .ui32 else .f32
  let dt := (c.tag d).orPromoted (some want)
  failIf (!([.bf16, .f16, .i16, .ui16].contains pt && (ta == .raw || ta.per == 2) && (tb == .raw || tb.per == 2)
    && dt == want && (c.tag x == want || c.tag x == .raw))) 0x20
  let la := ta.orPromoted p
  let lb := tb.orPromoted p
  .ok ⟨⟨d, l.sizes.headD 1, dt, dt, false, 1, false⟩, fun n =>
    let x3 := c.word x n
    if pt.isInt then
      (wrapBits 32 (want.int x3 + la.int (c.elem a la (2 * n)) * lb.int (c.elem b lb (2 * n))
        + la.int (c.elem a la (2 * n + 1)) * lb.int (c.elem b lb (2 * n + 1))), 0)
    else
      let (v, fl) := dotFV [Tag.f32.value x3]
        [(la.value (c.elem a la (2 * n)), lb.value (c.elem b lb (2 * n))),
         (la.value (c.elem a la (2 * n + 1)), lb.value (c.elem b lb (2 * n + 1)))]
      let (q, f2) := r.into .f32 v
      (q, fl ||| f2)⟩

def execVdot2 (d a b c : Fin 32) (z : Bool) (s : State) : Out :=
  s.elementWise (encode (.vdot2 d a b c z)) (planDot2 (s.rnd z) d a b c)

end Sys2Proof.Machine
end

