-- ==== Sys2Proof/Machine/Vmask.lean ====
section
/-! DEFINITION. VMSK (R138 to R141): mask logic, mask scans, counts and indices. -/

namespace Sys2Proof.Machine

/-- The tail bits VL to G·VLMAX − 1 of a mask destination, cleared by TPOL (R138). -/
def VCtx.maskTail (c : VCtx) : List (Nat × Bool) :=
  if c.tpol then (List.range (c.g * c.vlmax - c.vl)).map fun i => (c.vl + i, false) else []

/-- Write bits VSTART to VL − 1 of mask register `m`, ME playing no part (R138). -/
def VCtx.maskAll (c : VCtx) (m : Nat) (f : Nat → Bool) : VCtx :=
  if c.vl ≤ c.vstart then c else c.setMask m ((c.units false).map (fun n => (n, f n)) ++ c.maskTail)

/-- Write the active bits of mask register `m`; the others below VL follow IPOL (R139). -/
def VCtx.maskActive (c : VCtx) (m : Nat) (f : Nat → Bool) : VCtx :=
  if c.vl ≤ c.vstart then c
  else
    c.setMask m ((c.units false).flatMap (fun n =>
      if c.maskOn n then [(n, f n)] else if c.ipol then [(n, false)] else []) ++ c.maskTail)

/-- A mask instruction that cannot fault after its lease check. -/
def State.maskOp (s : State) (word : Nat) (f : VCtx → VCtx) : Out := s.vectorD word fun s => .ok (s.modCtx f)

def execMand (d a b : Fin 32) (s : State) : Out :=
  s.maskOp (encode (.mand d a b)) fun c => c.maskAll d fun n => c.mbit a n && c.mbit b n
def execMor (d a b : Fin 32) (s : State) : Out :=
  s.maskOp (encode (.mor d a b)) fun c => c.maskAll d fun n => c.mbit a n || c.mbit b n
def execMxor (d a b : Fin 32) (s : State) : Out :=
  s.maskOp (encode (.mxor d a b)) fun c => c.maskAll d fun n => xor (c.mbit a n) (c.mbit b n)
def execMandn (d a b : Fin 32) (s : State) : Out :=
  s.maskOp (encode (.mandn d a b)) fun c => c.maskAll d fun n => c.mbit a n && !c.mbit b n
def execMnot (d a : Fin 32) (s : State) : Out :=
  s.maskOp (encode (.mnot d a)) fun c => c.maskAll d fun n => !c.mbit a n
def execMmov (d a : Fin 32) (s : State) : Out :=
  s.maskOp (encode (.mmov d a)) fun c => c.maskAll d fun n => c.mbit a n
/-- MSET writes bit n := (n < a), a unsigned (R138). -/
def execMset (d a : Fin 32) (s : State) : Out :=
  s.maskOp (encode (.mset d a)) fun c => c.maskAll d fun n => decide (n < (s.reg a).toNat)

/-- f of R139: the lowest n < VL with the source bit set and active, VSTART aside. -/
def VCtx.firstSet (c : VCtx) (m : Nat) : Option Nat := (List.range c.vl).find? fun n => c.mbit m n && c.maskOn n

/-- MSBF, MSIF and MSOF (R139); vd = va faults with code 0x21 (R114). -/
def State.maskScan (s : State) (word : Nat) (d a : Fin 32) (f : Option Nat → Nat → Bool) : Out :=
  s.vectorD word fun s => if d = a then .error 0x21 else .ok (s.modCtx fun c => c.maskActive d (f (c.firstSet a)))

def execMsbf (d a : Fin 32) (s : State) : Out :=
  s.maskScan (encode (.msbf d a)) d a fun o n => match o with | none => true | some f => n < f
def execMsif (d a : Fin 32) (s : State) : Out :=
  s.maskScan (encode (.msif d a)) d a fun o n => match o with | none => true | some f => n ≤ f
def execMsof (d a : Fin 32) (s : State) : Out :=
  s.maskScan (encode (.msof d a)) d a fun o n => match o with | none => false | some f => n == f

/-- MPOPC (R140): the set source bits at active positions. -/
def execMpopc (d a : Fin 32) (s : State) : Out :=
  s.vectorD (encode (.mpopc d a)) fun s =>
    let c := s.me.ctx
    .ok (s.setReg d (BitVec.ofNat 64 ((c.units false).countP fun n => c.maskOn n && c.mbit a n)))

/-- MFIRST (R140): f of R139, or −1. -/
def execMfirst (d a : Fin 32) (s : State) : Out :=
  s.vectorD (encode (.mfirst d a)) fun s =>
    .ok (s.setReg d (match s.me.ctx.firstSet a with | some n => BitVec.ofNat 64 n | none => BitVec.allOnes 64))

/-- A destination of ui32 words (R141). -/
def planIndex (d : Nat) (f : VCtx → Nat → Nat) (c : VCtx) : Except Nat Plan := do
  let l ← checkLayout c.g false [(d, .ui32)]
  .ok ⟨⟨d, l.sizes.headD 1, .ui32, .ui32, false, 1, false⟩, fun n => (f c n, 0)⟩

/-- c(n) of R141 and R145: the positions p < n, p < VL, active with VSTART aside, that satisfy a test. -/
def VCtx.countBelow (c : VCtx) (half : Bool) (p : Nat → Bool) (n : Nat) : Nat :=
  (List.range (Nat.min n (c.vl / unitWords half))).countP fun q => c.unitOn half q && p q

/-- VIOTA (R141): equal register numbers fault with code 0x21, as R114 names it with MSBF, MSIF and MSOF (log 28). -/
def planIota (d a : Nat) (c : VCtx) : Except Nat Plan := do
  let p ← planIndex d (fun c n => c.countBelow false (c.mbit a) n) c
  failIf (d == a) 0x21
  .ok p

def execViota (d a : Fin 32) (s : State) : Out := s.elementWise (encode (.viota d a)) (planIota d a)
def execVid (d : Fin 32) (s : State) : Out := s.elementWise (encode (.vid d)) (planIndex d fun _ n => n)

end Sys2Proof.Machine
end

