-- ==== Sys2Proof/Machine/Vperm.lean ====
section
/-! DEFINITION. VPRM (R142 to R149): permutes and reductions. -/

namespace Sys2Proof.Machine

/-! ### Permutes -/

/-- The unit of a permute, a word or a complex element of cf32 (R142); a position at or beyond VL reads as zero. -/
def VCtx.unit (c : VCtx) (cf : Bool) (r n : Nat) : Nat :=
  if n < c.vl / unitWords cf then (if cf then c.elem r .cf32 n else c.word r n) else 0

/-- The layout in which a permute moves: cf32 by complex element, every other tag by word (R142). -/
def permTag (t : Tag) : Tag := if t = .cf32 then .cf32 else .raw

/-- The checks of a permute (R114, R142, R198) with its destination; `index` is a vector index register. -/
def VCtx.permDest (c : VCtx) (d a : Nat) (index : Option Nat) : Except Nat Dest := do
  let g := c.g
  let srcs := (⟨a, g⟩ : Span) :: (index.toList.map fun i => ⟨i, g⟩)
  match spanFault false (some ⟨d, g⟩) srcs with
  | some f => .error f
  | none =>
    failIf (index.any fun i => !((c.tag i).isInt || c.tag i == .raw)) 0x20
    .ok ⟨d, g, permTag (c.tag a), c.tag a, c.tag a == .cf32, 1, false⟩

/-- A permute whose destination unit n takes the source position that `src` names; none keeps vd's unit (R143). -/
def planPermute (src : VCtx → Nat → Option Nat) (index : Option Nat) (d a : Nat) (c : VCtx) : Except Nat Plan := do
  let t ← c.permDest d a index
  .ok ⟨t, fun n =>
    (match src c n with
      | some p => c.unit t.half a p
      | none => if t.half then c.elem d .cf32 n else c.word d n, 0)⟩

def execVslideup (d a b : Fin 32) (s : State) : Out :=
  s.elementWise (encode (.vslideup d a b))
    (planPermute (fun _ n => if (s.reg b).toNat ≤ n then some (n - (s.reg b).toNat) else none) none d a)
def execVslidedn (d a b : Fin 32) (s : State) : Out :=
  s.elementWise (encode (.vslidedn d a b)) (planPermute (fun _ n => some (n + (s.reg b).toNat)) none d a)
/-- VRGATHER (R144): the index is word n of vb. -/
def execVrgather (d a b : Fin 32) (s : State) : Out :=
  s.elementWise (encode (.vrgather d a b)) (planPermute (fun c n => some (c.word b n)) (some b.val) d a)
/-- VEXPAND (R145): vd[n] := va[c(n)]. -/
def execVexpand (d a : Fin 32) (s : State) : Out :=
  s.elementWise (encode (.vexpand d a))
    (planPermute (fun c n => some (c.countBelow (c.tag a == .cf32) (fun _ => true) n)) none d a)

/-- The low w bits of n reversed. -/
def bitRev : Nat → Nat → Nat
  | 0, _ => 0
  | w + 1, n => n % 2 * 2 ^ w + bitRev w (n / 2)

/-- The source of destination n under a pattern (Table 5.8); u is the number of units below VL and P the largest power of two not above
it (R146). -/
def shufSource (pat u n : Nat) : Nat :=
  let w := u.log2
  let p := if u = 0 then 0 else 2 ^ w
  if p ≤ n then n
  else match pat with
    | 0 => bitRev w n
    | 1 => if w = 0 then n else n / 2 + n % 2 * 2 ^ (w - 1)
    | 2 => if w = 0 then n else n * 2 % 2 ^ w + n / 2 ^ (w - 1)
    | 3 => n ^^^ 1
    | _ => if p < 16 then n else n / 16 * 16 + 4 * (n % 4) + n / 4 % 4

def execVshuf (d a : Fin 32) (p : Fin 8) (s : State) : Out :=
  s.elementWise (encode (.vshuf d a p))
    (planPermute (fun c n => some (shufSource p (c.vl / unitWords (c.tag a == .cf32)) n)) none d a)
/-- VXCH (R147): D is the power of two that `x` names. -/
def execVxch (d a : Fin 32) (x : Fin 16) (s : State) : Out :=
  s.elementWise (encode (.vxch d a x)) (planPermute (fun _ n => some (n ^^^ 2 ^ x.val)) none d a)
def execVbcast (d a b : Fin 32) (s : State) : Out :=
  s.elementWise (encode (.vbcast d a b)) (planPermute (fun _ _ => some (s.reg b).toNat) none d a)

/-- VCOMPRESS (R145): vd[c(n)] := va[n] for each active n; the words from c(VL) on follow TPOL and IPOL plays no part. -/
def VCtx.compress (c : VCtx) (t : Dest) (a : Nat) : VCtx :=
  let c' := c.setTags t.reg t.size t.tag
  if c.vl ≤ c.vstart then c'
  else
    let cnt := c.countBelow t.half (fun _ => true)
    let c' := c'.writeElems t.reg t.lay
      (((c.units t.half).filter (c.unitOn t.half)).map fun n => (cnt n, c.unit t.half a n))
    if c.tpol then c'.zeroWords t.reg (unitWords t.half * cnt (c.vl / unitWords t.half)) (t.size * c.vlmax) else c'

def execVcompress (d a : Fin 32) (s : State) : Out :=
  s.vectorD (encode (.vcompress d a)) fun s =>
    match s.me.ctx.permDest d a none with
    | .error e => .error e
    | .ok t => .ok (s.modCtx fun c => c.compress t a)

/-! ### Reductions -/

/-- The reductions of R148. -/
inductive Red where
  | sum | sumo | min | max
  deriving DecidableEq, Repr

/-- One rounded FP32 addition. -/
def Rnd.add32 (r : Rnd) (a b : FV) : FV × Flags :=
  let (v, fl) := sumFV [a, b]
  let (q, f2) := r.into .f32 v
  (FV.ofBits .f32 q, fl ||| f2)

/-- A level of the tree of R45: pairs meet, an absent partner passes the other on. -/
def Rnd.pairUp (r : Rnd) : List (Option FV) → List (Option FV) × Flags
  | [] => ([], 0)
  | [x] => ([x], 0)
  | x :: y :: t =>
    let (rest, fl) := r.pairUp t
    match x, y with
    | none, b => (b :: rest, fl)
    | a, none => (a :: rest, fl)
    | some a, some b => let (v, f2) := r.add32 a b; (some v :: rest, fl ||| f2)

/-- The tree of R45 over the leaves in order: its root, or none where every leaf is absent. -/
def Rnd.tree (r : Rnd) : Nat → List (Option FV) → Option FV × Flags
  | 0, l => (l.headD none, 0)
  | n + 1, l =>
    let (up, fl) := r.pairUp l
    let (v, f2) := r.tree n up
    (v, fl ||| f2)

/-- An accumulator of FP32 from its initial bits over the leaves, none for an absent one (R44, R45, R148). With every leaf absent the
initial value stays, unrounded (R149). -/
def Red.float (op : Red) (r : Rnd) (init : Nat) (ls : List (Option FV)) : Nat × Flags :=
  if ls.all Option.isNone then (init, 0)
  else
    let i := FV.ofBits .f32 init
    let (v, fl) := match op with
      | .sum =>
        let (t, f1) := r.tree 13 ls
        match t with
        | none => (i, f1)
        | some t => let (v, f2) := r.add32 i t; (v, f1 ||| f2)
      | .sumo => (ls.filterMap id).foldl (fun q x => let (v, f) := r.add32 q.1 x; (v, q.2 ||| f)) (i, 0)
      | .min => (ls.filterMap id).foldl (fun q x => let (v, f) := FV.minMax false q.1 x; (v, q.2 ||| f)) (i, 0)
      | .max => (ls.filterMap id).foldl (fun q x => let (v, f) := FV.minMax true q.1 x; (v, q.2 ||| f)) (i, 0)
    let (b, _) := r.into .f32 v
    (b, fl)

/-- An integer accumulator (Table 5.9): w bits, wrapping; the order has no effect. -/
def Red.integer (op : Red) (w : Nat) (signed : Bool) (init : Nat) (xs : List Int) : Nat :=
  let i : Int := if signed then toSigned w init else ((init % 2 ^ w : Nat) : Int)
  wrapBits w (match op with
    | .sum | .sumo => xs.foldl (· + ·) i
    | .min => xs.foldl (fun m x => if x < m then x else m) i
    | .max => xs.foldl (fun m x => if m < x then x else m) i)

/-- The leaves of a reduction in order: leaf e is element e, absent where inactive or outside VSTART to VL (R45). -/
def VCtx.leaves (c : VCtx) (a : Nat) (t : Tag) : List (Option Nat) :=
  let half := t == .cf32
  let m := unitWords half
  (List.range (c.vl / m)).flatMap fun u => (List.range t.per).map fun j =>
    if c.vstart / m ≤ u && c.unitOn half u then some (c.elem a t (t.per * u + j)) else none

/-- The result of a reduction in the form of Table 5.9. -/
def Red.run (op : Red) (r : Rnd) (t : Tag) (init : Nat) (ls : List (Option Nat)) : Nat × Flags :=
  let comp (ct : Tag) (w i : Nat) (xs : List (Option Nat)) : Nat × Flags :=
    if ct.isInt then (op.integer w ct.isSigned i (xs.filterMap fun x => x.map ct.int), 0)
    else
      let vs := xs.map fun x => x.map ct.value
      let sig := (vs.filterMap id).foldl (fun f x => f ||| x.sigFlag) 0
      let (b, fl) := op.float r i vs
      (b, fl ||| sig)
  if t.isComplex then
    let (re, f1) := comp t.comp 32 (bits init 31 0) (ls.map fun x => x.map fun e => e % 2 ^ (t.ebits / 2))
    let (im, f2) := comp t.comp 32 (bits init 63 32) (ls.map fun x => x.map fun e => e / 2 ^ (t.ebits / 2))
    (re + 2 ^ 32 * im, f1 ||| f2)
  else if t.isInt then comp t 64 init ls
  else comp t 32 (bits init 31 0) ls

/-- A reduction (R148, R149): its group and tag checks, then rd and the flags at completion. -/
def State.reduction (s : State) (word : Nat) (op : Red) (z : Bool) (d a b : Fin 32) : Out :=
  s.vectorD word fun s =>
    let c := s.me.ctx
    let t := c.tag a
    match spanFault true none [⟨a, c.g⟩] with
    | some f => .error f
    | none =>
      if t = .raw || (t.isComplex && (op == .min || op == .max)) then .error 0x20
      else
        let (v, fl) := op.run (s.rnd z) t (s.reg b).toNat (c.leaves a t)
        .ok ((s.setReg d (BitVec.ofNat 64 v)).raise fl)

def execVredsum (d a b : Fin 32) (z : Bool) (s : State) : Out := s.reduction (encode (.vredsum d a b z)) .sum z d a b
def execVredsumo (d a b : Fin 32) (z : Bool) (s : State) : Out := s.reduction (encode (.vredsumo d a b z)) .sumo z d a b
def execVredmin (d a b : Fin 32) (z : Bool) (s : State) : Out := s.reduction (encode (.vredmin d a b z)) .min z d a b
def execVredmax (d a b : Fin 32) (z : Bool) (s : State) : Out := s.reduction (encode (.vredmax d a b z)) .max z d a b

end Sys2Proof.Machine
end

