-- ==== Sys2Proof/Machine/Vctl.lean ====
section
/-! DEFINITION. VCTL (R118 to R128, R218, R223 to R225): vector length, strips, repetition, tags, word moves and forked contexts. -/

namespace Sys2Proof.Machine

/-! ### Lengths and strips -/

/-- SETVL (R118, R214). -/
def execSetvl (d a : Fin 32) (k : Bool) (s : State) : Out :=
  s.vectorD (encode (.setvl d a k)) fun s =>
    let n := (s.reg a).toNat
    let s := (if k then s else s.laneChange s.meId).modCtx (·.setVl n)
    .ok (s.setReg d (BitVec.ofNat 64 s.me.ctx.vl))

/-- LOOPV (R119); DTIME is kept for LOOPT (Table 21.5). -/
def execLoopv (a : Fin 32) (s : State) : Out :=
  s.vectorD (encode (.loopv a)) fun s =>
    let n := (s.reg a).toNat
    .ok (s.modCtx fun c =>
      let c := c.setVl n
      { c with strip := 0, stripn := n - c.vl, loopT := s.die.dtime })

/-- Advance to the next strip (R120, R122): v := min(STRIPN, G·VLMAX); a forked child's STRIP steps by n (R123). -/
def VCtx.nextStrip (c : VCtx) : VCtx :=
  let v := Nat.min c.stripn (c.g * c.vlmax)
  { c with
    strip := if v = 0 then c.strip else c.strip + Nat.max 1 c.fork.n
    vl := v
    stripn := c.stripn - v }

/-- NEXTS (R120). -/
def execNexts (d : Fin 32) (s : State) : Out :=
  s.vectorD (encode (.nexts d)) fun s =>
    let s := s.modCtx VCtx.nextStrip
    .ok (s.setReg d (BitVec.ofNat 64 s.me.ctx.vl))

/-- VREP (R121): the next n + 1 vector instructions are captured. A suspended repetition is cleared first (R225). -/
def execVrep (r : Bool) (n : Fin 16) (s : State) : Out :=
  s.vectorD (encode (.vrep r n)) fun s =>
    .ok (s.modCtx fun c => { c with rep := { Rep.empty with toCapture := n.val + 1, rot := r, priv := s.me.priv } })

/-- The body has been issued for strip t (R122): the next strip, or the end. -/
def VCtx.repStrip (c : VCtx) : VCtx :=
  let r := c.rep
  let v := Nat.min r.stripn (2 ^ bits r.vmc.toNat 5 4 * c.vlmax)
  if v = 0 then { c with rep := Rep.empty, strip := r.strip }
  else { c with rep := { r with
    t := r.t + 1
    pos := 0
    running := true
    strip := r.strip + Nat.max 1 c.fork.n
    vl := v
    stripn := r.stripn - v } }

/-- An instruction of the body was issued from the front end and captured (R121). After the last one, program order sees VL = 0 and
STRIPN = 0 (R122), and the strip and the controls are the repetition's own (R225). -/
def VCtx.capture (c : VCtx) (fcsr : BitVec 9) (x : Captured) : VCtx :=
  let r := { c.rep with body := c.rep.body ++ [x], toCapture := c.rep.toCapture - 1 }
  if c.rep.toCapture = 1 then
    { c with
      vl := 0
      stripn := 0
      rep := { r with vl := c.vl, strip := c.strip, stripn := c.stripn, vmc := c.vmc, fcsr := fcsr &&& 0x1E0 } }.repStrip
  else { c with rep := r }

/-- An instruction of the body was re-issued (R223). -/
def VCtx.reissued (c : VCtx) : VCtx :=
  if c.rep.pos + 1 < c.rep.body.length then { c with rep := { c.rep with pos := c.rep.pos + 1 } } else c.repStrip

/-! ### Tags and words -/

/-- VTAG (R125): the group check, then code 15. -/
def execVtag (d : Fin 32) (t : Fin 16) (s : State) : Out :=
  s.vectorD (encode (.vtag d t)) fun s =>
    let c := s.me.ctx
    match spanFault true none [⟨d, c.g⟩], Tag.ofCode t with
    | some f, _ => .error f
    | none, none => .error 0x20
    | none, some q => .ok (s.modCtx (·.setTags d c.g q))

/-- VWAIT (R126): every earlier vector instruction has completed. -/
def execVwait (s : State) : Out := s.vectorD (encode .vwait) fun s => .ok s

/-- VMVX (R127): a word, or a complex element of cf32, by index. -/
def execVmvx (d a b : Fin 32) (s : State) : Out :=
  s.vectorD (encode (.vmvx d a b)) fun s =>
    let c := s.me.ctx
    let n := (s.reg b).toNat
    let cf := c.tag a == .cf32
    match spanFault true none [⟨a, c.g⟩] with
    | some f => .error f
    | none =>
      .ok (s.setReg d
        (if c.g * c.vlmax / unitWords cf ≤ n then 0
         else if cf then BitVec.ofNat 64 (c.elem a .cf32 n)
         else if c.tag a = .i32 then (BitVec.ofNat 32 (c.word a n)).signExtend 64
         else BitVec.ofNat 64 (c.word a n)))

/-- VMVS (R128): a word, or a complex element of cf32, by index; nothing for an index beyond the group. -/
def execVmvs (d a b : Fin 32) (s : State) : Out :=
  s.vectorD (encode (.vmvs d a b)) fun s =>
    let c := s.me.ctx
    let n := (s.reg b).toNat
    let x := (s.reg a).toNat
    let cf := c.tag d == .cf32
    match spanFault true none [⟨d, c.g⟩] with
    | some f => .error f
    | none =>
      .ok (if c.g * c.vlmax / unitWords cf ≤ n then s
        else s.modCtx fun c => if cf then c.setElem d .cf32 n x else c.setWord d n x)

/-! ### Forked contexts -/

/-- The words of a context that lie from `64·k·i` on, as a context of k groups sees them (R123, R233). -/
def VCtx.slice (c : VCtx) (k i : Nat) (gm : BitVec 4) : VCtx :=
  let lo := 64 * k * i
  let rlo := 16 * k * i
  let mask : BitVec 2048 := BitVec.ofNat 2048 (2 ^ (64 * k) - 1)
  { c with
    gm := gm
    v := (c.v.filter fun e => decide (lo ≤ e.1 % 256 ∧ e.1 % 256 < lo + 64 * k)).map fun e => (e.1 - lo, e.2)
    tiles := (c.tiles.filter fun e => decide (rlo ≤ e.1 % 4096 / 64 ∧ e.1 % 4096 / 64 < rlo + 16 * k)).map fun e => (e.1 - 64 * rlo, e.2)
    masks := c.masks.foldl (fun m e => sset 0 m e.1 (e.2.ushiftRight lo &&& mask)) ([] : List (Nat × BitVec 2048))
    mf := c.mf.ushiftRight lo &&& mask
    mfc := (c.mfc.filter fun e => decide (lo ≤ e.1 ∧ e.1 < lo + 64 * k)).map fun e => (e.1 - lo, e.2) }

/-- The n-th group sets of a block, in ascending order, k groups each (R123). -/
def groupSlice (gm : BitVec 4) (k i : Nat) : BitVec 4 :=
  ((((List.range 4).filter fun g => gm.getLsbD g).drop (k * i)).take k).foldl (fun b g => b ||| BitVec.twoPow 4 g) 0

/-- The length of strip j when R words are cut into strips of w (R123). -/
def stripLen (r w j : Nat) : Nat := Nat.min w (r - w * j)

/-- The context of child i of n (R123). -/
def VCtx.child (c : VCtx) (n i root : Nat) : VCtx :=
  let k := c.k / n
  let r := c.vl + c.stripn
  let w := 64 * k
  let strips := (r + w - 1) / w
  { c.slice k i (groupSlice c.gm k i) with
    strip := i
    vl := stripLen r w i
    stripn := ((List.range strips).filter fun j => decide (i < j) && j % n == i).foldl (fun a j => a + stripLen r w j) 0
    rep := Rep.empty
    pix := []
    queue := []
    fork := ⟨n, i, root, c.gm⟩ }

/-- The strands of a core that hold no context and that nothing is reserved for. -/
def State.emptyStrands (s : State) (core : Nat) : List Nat :=
  ((List.range 8).map (8 * core + ·)).filter fun i =>
    (s.strand i).id.kind == .free && !((s.coreS core).reservations.any fun r => r.strand == i)

/-- The strands that VFORKs of a core wait for (R123): those of strand `i` and of the strands that began to wait after it apart. -/
def State.forkHeld (s : State) (core : Nat) (i : Option Nat) : Nat :=
  ((List.range 8).map (8 * core + ·)).foldl (fun n j =>
    let t := s.strand j
    let ahead : Bool := match i with
      | none => true
      | some i => let u := s.strand i
        i != j && (u.run.wait != .fork || decide (t.run.since < u.run.since ∨ (t.run.since = u.run.since ∧ j < i)))
    if t.run.wait == .fork && ahead then n + (t.run.forkN - 1) else n) 0

/-- The strands that a dispatch or a resume may take: those that no waiting VFORK holds (R123). -/
def State.freeStrands (s : State) (core : Nat) : List Nat := (s.emptyStrands core).drop (s.forkHeld core none)

/-- The strands that the VFORK of strand `i` may claim. -/
def State.forkStrands (s : State) (i : Nat) : List Nat := (s.emptyStrands (i / 8)).drop (s.forkHeld (i / 8) (some i))

/-- The faults of VFORK (R123). -/
def VCtx.forkFault (c : VCtx) (n : Nat) : Bool := c.fork.n != 0 || decide (c.k < n) || c.g != 1 || c.vstart != 0

/-- A child's strand (R123): copies of the scalar registers, FCSR and the entry registers of traps; the trap record and the domain
memberships begin empty. -/
def Strand.child (t : Strand) (n i root : Nat) : Strand :=
  { t with
    trap := { t.trap with tcause := 0, tpc := 0, tval := 0, telem := 0, tidx3 := 0, hold := false, pprv := .user }
    dom := []
    joined := []
    ctx := t.ctx.child n i root
    id := { t.id with kind := .child }
    run := Strand.empty.run }

/-- VFORK splits the context over the strand and n − 1 others (R123, R218); it withdraws a pending grow of the parent. -/
def State.forkSplit (s : State) (n : Nat) (others : List Nat) : State :=
  let p := s.me
  let root := s.meId
  let s := s.modCoreS s.core fun c => c.withdrawGrow root
  let s := ((List.range n).zip (root :: others)).foldl (fun s x =>
    let g := (s.coreS (root / 8)).nextGen (x.2 % 8)
    let t := (p.advance).child n x.1 root
    let t := if x.1 = 0 then { t with trap := p.trap, dom := p.dom, id := p.id, run := p.advance.run }
      else { t with id := { t.id with home := x.2, gen := g } }
    (s.setStrand x.2 t).modCoreS (root / 8) fun c =>
      { c.modGroups t.ctx.gm fun e => { e with own := some x.2 } with gens := if x.1 = 0 then c.gens else sset 0 c.gens (x.2 % 8) g }) s
  s.modMe fun t => { t with run := { t.run with forkN := 0, retired := s.die.clock } }

/-- VFORK (R123): while too few strands are free it waits. -/
def State.vfork (s : State) (word n : Nat) : Out :=
  if !s.me.ctx.leased then ok (s.illegal 0x01 word)
  else if s.me.ctx.forkFault n then ok (s.illegal 0x01 word)
  else
    let free := s.forkStrands s.meId
    if free.length < n - 1 then ok ((s.waitIn .fork).modMe fun t => { t with run := { t.run with forkN := n } })
    else ok (s.forkSplit n (free.take (n - 1)))

def execVfork2 (s : State) : Out := s.vfork (encode .vfork2) 2
def execVfork4 (s : State) : Out := s.vfork (encode .vfork4) 4

/-- VFORK_SPLIT (R218): the VFORK at which the strand waits goes on. -/
def execVforkSplit (strand : Nat) (s : State) : Out :=
  ok (s.at strand fun s =>
    let free := s.forkStrands strand
    if s.me.run.wait = .fork ∧ s.me.run.forkN - 1 ≤ free.length then s.forkSplit s.me.run.forkN (free.take (s.me.run.forkN - 1)) else s)

/-- Put a child's slice back at its place (R124, R233); of its masks the bits that R123 maps, those of its own 64·k words (log 34). -/
def VCtx.absorb (c : VCtx) (k i : Nat) (x : VCtx) : VCtx :=
  let lo := 64 * k * i
  let x : VCtx := { x with
    masks := x.masks.map fun e => (e.1, e.2 &&& BitVec.ofNat 2048 (2 ^ (64 * k) - 1))
    mf := x.mf &&& BitVec.ofNat 2048 (2 ^ (64 * k) - 1)
    mfc := x.mfc.filter fun e => decide (e.1 < 64 * k) }
  { c with
    v := x.v.foldl (fun m e => sset 0 m (e.1 + lo) e.2) c.v
    tiles := x.tiles.foldl (fun m e => sset 0 m (e.1 + 64 * (16 * k * i)) e.2) c.tiles
    masks := x.masks.foldl (fun m e => sset 0 m e.1 (sget 0 m e.1 ||| e.2.shiftLeft lo)) c.masks
    mf := c.mf ||| x.mf.shiftLeft lo
    mfc := x.mfc.foldl (fun m e => sset 0 m (e.1 + lo) e.2) c.mfc
    dirty := c.dirty ||| x.dirty }

/-- The live children of child 0's family, itself apart. -/
def State.family (s : State) (root : Nat) : List (Nat × Strand) :=
  let all := if s.meId = root then s.others else (s.meId, s.me) :: s.others
  all.filter fun e => e.1 ≠ root && e.2.id.kind == .child && e.2.ctx.fork.root == root

/-- Reassemble a family whose other children have ended in child 0 (R124, R218): its registers by the mapping of R123, FCSR flags as their
OR. -/
def Strand.reassembled (t : Strand) : Strand :=
  let k := t.ctx.k
  let own := { VCtx.absent with masks := t.ctx.masks, mf := t.ctx.mf, mfc := t.ctx.mfc }
  let ctx := t.joined.foldl (fun c x => c.absorb k x.index x.ctx) ({ t.ctx with masks := [], mf := 0, mfc := [] }.absorb k 0 own)
  { t with
    fcsr := t.joined.foldl (fun f x => f ||| (x.fcsr &&& 0x1F)) t.fcsr
    joined := []
    ctx := { ctx with gm := t.ctx.fork.gm, fork := Fork.none } }

/-- Child 0's VJOIN once the others have ended (R124). -/
def State.joinFamily (s : State) : State :=
  (s.modMe fun t =>
    let t := t.reassembled
    { t with ctx := { t.ctx with vl := 0, strip := 0, stripn := 0, vstart := 0, rep := Rep.empty } }).retire

end Sys2Proof.Machine
end

