-- ==== Sys2Proof/Machine/Hot.lean ====
section
/-! DEFINITION. The hotness cache and the hotness log of the vector memory instructions (R355, R356). -/

namespace Sys2Proof.Machine

/-- `XHLOG`[o] and `XHWP`[o] (Table 18.10). -/
def xhlogAddr (o : Nat) : Nat := 0x200003001000 + 8 * o
def xhwpAddr (o : Nat) : Nat := 0x200003002000 + 8 * o

/-- Which counter an instruction adds to. -/
inductive Heat where
  | unit | strided | indexed
  deriving DecidableEq, Repr

/-- The code of a page size: rows of Table 18.5 in order. -/
def sizeCode (log : Nat) : Nat :=
  if log = 12 then 0 else if log = 16 then 1 else if log = 21 then 2 else if log = 25 then 3 else if log = 30 then 4 else 5

/-- A hotness record (Table 18.11). -/
def Hot.record (h : Hot) (why : Nat) : Nat :=
  h.indexed * 2 ^ 108 + h.strided * 2 ^ 88 + h.unit * 2 ^ 68 + sizeCode h.size * 2 ^ 48 + h.frame / 4096 * 4096 + why

/-- Write a record to the owner's log under the owner's key, then pass it (R356). -/
def Die.hotLog (d : Die) (h : Hot) (why : Nat) : Die :=
  let g := d.reg (xhlogAddr h.owner)
  let wp := d.reg (xhwpAddr h.owner)
  let at_ := bits g 47 12 * 4096 + 16 * (wp % 2 ^ (8 + bits g 11 8))
  let d := match d.physWrite h.owner at_ (leBytes 16 (h.record why)) with
    | .ok d => d
    | .error _ => d
  d.setReg (xhwpAddr h.owner) ((wp + 1) % 2 ^ 32)

/-- Add one to a counter. -/
def Hot.bump (h : Hot) : Heat → Hot
  | .unit => { h with unit := h.unit + 1 }
  | .strided => { h with strided := h.strided + 1 }
  | .indexed => { h with indexed := h.indexed + 1 }

/-- A counter has reached its maximum. -/
def Hot.full (h : Hot) : Bool := h.unit == 2 ^ 20 - 1 || h.strided == 2 ^ 20 - 1 || h.indexed == 2 ^ 20 - 1

/-- Count one element on a page (R355): the entry moves to the front, a full one is logged and starts again at zero, and the least
recently used of more than 16,384 is evicted. -/
def Die.hotCount (d : Die) (k : Heat) (c : Copy) : Die :=
  if d.reg (xhlogAddr c.owner) % 2 = 0 ∨ c.entry = 0 then d
  else
    let frame := pteFrame c.pte
    let same := fun (h : Hot) => h.owner == c.owner && h.frame == frame && h.size == c.size
    let h := ((d.hot.find? same).getD ⟨c.owner, frame, c.size, 0, 0, 0⟩).bump k
    let rest := d.hot.filter fun h => !same h
    let (h, d) := if h.full then (⟨c.owner, frame, c.size, 0, 0, 0⟩, d.hotLog h 1) else (h, d)
    let d := match rest[16383]? with
      | some old => d.hotLog old 0
      | none => d
    { d with hot := h :: rest.take 16383 }

/-- Count a list of translations, one an element. -/
def Die.hotCounts (d : Die) (k : Heat) (cs : List Copy) : Die := cs.foldl (fun d c => d.hotCount k c) d

/-- Write out every entry of an owner (R355). -/
def Die.hotFlush (d : Die) (o : Nat) : Die :=
  let d' := (d.hot.filter fun h => h.owner == o).foldl (fun d h => d.hotLog h 2) d
  { d' with hot := d.hot.filter fun h => h.owner != o }

end Sys2Proof.Machine
end

