-- ==== Sys2Proof/Machine/Mmio.lean ====
section
/-! DEFINITION. The memory-mapped registers: who may reach a block, what a read gives, and a write on its way to its block. -/

namespace Sys2Proof.Machine

/-! ### The manifest of a job (R411) -/

/-- The strands of a job. -/
def State.strandsOf (s : State) (h : Nat) : List Nat :=
  (((s.meId, s.me) :: s.others).filter fun e => e.2.id.kind != .free && e.2.id.kind != .column && e.2.id.job.toNat == h).map (·.1)

/-- CLMI: a save must write the CLM image (R375). -/
def Job.clmImage (j : Job) : Bool := bits j.desc 61 60 == 1

/-- The bytes that a save of a context would write now (R267). -/
def VCtx.saveBytes (c : VCtx) (clm : Bool) : Nat :=
  0x2400 + 8192 * c.k + 4096 * c.k * ((List.range 4).countP fun z => c.dirty.getLsbD z) + (if clm then 0x40000 else 0)

/-- The clean tiles of a context, in bytes (R412). -/
def VCtx.cleanBytes (c : VCtx) : Nat := 4096 * c.k * ((List.range 4).countP fun z => !c.dirty.getLsbD z)

/-- The fields of Table 21.5 that come from the strands, and D⁺. -/
structure Manifest where
  stripn : Nat
  strip : Nat
  loopT : Nat
  run : Nat
  host : Bool
  latch : Bool
  clmi : Bool
  k : Nat
  tiles : Nat
  d : Nat
  dplus : Nat
  deriving DecidableEq, Repr

/-- RUN of a job (Table 21.5): its time RUNNING up to now. -/
def Job.runTime (j : Job) (now : Nat) : Nat := if j.state = .running then j.run + (now - j.runSince) else j.run

/-- The manifest of a live job. -/
def State.manifest (s : State) (h : Nat) (j : Job) : Manifest :=
  let is := s.strandsOf h
  let c := match j.root with
    | some i => (s.strand i).ctx
    | none => VCtx.absent
  let d := is.foldl (fun n i => n + (s.strand i).ctx.saveBytes j.clmImage) 0
  { stripn := c.stripn
    strip := c.strip
    loopT := c.loopT
    run := j.runTime s.die.dtime
    host := is.any fun i => (s.strand i).run.hostReq != none
    latch := is.any fun i => (s.coreS (i / 8)).latch.owner == some i
    clmi := j.clmImage
    k := c.k
    tiles := c.dirty.toNat
    d := d
    dplus := is.foldl (fun n i => n + (s.strand i).ctx.cleanBytes) d }

/-- The 256 bits of a manifest. -/
def Manifest.pack (m : Manifest) : Nat :=
  m.stripn % 2 ^ 32 * 2 ^ 224 + m.strip % 2 ^ 32 * 2 ^ 192 + m.loopT % 2 ^ 64 * 2 ^ 128 + m.run % 2 ^ 64 * 2 ^ 64
    + (if m.host then 2 ^ 43 else 0) + (if m.latch then 2 ^ 42 else 0) + (if m.clmi then 2 ^ 41 else 0) + m.k * 2 ^ 38
    + m.tiles * 2 ^ 34 + m.d % 2 ^ 32

/-! ### Admission (R405, R407) -/

/-- The register block of an address. -/
def mmioBlock (pa : Nat) : Nat := (pa - 0x200000000000) / 0x1000000

/-- The access-table target of a register (Table 21.3), where its block has one. -/
def mmioTarget (pa : Nat) : Option Nat :=
  match mmioBlock pa with
  | 1 => if pa < 0x200001400000 then some (0x480 + (pa - 0x200001000000) / 0x10000) else none
  | 2 => some 0x4C3
  | 3 => some (if 0x200003001000 ≤ pa ∧ pa < 0x200003003000 then 0x4C7 else 0x4C1)
  | 4 => some 0x4C0
  | 5 => some 0x4C2
  | 6 => some 0x4C4
  | 7 => some 0x4C5
  | 9 => some 0x4C6
  | _ => none

/-- An access of firmware: under owner 0x000, or at firmware privilege. -/
def isFirmware (o : Nat) (p : Priv) : Bool := o == 0 || p == .firmware

/-- Block admission: never user privilege; owner 0 alone where the block has no table; else the table. -/
def State.mmioAdmits (s : State) (o : Nat) (p : Priv) (pa : Nat) (write : Bool) : Bool :=
  p != .user && (o == 0 || match mmioTarget pa with
    | some t => s.die.admits t o write
    | none => false)

/-- A register of the Timetable's per-VF array that the VF's supervisor may read (`JSDL`, `JSBG`; Table 19.4). -/
def timetableReadable (o pa : Nat) : Bool :=
  0x100 ≤ o && (pa / 8 == (0x200004000000 + 32 * (o - 0x100)) / 8 + 1 || pa / 8 == (0x200004000000 + 32 * (o - 0x100)) / 8 + 2)

/-- A register of the Timetable that the VF's supervisor may write (`JCLS`, `JTVEC`, `JTSCR`). -/
def timetableWritable (o pa : Nat) : Bool :=
  0x100 ≤ o && (pa / 8 == (0x200004000000 + 32 * (o - 0x100)) / 8 + 3 || pa / 16 == (0x200004003000 + 16 * (o - 0x100)) / 16)

/-- A supervisor's own partition registers (R407). -/
def State.ownPartition (s : State) (o pa : Nat) : Bool :=
  let vfp := 0x200006110000 + 8 * (o - 0x100)
  let p := bits (s.die.reg vfp) 3 0
  0x100 ≤ o && (pa / 8 == vfp / 8 || (p != 0 && pa / 16 == (0x200006100000 + 64 * p) / 16))

/-- What a master that is not firmware reads: refused, zero, or the value. -/
inductive ReadRule where
  | refused | zero | value
  deriving DecidableEq, Repr

/-- The rule of each block for a VF supervisor (R282, R337, R356, R365, R400, R407, R411, R429). -/
def State.readRule (s : State) (o pa : Nat) : ReadRule :=
  match mmioBlock pa with
  | 1 => .value
  | 3 => if 0x200003001000 ≤ pa ∧ pa < 0x200003003000 then .value else .refused
  | 4 => if timetableReadable o pa then .value else .refused
  | 5 => if pa / 8 = 0x200005010000 / 8 then .value else .refused
  | 6 => if s.ownPartition o pa then .value else .zero
  | 7 => .zero
  | 9 => if 0x100 ≤ o ∧ pa / 256 = (telemetry o 0) / 256 then .value else .zero
  | _ => .refused

/-- Who may write a block (R282, R308, R313, R337, R356, R365, R398, R404, R405, R408): firmware alone, but for the berth rings and the
VF's own Timetable registers. -/
def mayWrite (o pa : Nat) : Bool :=
  match mmioBlock pa with
  | 1 => true
  | 4 => timetableWritable o pa
  | 9 => true
  | _ => false

/-! ### Reads -/

/-- Valid L2 sectors that an owner holds (L2OCC, Table 23.3). -/
def Mem.occupied (m : Mem) (o : Nat) : Nat :=
  m.lines.foldl (fun n e => if e.2.owner = o then n + ((List.range 4).countP fun k => e.2.valid.getLsbD k) else n) 0

/-- The sector or set that an `L2ERR` record names is still error-held (Table 16.4): a write of the whole sector clears the state (R312). -/
def Die.stillHeld (d : Die) (bank x : Nat) : Bool :=
  let sect := bits x 47 7
  match bits x 61 60 with
  | 1 => (sget Line.none d.mem.lines (sect / 4)).held.getLsbD (sect % 4)
  | 2 => sget false d.mem.errs (errSector (128 * sect))
  | 3 => sget false d.mem.errs (errSet bank (sect % 256))
  | _ => false

/-- The value of the doubleword at an address. -/
def State.regValue (s : State) (pa : Nat) : Nat :=
  let a := pa / 8 * 8
  if 0x200007100000 ≤ a ∧ a < 0x200007300000 then
    let i := (a - 0x200007100000) / 32
    let j := sget Job.unused s.die.jobs i
    if j.gen = 0 ∨ j.state = .ended then 0
    else bits ((s.manifest (j.gen * 65536 + i) j).pack) (64 * (a / 8 % 4) + 63) (64 * (a / 8 % 4))
  else if 0x200002001000 ≤ a ∧ a < 0x200002001400 ∧ !s.die.stillHeld ((a - 0x200002001000) / 8) (s.die.reg a) then putBits (s.die.reg a) 62 62 0
  else if 0x200009000000 ≤ a ∧ a < 0x200009020000 ∧ a % 256 = 8 then s.die.mem.occupied ((a - 0x200009000000) / 256)
  else if 0x200009000000 < a ∧ a < 0x200009000D00 ∧ 256 ≤ a % 0x10000 ∧ a % 256 = 0x68 then Config.energy ((a - 0x200009000000) / 256) s.die.clock
  else s.die.reg a

/-- Read `n` bytes of a memory-mapped register (R11): a fault code, or the value. -/
def State.mmioRead (s : State) (o : Nat) (p : Priv) (pa n : Nat) : Except Nat (Nat × State) :=
  if !s.mmioAdmits o p pa false then .error 0x12
  else
    let v := s.regValue pa / 2 ^ (8 * (pa % 8)) % 2 ^ (8 * n)
    if isFirmware o p then .ok (v, s)
    else match s.readRule o pa with
      | .refused => .error 0x12
      | .zero => .ok (0, s)
      | .value => .ok (v, s)

/-! ### Writes -/

/-- Write `n` bytes of a memory-mapped register: a fault code, or the state with the write on its way, before anything else happens. -/
def State.mmioWrite (s : State) (o : Nat) (p : Priv) (pa n v : Nat) : Except Nat State :=
  if !s.mmioAdmits o p pa true then .error 0x12
  else if !isFirmware o p && !mayWrite o pa then .error 0x12
  else .ok (s.modDie fun d => { d with due := d.due ++ [.regWrite (isFirmware o p) pa n v] })

end Sys2Proof.Machine
end

