-- ==== Sys2Proof/Machine/Access.lean ====
section
/-! DEFINITION. Accesses of a strand by virtual address: scalar loads, stores and AMOs at every target of the physical map. -/

namespace Sys2Proof.Machine

/-- The answer of a load. -/
inductive LoadRes where
  | ok (bs : List Byte) (s : State)
  /-- A synchronous fault with its TVAL. -/
  | trap (code tval : Nat) (s : State)
  /-- The access waits (R352, R108). -/
  | wait (w : Wait) (pa : Nat) (s : State)
  deriving DecidableEq, Repr

/-- The state with a new die. -/
def LoadRes.state : LoadRes → State
  | .ok _ s | .trap _ _ s | .wait _ _ s => s

/-- Whether the strand's wait for a migrating page has lasted 100 µs (R352). -/
def State.migrationOver (s : State) : Bool :=
  s.me.run.wait == .migrating && decide (s.me.run.since + 100000 ≤ s.die.dtime)

/-- Translate a scalar access of the issuing strand: R83, then the alignment check, then translation (R88, R91). -/
def State.resolveScalar (s : State) (va n : Nat) (a : Acc) (amo : Bool := false) : Except (Nat × State) (Nat × Nat × State) ⊕ State :=
  if va / 2 ^ 54 ≠ 0 then .inl (.error (0x10, s))
  else if va % n ≠ 0 then .inl (.error (0x03, s))
  else
    match s.die.resolveAD s.core s.me.id.owner s.me.xasid.toNat va a amo with
    | .fault c d => .inl (.error (c, s.withDie d))
    | .ok pa mt _ d => .inl (.ok (pa, mt, s.withDie d))
    | .migrating _ d => if s.migrationOver then .inl (.error (0x13, s.withDie d)) else .inr (s.withDie d)

/-- Load `n` bytes at a physical address for the issuing strand. A register access has 1, 2, 4 or 8 bytes (R11): of the 64 bytes that SDLD and
ENQ load and SDST stores at an MMIO address, the first doubleword is the register's, the rest reads zero and is not written (log 74). -/
def State.loadPa (s : State) (pa n : Nat) : LoadRes :=
  match s.die.target pa with
  | .mmio =>
    match s.mmioRead s.me.id.owner s.me.priv pa n with
    | .error c => .trap c 0 s
    | .ok (v, s) => .ok (leBytes n v) s
  | .hostWindow | .twinWindow => .wait .host pa s
  | _ =>
    match s.die.physRead s.me.id.owner pa n with
    | .error c => .trap c 0 (s.modDie fun d => d.readError c s.meId pa)
    | .ok (bs, d) => .ok bs (s.withDie d)

/-- Load `n` bytes at a VA (R88). -/
def State.loadVa (s : State) (va n : Nat) : LoadRes :=
  match s.resolveScalar va n .read with
  | .inr s => .wait .migrating 0 s
  | .inl (.error (c, s)) => .trap c va s
  | .inl (.ok (pa, _, s)) =>
    match s.loadPa pa n with
    | .trap c _ s => .trap c va s
    | r => r

/-- The answer of a store. -/
inductive StoreRes where
  | ok (s : State)
  | trap (code tval : Nat) (s : State)
  | wait (w : Wait) (s : State)
  deriving DecidableEq, Repr

/-- Note the words that a store is about to change, as they stand (R327). -/
def State.noteStore (s : State) (pa n : Nat) : State :=
  let ws := (List.range ((pa % 4 + n + 3) / 4)).filterMap fun k =>
    (s.die.physRead s.me.id.owner (pa / 4 * 4 + 4 * k) 4).toOption.map fun r => (pa / 4 * 4 + 4 * k, leVal r.1)
  s.modMe fun t => { t with run := { t.run with unfenced := ws ++ t.run.unfenced } }

/-- Store bytes at a physical address for the issuing strand. A refusal or an error at the target is found only after the store has retired
and is reported by an error record (R89). -/
def State.storePa (s : State) (pa : Nat) (bs : List Byte) (va : Nat) : State :=
  match s.die.target pa with
  | .mmio =>
    match s.mmioWrite s.me.id.owner s.me.priv pa bs.length (leVal bs) with
    | .error c => s.postError s.meId c va
    | .ok s => s
  | .hostWindow => s.linkStore false pa bs va
  | .twinWindow => s.linkStore true pa bs va
  | _ =>
    match s.die.physWrite s.me.id.owner pa bs with
    | .error c => s.postError s.meId c va
    | .ok d => (s.noteStore pa bs.length).withDie d

/-- Store bytes at a VA (R88, R89). A denial in the local window is synchronous (R167). -/
def State.storeVa (s : State) (va : Nat) (bs : List Byte) : StoreRes :=
  match s.resolveScalar va bs.length .write with
  | .inr s => .wait .migrating s
  | .inl (.error (c, s)) => .trap c va s
  | .inl (.ok (pa, _, s)) => .ok (s.storePa pa bs va)

/-! ### Scalar loads and stores -/

/-- The size of a load code of R62: bytes, and whether the result is sign-extended. -/
def ldSize : Nat → Nat × Bool
  | 0 => (1, true) | 1 => (2, true) | 2 => (4, true) | 3 => (8, true)
  | 4 => (1, false) | 5 => (2, false) | _ => (4, false)

/-- Extend `n` bytes to a register (R88). -/
def extend (n : Nat) (signed : Bool) (v : Nat) : Word :=
  if signed then BitVec.ofInt 64 (toSigned (8 * n) v) else BitVec.ofNat 64 (v % 2 ^ (8 * n))

/-- The immediate of an M-format address, sign-extended (R54). -/
def sext13 (i : Fin 8192) : Word := BitVec.ofInt 64 (toSigned 13 i.val)

/-- LD (R88). -/
def State.load (s : State) (d : Fin 32) (va n : Nat) (signed : Bool) : State :=
  match s.loadVa va n with
  | .ok bs s => s.writeRetire d (extend n signed (leVal bs))
  | .trap c v s => s.trap c (BitVec.ofNat 64 v)
  | .wait .host pa s =>
    s.linkRequest ⟨decide (0xC00000000000 ≤ pa), .read, d.val, n, signed, BitVec.ofNat 64 va, pa, 0, 0, false, 0, false, .sent, Copy.window, 0, false⟩
  | .wait w _ s => s.waitIn w

/-- ST (R88, R89). -/
def State.store (s : State) (v : Word) (va n : Nat) : State :=
  match s.storeVa va (leBytes n v.toNat) with
  | .ok s => s.retire
  | .trap c v s => s.trap c (BitVec.ofNat 64 v)
  | .wait w s => s.waitIn w

/-! ### Atomic memory operations -/

/-- The operations of the AMO major (R63). -/
inductive Amo where
  | lda | sta | swap | cas | fadd | fand | for | fxor | fmin | fmax | fminu | fmaxu | faddf
  deriving DecidableEq, Repr

/-- The op value of R63. -/
def Amo.code : Amo → Nat
  | .lda => 0 | .sta => 1 | .swap => 2 | .cas => 3 | .fadd => 4 | .fand => 5 | .for => 6 | .fxor => 7 | .fmin => 8
  | .fmax => 9 | .fminu => 10 | .fmaxu => 11 | .faddf => 12

/-- FADDF: FP32, to nearest even, no flags (R91). -/
def faddf32 (old b : Nat) : Nat := ((sumFV [FV.ofBits .f32 old, FV.ofBits .f32 b]).1.round .f32 .rne false).1

/-- The value that an AMO of `w` bits writes, or none where it writes nothing (R91). -/
def Amo.result (op : Amo) (w old b c : Nat) : Option Nat :=
  match op with
  | .lda => none
  | .sta | .swap => some b
  | .cas => if old = c then some b else none
  | .fadd => some ((old + b) % 2 ^ w)
  | .fand => some (old &&& b)
  | .for => some (old ||| b)
  | .fxor => some (old ^^^ b)
  | .fmin => some (if toSigned w old ≤ toSigned w b then old else b)
  | .fmax => some (if toSigned w old ≤ toSigned w b then b else old)
  | .fminu => some (Nat.min old b)
  | .fmaxu => some (Nat.max old b)
  | .faddf => some (faddf32 old b)

/-- The translation that an AMO asks for (R91: LDA reads and STA writes, although R341 asks both of every AMO; log 72). -/
def Amo.acc : Amo → Acc
  | .lda => .read
  | .sta => .write
  | _ => .rmw

/-- The read of an AMO: STA uses no old value, but an error of its word faults it as any AMO (R228, R312). -/
def Die.atomicRead (d : Die) (o pa n : Nat) (op : Amo) : Except Nat (List Byte × Die) :=
  if op = .sta ∧ !d.admits (tableOf pa (d.target pa)) o false then .ok ([], d) else d.physRead o pa n

/-- Read, combine and write at a memory of the die, indivisibly (R91, R310): the old value, or a fault code. -/
def Die.amoAt (d : Die) (o pa n : Nat) (op : Amo) (b c : Nat) : Except Nat (Nat × Die) :=
  if !d.admitsRW (tableOf pa (d.target pa)) o op.acc.reads op.acc.writes then .error 0x12
  else
    match d.atomicRead o pa n op with
    | .error e => .error e
    | .ok (bs, d) =>
      match op.result (8 * n) (leVal bs) b c with
      | none => .ok (leVal bs, d)
      | some v =>
        match d.physWrite o pa (leBytes n v) with
        | .error e => .error e
        | .ok d => .ok (leVal bs, d)

/-- What the order field of an AMO that performs does beside the order of the step (R93): an sc AMO draws a ticket, and at scope .y it stands
between every earlier and every later request to the host (R330). -/
def State.sequence (s : State) (order scope : Nat) : State :=
  if order ≠ 3 then s
  else
    let s := s.modDie Die.ticket
    if scope = 4 then s.modMe fun t => t.orderHost true true true true else s

/-- An AMO finishes: the order field, rd, retirement (R91, R93). -/
def State.amoDone (s : State) (op : Amo) (d : Fin 32) (n old order scope : Nat) : State :=
  let s := s.sequence order scope
  if op = .sta then s.retire else s.writeRetire d (extend n true old)

/-- The AMO at its performing point (R92, Table 4.7). -/
def State.amoPa (s : State) (op : Amo) (d : Fin 32) (b c : Word) (n pa mt va o scope : Nat) : State :=
  let bv := b.toNat % 2 ^ (8 * n)
  let cv := c.toNat % 2 ^ (8 * n)
  let bad (code : Nat) (s : State) : State := s.trap code (BitVec.ofNat 64 va)
  let err (code : Nat) (s : State) : State := bad code (s.modDie fun d => d.readError code s.meId pa)
  let req (twin : Bool) (l : LinkOp) : HostReq := ⟨twin, l, d.val, n, true, BitVec.ofNat 64 va, pa, bv, cv, true, if scope = 4 then o else 0, false, .sent, Copy.window, 0, false⟩
  match s.die.target pa with
  | .lpddr | .csm _ =>
    match s.die.amoAt s.me.id.owner pa n op bv cv with
    | .error e => err e s
    | .ok (old, die) => (s.withDie die).amoDone op d n old o scope
  | .csp _ _ | .clm _ _ =>
    if op = .faddf then bad 0x11 s
    else
      match s.die.amoAt s.me.id.owner pa n op bv cv with
      | .error e => err e s
      | .ok (old, die) => (s.withDie die).amoDone op d n old o scope
  | .mmio =>
    match op with
    | .lda =>
      match s.mmioRead s.me.id.owner s.me.priv pa n with
      | .error e => bad e s
      | .ok (v, s) => s.amoDone op d n v o scope
    | .sta =>
      match s.mmioWrite s.me.id.owner s.me.priv pa n bv with
      | .error e => bad e s
      | .ok s => s.amoDone op d n 0 o scope
    | _ => bad 0x11 s
  | .hostWindow =>
    if mt = 3 ∧ scope = 4 then
      match op with
      | .lda => (s.sequence o scope).linkRequest (req false .read)
      | .sta => (s.linkStore false pa (leBytes n bv) va o).amoDone op d n 0 o scope
      | .fadd => (s.sequence o scope).linkRequest (req false .fetchAdd)
      | .swap => (s.sequence o scope).linkRequest (req false .swap)
      | .cas => (s.sequence o scope).linkRequest (req false .cas)
      | _ => bad 0x2C s
    else bad 0x11 s
  | .twinWindow =>
    if scope = 4 then
      match op with
      | .lda => (s.sequence o scope).linkRequest (req true .read)
      | .sta => (s.linkStore true pa (leBytes n bv) va o).amoDone op d n 0 o scope
      | _ => (s.sequence o scope).linkRequest (req true (.amo op.code))
    else bad 0x11 s
  | .hole => bad 0x10 s

/-- An AMO (R91): range, alignment, translation, then its performing point. A release waits for the writes that the twin has still to accept
(R93, R331). -/
def State.amo (s : State) (op : Amo) (d a b : Fin 32) (w : Bool) (o : Fin 4) (scope : Fin 8) : State :=
  let n := if w then 8 else 4
  let va := (s.reg a).toNat
  if 2 ≤ o.val ∧ scope.val ≠ 0 ∧ !s.drained then s.waitIn .fence
  else match s.resolveScalar va n op.acc true with
  | .inr s => s.waitIn .migrating
  | .inl (.error (c, s)) => s.trap c (BitVec.ofNat 64 va)
  | .inl (.ok (pa, mt, s)) => s.amoPa op d (s.reg b) (s.reg d) n pa mt va o.val scope.val

end Sys2Proof.Machine
end

