-- ==== Sys2Proof/Machine/Desc.lean ====
section
/-! DEFINITION. Stream descriptors (R164 to R169) and the SDSC instructions. -/

namespace Sys2Proof.Machine

/-! ### Positions and addresses (R165) -/

/-- A length field of 0 acts as 1. -/
def lenOf (l : BitVec 21) : Nat := if l = 0 then 1 else l.toNat

/-- The steps of a sweep. -/
def Desc.total (d : Desc) : Nat := lenOf d.len0 * lenOf d.len1 * lenOf d.len2

/-- L, the linear value of the position. -/
def Desc.linear (d : Desc) : Nat := d.i0.toNat + lenOf d.len0 * (d.i1.toNat + lenOf d.len1 * d.i2.toNat)

/-- adv(position, p): the descriptor at the position whose linear value is (L + p) mod T. -/
def Desc.adv (d : Desc) (p : Nat) : Desc :=
  let x := (d.linear + p) % d.total
  { d with
    i0 := BitVec.ofNat 21 (x % lenOf d.len0)
    i1 := BitVec.ofNat 21 (x / lenOf d.len0 % lenOf d.len1)
    i2 := BitVec.ofNat 21 (x / lenOf d.len0 / lenOf d.len1) }

/-- off of the position, modulo 2^64. -/
def Desc.offset (d : Desc) : Nat :=
  wrapBits 64 ((d.base.toNat : Int) + d.i0.toNat * d.stride0.toInt + d.i1.toNat * d.stride1.toInt + d.i2.toNat * d.stride2.toInt)

/-- off of an index x of a gather or scatter (R171). -/
def Desc.indexed (d : Desc) (x : Int) : Nat := wrapBits 64 ((d.base.toNat : Int) + x * d.stride0.toInt)

/-- TIDX3 of the position (Table 1.9). -/
def Desc.tidx3 (d : Desc) : BitVec 63 := d.i2 ++ d.i1 ++ d.i0

/-- The element tag; none for code 15. -/
def Desc.etag (d : Desc) : Option Tag := Tag.ofCode d.tag.toNat

/-- Words in a step: 2 for cf32 (R165). -/
def Desc.stepWords (d : Desc) : Nat := if d.tag = 14 then 2 else 1

/-! ### Fields and records (Table 7.1) -/

/-- A field of SDGET (R168): zero-extended, a stride sign-extended. -/
def Desc.field (d : Desc) : Nat → Word
  | 0 => d.base
  | 1 => d.space.zeroExtend 64
  | 2 => d.tag.zeroExtend 64
  | 3 => d.len0.zeroExtend 64
  | 4 => d.len1.zeroExtend 64
  | 5 => d.len2.zeroExtend 64
  | 6 => d.stride0.signExtend 64
  | 7 => d.stride1.signExtend 64
  | 8 => d.stride2.signExtend 64
  | 9 => d.i0.zeroExtend 64
  | 10 => d.i1.zeroExtend 64
  | _ => d.i2.zeroExtend 64

/-- An index that a written length falls to or below becomes 0 (R168). -/
def clampIndex (len i : BitVec 21) : BitVec 21 := if len ≤ i then 0 else i

/-- SDSET of a field (R168). -/
def Desc.setField (d : Desc) (f : Nat) (a : Word) : Desc :=
  match f with
  | 0 => { d with base := a, xlat := [] }
  | 1 => { d with space := a.truncate 2, xlat := [] }
  | 2 => { d with tag := a.truncate 4, xlat := [] }
  | 3 => { d with len0 := a.truncate 21, i0 := clampIndex (a.truncate 21) d.i0, xlat := [] }
  | 4 => { d with len1 := a.truncate 21, i1 := clampIndex (a.truncate 21) d.i1, xlat := [] }
  | 5 => { d with len2 := a.truncate 21, i2 := clampIndex (a.truncate 21) d.i2, xlat := [] }
  | 6 => { d with stride0 := a.truncate 32, xlat := [] }
  | 7 => { d with stride1 := a.truncate 32, xlat := [] }
  | 8 => { d with stride2 := a.truncate 32, xlat := [] }
  | 9 => { d with i0 := a.truncate 21 }
  | 10 => { d with i1 := a.truncate 21 }
  | _ => { d with i2 := a.truncate 21 }

/-- The 512-bit record of a descriptor, XLAT0, XLAT1 and the RSV bits zero (R168). -/
def Desc.pack (d : Desc) : Nat :=
  d.base.toNat + 2 ^ 64 * d.space.toNat + 2 ^ 66 * d.tag.toNat
    + 2 ^ 128 * d.len0.toNat + 2 ^ 149 * d.len1.toNat + 2 ^ 170 * d.len2.toNat
    + 2 ^ 192 * d.stride0.toNat + 2 ^ 224 * d.stride1.toNat + 2 ^ 256 * d.stride2.toNat
    + 2 ^ 320 * d.i0.toNat + 2 ^ 341 * d.i1.toNat + 2 ^ 362 * d.i2.toNat

/-- The descriptor of a record: the RSV bits ignored, no translation (R168). -/
def Desc.unpack (x : Nat) : Desc where
  base := BitVec.ofNat 64 x
  space := BitVec.ofNat 2 (x / 2 ^ 64)
  tag := BitVec.ofNat 4 (x / 2 ^ 66)
  len0 := BitVec.ofNat 21 (x / 2 ^ 128)
  len1 := BitVec.ofNat 21 (x / 2 ^ 149)
  len2 := BitVec.ofNat 21 (x / 2 ^ 170)
  stride0 := BitVec.ofNat 32 (x / 2 ^ 192)
  stride1 := BitVec.ofNat 32 (x / 2 ^ 224)
  stride2 := BitVec.ofNat 32 (x / 2 ^ 256)
  i0 := BitVec.ofNat 21 (x / 2 ^ 320)
  i1 := BitVec.ofNat 21 (x / 2 ^ 341)
  i2 := BitVec.ofNat 21 (x / 2 ^ 362)
  xlat := []

/-- Descriptor `n` of the context. -/
def VCtx.desc (c : VCtx) (n : Nat) : Desc := sget Desc.zero c.sd n

/-- Replace descriptor `n`. -/
def VCtx.setDesc (c : VCtx) (n : Nat) (d : Desc) : VCtx := { c with sd := sset Desc.zero c.sd n d }

/-! ### Accesses that may wait for a link -/

/-- Load `n` bytes at a physical address for an access that no scalar register takes: data that a completion brought is used once. -/
def State.loadLinked (s : State) (va pa n : Nat) : LoadRes :=
  match s.me.run.linkData.find? fun l => l.va == BitVec.ofNat 64 va with
  | some l =>
    let s := s.modMe fun t => { t with run := { t.run with linkData := t.run.linkData.filter fun l => l.va != BitVec.ofNat 64 va } }
    if l.code = 0 then .ok (leBytes n l.data) s else .trap l.code va s
  | none => s.loadPa pa n

/-- The request of such an access. -/
def linkRead (va pa n : Nat) : HostReq :=
  ⟨decide (0xC00000000000 ≤ pa), .read, 33, n, false, BitVec.ofNat 64 va, pa, 0, 0, false, 0, false, .sent, Copy.window, 0, false⟩

/-! ### SDSC -/

def execSdset (a : Fin 32) (s f : Fin 16) (t : State) : Out :=
  t.vectorD (encode (.sdset a s f)) fun t =>
    .ok (t.modCtx fun c => c.setDesc s ((c.desc s).setField f (t.reg a)))
def execSdget (d : Fin 32) (s f : Fin 16) (t : State) : Out :=
  t.vectorD (encode (.sdget d s f)) fun t => .ok (t.setReg d ((t.me.ctx.desc s).field f))
def execSdadv (a : Fin 32) (s : Fin 16) (t : State) : Out :=
  t.vectorD (encode (.sdadv a s)) fun t => .ok (t.modCtx fun c => c.setDesc s ((c.desc s).adv (t.reg a).toNat))
def execSdpos (d : Fin 32) (s : Fin 16) (t : State) : Out :=
  t.vectorD (encode (.sdpos d s)) fun t => .ok (t.setReg d (BitVec.ofNat 64 (t.me.ctx.desc s).linear))

/-- An instruction of the context that has ended: VSTART := 0, retired (R23). -/
def State.retireVec (s : State) : State := (s.modCtx fun c => { c with vstart := 0 }).retire

/-- SDLD (R168): as a scalar 64-byte load. -/
def execSdld (a : Fin 32) (s : Fin 16) (t : State) : Out :=
  let va := (t.reg a).toNat
  if !t.me.ctx.leased then ok (t.illegal 0x01 (encode (.sdld a s)))
  else match t.resolveScalar va 64 .read with
    | .inr t => ok (t.waitIn .migrating)
    | .inl (.error (c, t)) => ok (t.trap c (BitVec.ofNat 64 va))
    | .inl (.ok (pa, _, t)) =>
      match t.loadLinked va pa 64 with
      | .ok bs t => ok (t.modCtx fun c => c.setDesc s (Desc.unpack (leVal bs))).retireVec
      | .trap c _ t => ok (t.trap c (BitVec.ofNat 64 va))
      | .wait _ pa t => ok (t.linkRequest (linkRead va pa 64))

/-- SDST (R168): as a scalar 64-byte store. -/
def execSdst (a : Fin 32) (s : Fin 16) (t : State) : Out :=
  if !t.me.ctx.leased then ok (t.illegal 0x01 (encode (.sdst a s)))
  else match t.storeVa (t.reg a).toNat (leBytes 64 (t.me.ctx.desc s).pack) with
    | .ok t => ok t.retireVec
    | .trap c v t => ok (t.trap c (BitVec.ofNat 64 v))
    | .wait w t => ok (t.waitIn w)

end Sys2Proof.Machine
end

