-- ==== Sys2Proof/Machine/Sfu.lean ====
section
/-! DEFINITION. The special-function unit's arithmetic (R49 to R52) and the VSFU instructions (R273, R274, R194). -/

namespace Sys2Proof.Machine

/-- A table entry of R50: an exact dyadic number. -/
structure Dy where
  neg : Bool
  m : Nat
  e : Int
  deriving DecidableEq, Repr

/-- A table entry as a value. -/
def Dy.fv (d : Dy) : FV := .fin d.neg d.m d.e

/-- Entry j of a table. -/
def entry (l : List Dy) (j : Nat) : FV := (l.getD j ⟨false, 0, 0⟩).fv

/-! ### The tables and coefficients of R50, Table 2.4 -/

/-- T[j], 2^(j/64) rounded with `n48` (R50). -/
def sfuT : List Dy :=
  [⟨false, 1, 0⟩, ⟨false, 142270019124227, -47⟩, ⟨false, 35954809514763, -45⟩, ⟨false, 72692663441007, -46⟩, ⟨false, 18371058661769, -44⟩, ⟨false, 148568850996877, -47⟩, ⟨false, 150186659713755, -47⟩, ⟨false, 151822085212527, -47⟩] ++
  [⟨false, 38368829831843, -45⟩, ⟨false, 38786638995351, -45⟩, ⟨false, 156835991209421, -47⟩, ⟨false, 158543823180903, -47⟩, ⟨false, 80135126111625, -46⟩, ⟨false, 162015480845287, -47⟩, ⟨false, 163779713761015, -47⟩, ⟨false, 20695394739203, -44⟩] ++
  [⟨false, 167366022499769, -47⟩, ⟨false, 21148564874263, -44⟩, ⟨false, 85515430587047, -46⟩, ⟨false, 675364316973, -39⟩, ⟨false, 174775949365665, -47⟩, ⟨false, 176679134673265, -47⟩, ⟨false, 178603044310089, -47⟩, ⟨false, 180547903949287, -47⟩] ++
  [⟨false, 182513941721425, -47⟩, ⟨false, 184501388241253, -47⟩, ⟨false, 46627619158687, -45⟩, ⟨false, 188541442566463, -47⟩, ⟨false, 190594524267169, -47⟩, ⟨false, 96334981280901, -46⟩, ⟨false, 48692000224427, -45⟩, ⟨false, 196888885373201, -47⟩] ++
  [⟨false, 99516432383215, -46⟩, ⟨false, 201200190564561, -47⟩, ⟨false, 50847779248319, -45⟩, ⟨false, 102802950523295, -46⟩, ⟨false, 51961200629251, -45⟩, ⟨false, 210108084025971, -47⟩, ⟨false, 212396011054705, -47⟩, ⟨false, 214708851975319, -47⟩] ++
  [⟨false, 217046878082311, -47⟩, ⟨false, 109705181812189, -46⟩, ⟨false, 221799585836591, -47⟩, ⟨false, 112107412486457, -46⟩, ⟨false, 226656364339077, -47⟩, ⟨false, 229124490325803, -47⟩, ⟨false, 231619492442411, -47⟩, ⟨false, 117070831675383, -46⟩] ++
  [⟨false, 236691298899613, -47⟩, ⟨false, 14954293634955, -43⟩, ⟨false, 120937081728377, -46⟩, ⟨false, 244508000411151, -47⟩, ⟨false, 247170517969557, -47⟩, ⟨false, 124931014221637, -46⟩, ⟨false, 252582847544451, -47⟩, ⟨false, 63833323605779, -45⟩] ++
  [⟨false, 64528422926153, -45⟩, ⟨false, 65231091381861, -45⟩, ⟨false, 263765645581531, -47⟩, ⟨false, 520777080365, -38⟩, ⟨false, 269541361132679, -47⟩, ⟨false, 272476474116817, -47⟩, ⟨false, 137721774192917, -46⟩, ⟨false, 278442931975303, -47⟩]

/-- INV[j], 1/c_j rounded with `n48` (R50). -/
def sfuINV : List Dy :=
  [⟨false, 185715448551361, -47⟩, ⟨false, 181963621307899, -47⟩, ⟨false, 11147523830125, -43⟩, ⟨false, 21862134113449, -44⟩, ⟨false, 171565700090305, -47⟩, ⟨false, 84179432287299, -46⟩, ⟨false, 165269711096165, -47⟩, ⟨false, 81145939231901, -46⟩] ++
  [⟨false, 39854863959031, -45⟩, ⟨false, 156646943560713, -47⟩, ⟨false, 153969218029761, -47⟩, ⟨false, 151381500079681, -47⟩, ⟨false, 37219831631161, -45⟩, ⟨false, 146458524467333, -47⟩, ⟨false, 9007199254741, -43⟩, ⟨false, 1, 0⟩] ++
  [⟨false, 1, 0⟩, ⟨false, 68757246219397, -46⟩, ⟨false, 135446605334451, -47⟩, ⟨false, 66719994479563, -46⟩, ⟨false, 65745979961613, -46⟩, ⟨false, 129599989276849, -47⟩, ⟨false, 63880845778305, -46⟩, ⟨false, 251949629503245, -48⟩] ++
  [⟨false, 31059307774969, -45⟩, ⟨false, 30636732158983, -45⟩, ⟨false, 60451001709671, -46⟩, ⟨false, 238601304761351, -48⟩, ⟨false, 235482333457281, -48⟩, ⟨false, 232443851735251, -48⟩, ⟨false, 28685347945035, -45⟩, ⟨false, 28324525958305, -45⟩] ++
  [⟨false, 55945336985969, -46⟩, ⟨false, 221035564533521, -48⟩, ⟨false, 218356345569479, -48⟩, ⟨false, 107870649757377, -47⟩, ⟨false, 213188148041207, -48⟩, ⟨false, 105347359704573, -47⟩, ⟨false, 104129471153075, -47⟩, ⟨false, 102939420054183, -47⟩] ++
  [⟨false, 101776262765435, -47⟩, ⟨false, 100639097818335, -47⟩, ⟨false, 199054127176597, -48⟩, ⟨false, 24609834029347, -45⟩, ⟨false, 97375127078281, -47⟩, ⟨false, 192667363737775, -48⟩, ⟨false, 95314277827947, -47⟩, ⟨false, 94316222562733, -47⟩]

/-- L[j], −log2(INV[j]) rounded with `n48` (R50). -/
def sfuL : List Dy :=
  [⟨true, 225229046855223, -49⟩, ⟨true, 104326836731051, -48⟩, ⟨true, 192409829864817, -49⟩, ⟨true, 176484513619813, -49⟩, ⟨true, 160865472519789, -49⟩, ⟨true, 72770573981673, -48⟩, ⟨true, 261001247138319, -50⟩, ⟨true, 231467156924741, -50⟩] ++
  [⟨true, 202460489465087, -50⟩, ⟨true, 43490684311997, -48⟩, ⟨true, 145956350144567, -50⟩, ⟨true, 59212335246545, -49⟩, ⟨true, 182703747188081, -51⟩, ⟨true, 258891652333399, -52⟩, ⟨true, 77046941423023, -51⟩, ⟨false, 0, 0⟩] ++
  [⟨false, 0, 0⟩, ⟨false, 75261908634827, -51⟩, ⟨false, 248969955923291, -52⟩, ⟨false, 172973347127177, -51⟩, ⟨false, 220748626145695, -51⟩, ⟨false, 267831485398313, -51⟩, ⟨false, 78560427332781, -49⟩, ⟨false, 179999123185591, -50⟩] ++
  [⟨false, 202559627687953, -50⟩, ⟨false, 224811074450309, -50⟩, ⟨false, 123380908385593, -49⟩, ⟨false, 268419873796945, -50⟩, ⟨false, 1132003703555, -42⟩, ⟨false, 155444221087621, -49⟩, ⟨false, 82928368432747, -48⟩, ⟨false, 88068722551825, -48⟩] ++
  [⟨false, 46572410280237, -47⟩, ⟨false, 98158249090543, -48⟩, ⟨false, 25777634180859, -46⟩, ⟨false, 108003156787913, -48⟩, ⟨false, 225675059982617, -49⟩, ⟨false, 117615026895997, -48⟩, ⟨false, 122336970251841, -48⟩, ⟨false, 127004637194593, -48⟩] ++
  [⟨false, 131619261319385, -48⟩, ⟨false, 136182034637705, -48⟩, ⟨false, 281388218851323, -49⟩, ⟨false, 145156599970689, -48⟩, ⟨false, 149570584223303, -48⟩, ⟨false, 38484276340015, -46⟩, ⟨false, 158257173263369, -48⟩, ⟨false, 162531765923423, -48⟩]

/-- S[j], sin(πj/128) rounded with `n48` (R50). -/
def sfuS : List Dy :=
  [⟨false, 0, 0⟩, ⟨false, 55261933815501, -51⟩, ⟨false, 220981159816897, -52⟩, ⟨false, 10353291912973, -47⟩, ⟨false, 220714978332065, -51⟩, ⟨false, 34455541950835, -48⟩, ⟨false, 82601913760133, -49⟩, ⟨false, 96242987314431, -49⟩] ++
  [⟨false, 13728260961491, -46⟩, ⟨false, 246686065881723, -50⟩, ⟨false, 273571361917689, -50⟩, ⟨false, 37536483599341, -47⟩, ⟨false, 20426968192415, -46⟩, ⟨false, 11036695071667, -45⟩, ⟨false, 189652127275263, -49⟩, ⟨false, 202602894053933, -49⟩] ++
  [⟨false, 215431620425035, -49⟩, ⟨false, 57032644710875, -47⟩, ⟨false, 120346059965811, -48⟩, ⟨false, 253108677086755, -49⟩, ⟨false, 132686385519577, -48⟩, ⟨false, 138738507178603, -48⟩, ⟨false, 144707057948671, -48⟩, ⟨false, 150588442597977, -48⟩] ++
  [⟨false, 78189559200163, -47⟩, ⟨false, 162075597269143, -48⟩, ⟨false, 83837223929281, -47⟩, ⟨false, 86586148815171, -47⟩, ⟨false, 178565834885359, -48⟩, ⟨false, 183851810758447, -48⟩, ⟨false, 189027041175397, -48⟩, ⟨false, 194088408770919, -48⟩] ++
  [⟨false, 99516432383215, -47⟩]

/-- C[j], cos(πj/128) rounded with `n48` (R50). -/
def sfuC : List Dy :=
  [⟨false, 1, 0⟩, ⟨false, 35173775213773, -45⟩, ⟨false, 70283981943515, -46⟩, ⟨false, 140356154033697, -47⟩, ⟨false, 280119597762857, -48⟩, ⟨false, 279358153886975, -48⟩, ⟨false, 278428435105065, -48⟩, ⟨false, 277331001444957, -48⟩] ++
  [⟨false, 138033256979827, -47⟩, ⟨false, 68658933582283, -46⟩, ⟨false, 273039524401543, -48⟩, ⟨false, 271278845674059, -48⟩, ⟨false, 269354758713711, -48⟩, ⟨false, 267268422518537, -48⟩, ⟨false, 265021093819447, -48⟩, ⟨false, 131307063161609, -47⟩] ++
  [⟨false, 130024484948533, -47⟩, ⟨false, 128663584847653, -47⟩, ⟨false, 63612591307151, -46⟩, ⟨false, 15713768086025, -44⟩, ⟨false, 124119383671543, -47⟩, ⟨false, 244907715558569, -48⟩, ⟨false, 120714570261945, -47⟩, ⟨false, 14862821100161, -44⟩] ++
  [⟨false, 234037889758477, -48⟩, ⟨false, 57532416560207, -46⟩, ⟨false, 113041410608669, -47⟩, ⟨false, 6934368511129, -43⟩, ⟨false, 108791549678685, -47⟩, ⟨false, 213135342435515, -48⟩, ⟨false, 208559200753021, -48⟩, ⟨false, 203857430806525, -48⟩] ++
  [⟨false, 99516432383215, -47⟩]

/-- A[j], atan(j/64)/π rounded with `n48` (R50). -/
def sfuA : List Dy :=
  [⟨false, 0, 0⟩, ⟨false, 89588977505299, -54⟩, ⟨false, 179134238851633, -54⟩, ⟨false, 134296097868119, -53⟩, ⟨false, 178959757317671, -53⟩, ⟨false, 6985519404263, -48⟩, ⟨false, 134002731484801, -52⟩, ⟨false, 156172684050539, -52⟩] ++
  [⟨false, 178267894299571, -52⟩, ⟨false, 100139149719183, -51⟩, ⟨false, 55548518390399, -50⟩, ⟨false, 244005651851059, -52⟩, ⟨false, 132851876512487, -51⟩, ⟨false, 143639699963097, -51⟩, ⟨false, 77180984539947, -50⟩, ⟨false, 165014526356345, -51⟩] ++
  [⟨false, 87796695627549, -50⟩, ⟨false, 186094766442951, -51⟩, ⟨false, 196515042981259, -51⟩, ⟨false, 51712701120119, -49⟩, ⟨false, 217098830236791, -51⟩, ⟨false, 113628048688679, -50⟩, ⟨false, 14832486378015, -47⟩, ⟨false, 30910907460753, -48⟩] ++
  [⟨false, 128578052209899, -50⟩, ⟨false, 266924087655091, -51⟩, ⟨false, 138294587947621, -50⟩, ⟨false, 143074763929311, -50⟩, ⟨false, 147801745476087, -50⟩, ⟨false, 152474798581479, -50⟩, ⟨false, 78546639607439, -49⟩, ⟨false, 161656630778245, -50⟩] ++
  [⟨false, 20770547670515, -47⟩, ⟨false, 170616140844533, -50⟩, ⟨false, 175011597819419, -50⟩, ⟨false, 11209407278243, -46⟩, ⟨false, 183632733216319, -50⟩, ⟨false, 11741134598981, -46⟩, ⟨false, 48006687166745, -48⟩, ⟨false, 98069275923803, -49⟩] ++
  [⟨false, 200193655402465, -50⟩, ⟨false, 51048051787241, -48⟩, ⟨false, 26016800890503, -47⟩, ⟨false, 106010252155593, -49⟩, ⟨false, 215850793428291, -50⟩, ⟨false, 6863300368333, -45⟩, ⟨false, 223345336231095, -50⟩, ⟨false, 227010380168717, -50⟩] ++
  [⟨false, 230621190693071, -50⟩, ⟨false, 58544561452237, -48⟩, ⟨false, 118841025880983, -49⟩, ⟨false, 241133140476021, -50⟩, ⟨false, 61133016775173, -48⟩, ⟨false, 123939703834895, -49⟩, ⟨false, 251175756871495, -50⟩, ⟨false, 254421725929763, -50⟩] ++
  [⟨false, 128808970298055, -49⟩, ⟨false, 260765039250309, -50⟩, ⟨false, 263863671108081, -50⟩, ⟨false, 266914494533443, -50⟩, ⟨false, 134959087726537, -49⟩, ⟨false, 8527355808429, -45⟩, ⟨false, 275786802471557, -50⟩, ⟨false, 8707909541687, -45⟩] ++
  [⟨false, 1, -2⟩]

def sfuE1 : FV := .fin false 0xB17217F7D1CF (-48)
def sfuE2 : FV := .fin false 0x3D7F7BFF058B (-48)
def sfuE3 : FV := .fin false 0xE35846B8250 (-48)
def sfuG1 : FV := .fin false 0x171547652B830 (-48)
def sfuG2 : FV := .fin true 0xB8AA3B295C18 (-48)
def sfuG3 : FV := .fin false 0x7B1C2770E810 (-48)
def sfuG4 : FV := .fin true 0x5C551D94AE0C (-48)
def sfuP1 : FV := .fin false 0x3243F6A8885A3 (-48)
def sfuP3 : FV := .fin false 0x52AEF39896F95 (-48)
def sfuP2 : FV := .fin false 0x4EF4F326F9178 (-48)
def sfuP4 : FV := .fin false 0x40F07C206D6B1 (-48)
def sfuQ1 : FV := .fin false 0x517CC1B72722 (-48)
def sfuQ3 : FV := .fin true 0x1B2995E7B7B6 (-48)
def sfuQ5 : FV := .fin false 0x104C26BE3B07 (-48)

/-! ### ext48 -/

/-- `t48` of R50: toward zero to 48 significant bits. -/
def t48 : FV → FV
  | .fin n m e => if m < 2 ^ 48 then .fin n m e else .fin n (m / 2 ^ (m.log2 - 47)) (e + (m.log2 - 47 : Nat))
  | x => x

/-- An exact sum of finite values. -/
def exAdd (a b : FV) : FV := (sumFV [a, b]).1
/-- An exact difference. -/
def exSub (a b : FV) : FV := (sumFV [a, b.neg]).1
/-- An exact product. -/
def exMul (a b : FV) : FV := (a.mul b).1

/-- The operations of the pseudocode of R51, each followed by `t48`. -/
def tAdd (a b : FV) : FV := t48 (exAdd a b)
def tSub (a b : FV) : FV := t48 (exSub a b)
def tMul (a b : FV) : FV := t48 (exMul a b)
/-- A quotient to 48 bits toward zero. -/
def tDiv (a b : FV) : FV := t48 (a.div b).1

/-- Multiplication by a power of two, exact. -/
def FV.scale (x : FV) (k : Int) : FV :=
  match x with
  | .fin n m e => .fin n m (e + k)
  | x => x

/-- floor of 2^k times a finite value. -/
def FV.floorAt (x : FV) (k : Int) : Int :=
  match x with
  | .fin n m e =>
    let q := e + k
    let v : Int := if n then -(m : Int) else m
    if 0 ≤ q then v * (2 ^ q.toNat : Nat) else v / (2 ^ (-q).toNat : Nat)
  | _ => 0

/-- The integer i in units of 2^k. -/
def dyadic (i : Int) (k : Int) : FV := (FV.ofInt i).scale k

/-! ### The reference algorithms (R51) for finite operands -/

/-- SF.EXP2. -/
def refExp2 (x : FV) : FV :=
  let x := if x.lt (dyadic (-152) 0) then dyadic (-152) 0 else if (dyadic 129 0).lt x then dyadic 129 0 else x
  let m := x.floorAt 6
  let n := m / 64
  let j := (m % 64).toNat
  let r := exSub x (dyadic m (-6))
  let p := tMul r (tAdd sfuE1 (tMul r (tAdd sfuE2 (tMul r sfuE3))))
  (tAdd (entry sfuT j) (tMul (entry sfuT j) p)).scale n

/-- SF.LOG2 of a value above zero. -/
def refLog2 (x : FV) : FV :=
  match x with
  | .fin _ m e0 =>
    let e := e0 + (m.log2 : Int)
    let mant := FV.fin false m (-(m.log2 : Int))
    let big := !mant.lt (dyadic 3 (-1))
    let mant := if big then mant.scale (-1) else mant
    let e := if big then e + 1 else e
    let j := (mant.floorAt 6 - 48).toNat
    let r := t48 (exSub (exMul mant (entry sfuINV j)) (dyadic 1 0))
    let p := tMul r (tAdd sfuG1 (tMul r (tAdd sfuG2 (tMul r (tAdd sfuG3 (tMul r sfuG4))))))
    tAdd (tAdd (dyadic e 0) (entry sfuL j)) p
  | x => x

/-- The nearest integer to 2x, ties to even, and sin and cos of π(x − k/2) (R51). -/
def refTrig (x : FV) : Int × FV × FV :=
  let f := x.floorAt 1
  let d := exSub (x.scale 1) (dyadic f 0)
  let half := dyadic 1 (-1)
  let k := if d.lt half then f else if half.lt d then f + 1 else if f % 2 = 0 then f else f + 1
  let y := exSub x (dyadic k (-1))
  let a := y.abs
  let j := (exAdd (a.scale 7) half).floorAt 0
  let t := exSub a (dyadic j (-7))
  let u := tMul t t
  let sp := tMul t (tSub sfuP1 (tMul u sfuP3))
  let cp := tSub (dyadic 1 0) (tMul u (tSub sfuP2 (tMul u sfuP4)))
  let S := entry sfuS j.toNat
  let C := entry sfuC j.toNat
  let sn := FV.negIf y.isNeg (tAdd (tMul S cp) (tMul C sp))
  let cs := tSub (tMul C cp) (tMul S sp)
  (k, sn, cs)

/-- SF.SINPI; a zero takes the sign of x. -/
def refSinpi (x : FV) : FV :=
  let (k, sn, cs) := refTrig x
  let r := match (k % 4).toNat with
    | 0 => sn
    | 1 => cs
    | 2 => sn.neg
    | _ => cs.neg
  if r.isZero then .fin x.sign 0 0 else r

/-- SF.COSPI; a zero is +0. -/
def refCospi (x : FV) : FV :=
  let (k, sn, cs) := refTrig x
  let r := match (k % 4).toNat with
    | 0 => cs
    | 1 => sn.neg
    | 2 => cs.neg
    | _ => sn
  if r.isZero then .fin false 0 0 else r

/-- SF.ATAN2PI, not both zero, neither infinite. -/
def refAtan2 (ya xb : FV) : FV :=
  let ay := ya.abs
  let ax := xb.abs
  let steep := ax.lt ay
  let v := if steep then tDiv ax ay else tDiv ay ax
  let j := (exAdd (v.scale 6) (dyadic 1 (-1))).floorAt 0
  let c := dyadic j (-6)
  let w := tDiv (tSub v c) (tAdd (dyadic 1 0) (tMul v c))
  let ww := tMul w w
  let th := tAdd (entry sfuA j.toNat) (tMul w (tAdd sfuQ1 (tMul ww (tAdd sfuQ3 (tMul ww sfuQ5)))))
  let th := if steep then tSub (dyadic 1 (-1)) th else th
  let th := if xb.sign then tSub (dyadic 1 0) th else th
  if ya.sign then th.neg else th

/-! ### The functions with their special cases (R49, R52) -/

/-- The functions of the SFU. -/
inductive SfuOp where
  | rcp | rsq | sqrt | exp2 | log2 | sinpi | cospi | atan2pi
  deriving DecidableEq, Repr

/-- 1/√x of a finite value above zero, to more than 120 bits with its sticky bit. -/
def rsqMag (m : Nat) (e : Int) : FV :=
  let s : Nat := 260 + m.log2 + (if (m.log2 + e) % 2 = 0 then 0 else 1)
  let r := isqrt (2 ^ s / m)
  .fin false (2 * r + (if r * r * m = 2 ^ s then 0 else 1)) (-((s : Int) + e) / 2 - 1)

/-- The exact or ext48 value of a function of one operand, with the flags of its special cases. -/
def SfuOp.value1 (op : SfuOp) (x : FV) : FV × Flags :=
  match x with
  | .nan s => (.nan false, flagIf s fNV)
  | .inf n =>
    match op with
    | .rcp => (.fin n 0 0, 0)
    | .sqrt => if n then (.nan false, fNV) else (.inf false, 0)
    | .rsq => if n then (.nan false, fNV) else (.fin false 0 0, 0)
    | .exp2 => if n then (.fin false 0 0, 0) else (.inf false, 0)
    | .log2 => if n then (.nan false, fNV) else (.inf false, 0)
    | .sinpi | .cospi | .atan2pi => (.nan false, fNV)
  | .fin n m e =>
    match op with
    | .rcp => if m = 0 then (.inf n, fDZ) else (dyadic 1 0).div x
    | .sqrt => x.sqrt
    | .rsq => if m = 0 then (.inf n, fDZ) else if n then (.nan false, fNV) else (rsqMag m e, 0)
    | .exp2 => (refExp2 x, 0)
    | .log2 => if m = 0 then (.inf true, fDZ) else if n then (.nan false, fNV) else (refLog2 x, 0)
    | .sinpi => (if m = 0 then x else refSinpi x, 0)
    | .cospi => (refCospi x, 0)
    | .atan2pi => (.nan false, 0)

/-- The value of SF.ATAN2PI with its special cases (Table 2.5). -/
def sfuAtan2 (y x : FV) : FV × Flags :=
  let n := y.sign
  if y.isNan || x.isNan then (.nan false, y.sigFlag ||| x.sigFlag)
  else if y.isInf && x.isInf then (FV.negIf n (if x.sign then dyadic 3 (-2) else dyadic 1 (-2)), 0)
  else if y.isInf then (FV.negIf n (dyadic 1 (-1)), 0)
  else if x.isInf || (y.isZero && x.isZero) then (FV.negIf n (if x.sign then dyadic 1 0 else .fin false 0 0), 0)
  else (refAtan2 y x, 0)

/-! ### The instructions -/

/-- An operand as FP32: none where an integer is not exactly representable (R274). -/
def sfuArg (t : Tag) (x : Nat) : Option FV :=
  let v := t.value x
  if t.isInt && ((v.round .f32 .rne false).2 != 0) then none else some v

/-- The bits of an operand that faults, sign-extended or zero-extended by its tag (R274). -/
def sfuTval (t : Tag) (x : Nat) : Word := BitVec.ofInt 64 (t.int x)

/-- The accepted source and destination tags (Table 14.2). -/
def sfuSource (t : Tag) : Bool := t.isInt || t.isFloat
def sfuDest (t : Tag) : Bool := t.isFloat || t == .raw

/-- Element results: the operand that faults, or the bits for vd with the flags of both roundings (R274). -/
def SfuOp.elem1 (op : SfuOp) (r : Rnd) (t dt : Tag) (x : Nat) : Except Word (Nat × Flags) :=
  match sfuArg t x with
  | none => .error (sfuTval t x)
  | some v =>
    let (q, fl) := op.value1 v
    let (b, f2) := r.into .f32 q
    let (w, f3) := r.convert false .f32 dt b
    .ok (w, fl ||| f2 ||| f3)

/-- Element results of SF.ATAN2PI: ya is va's, xb is vb's. -/
def sfuElem2 (r : Rnd) (ta tb dt : Tag) (y x : Nat) : Except Word (Nat × Flags) :=
  match sfuArg ta y, sfuArg tb x with
  | none, _ => .error (sfuTval ta y)
  | _, none => .error (sfuTval tb x)
  | some u, some v =>
    let (q, fl) := sfuAtan2 u v
    let (b, f2) := r.into .f32 q
    let (w, f3) := r.convert false .f32 dt b
    .ok (w, fl ||| f2 ||| f3)

/-- What a VSFU instruction that passes its checks computes. -/
structure SfuPlan where
  dest : Dest
  elem : Nat → Except Word (Nat × Flags)

/-- The checks of R273 for a function of one operand. -/
def SfuOp.plan1 (op : SfuOp) (r : Rnd) (d a : Nat) (c : VCtx) : Except Nat SfuPlan := do
  let ta := c.tag a
  let dt := (c.tag d).orPromoted (some .f32)
  let l ← checkLayout c.g true [(d, dt), (a, ta)]
  failIf (!sfuSource ta || !sfuDest (c.tag d)) 0x20
  .ok ⟨⟨d, l.sizes.headD 1, dt, dt, l.half, l.per, false⟩, fun e => op.elem1 r ta dt (c.elem a ta e)⟩

/-- The checks of R273 for SF.ATAN2PI. -/
def planAtan2 (r : Rnd) (d a b : Nat) (c : VCtx) : Except Nat SfuPlan := do
  let ta := c.tag a
  let tb := c.tag b
  let dt := (c.tag d).orPromoted (some .f32)
  let p := ta.promote tb
  let l ← checkLayout c.g true [(d, dt), (a, ta.orPromoted p), (b, tb.orPromoted p)]
  failIf (!sfuSource ta || !sfuSource tb || !sfuDest (c.tag d)) 0x20
  .ok ⟨⟨d, l.sizes.headD 1, dt, dt, l.half, l.per, false⟩, fun e => sfuElem2 r ta tb dt (c.elem a ta e) (c.elem b tb e)⟩

/-- The active elements in order, with the word that governs each. -/
def VCtx.activeElems (c : VCtx) (d : Dest) : List (Nat × Nat) :=
  ((c.units d.half).filter (c.unitOn d.half)).flatMap fun u => (d.elems u).map fun e => (unitWords d.half * u, e)

/-- Set bits of mf with one cause (R195). -/
def VCtx.setMf (c : VCtx) (code : Nat) (ws : List Nat) : VCtx :=
  { c with
    mf := ws.foldl (fun m w => m ||| BitVec.twoPow 2048 w) c.mf
    mfc := ws.foldl (fun m w => sset 0 m w code) c.mfc }

/-- A VSFU instruction (R274). With SE = 1 a faulting element is written as 0 and marks `mf` (R194); with SE = 0 the elements below
the lowest faulting one are written and it traps with code 0x30. -/
def State.sfu (s : State) (word : Nat) (plan : VCtx → Except Nat SfuPlan) : Out :=
  if !s.me.ctx.leased then ok (s.illegal 0x01 word)
  else
    let c := s.me.ctx
    match plan c with
    | .error e => ok (s.illegal e word)
    | .ok p =>
      let faults := (c.activeElems p.dest).filterMap fun x =>
        match p.elem x.2 with
        | .error v => some (x.1, x.2, v)
        | .ok _ => none
      let f (e : Nat) : Nat × Flags := match p.elem e with
        | .ok q => q
        | .error _ => (0, 0)
      match c.se, faults with
      | false, (w, e, v) :: _ =>
        let below := ((c.activeElems p.dest).filter fun x => decide (x.2 < e)).map fun x => (x.2, (f x.2).1)
        let s := s.modCtx fun c => (c.setTags p.dest.reg p.dest.size p.dest.tag).writeElems p.dest.reg p.dest.lay below
        ok (s.trapWith { code := 0x30, tval := v, telem := w, vstart := some w })
      | _, fs =>
        let s := s.putCtx (c.elementWise p.dest f)
        ok (s.modCtx fun c => { c.setMf 0x30 (fs.map Prod.fst) with vstart := 0 }).retire

def execSfRcp (d a : Fin 32) (z : Bool) (s : State) : Out := s.sfu (encode (.sfRcp d a z)) (SfuOp.rcp.plan1 (s.rnd z) d a)
def execSfRsq (d a : Fin 32) (z : Bool) (s : State) : Out := s.sfu (encode (.sfRsq d a z)) (SfuOp.rsq.plan1 (s.rnd z) d a)
def execSfSqrt (d a : Fin 32) (z : Bool) (s : State) : Out := s.sfu (encode (.sfSqrt d a z)) (SfuOp.sqrt.plan1 (s.rnd z) d a)
def execSfExp2 (d a : Fin 32) (z : Bool) (s : State) : Out := s.sfu (encode (.sfExp2 d a z)) (SfuOp.exp2.plan1 (s.rnd z) d a)
def execSfLog2 (d a : Fin 32) (z : Bool) (s : State) : Out := s.sfu (encode (.sfLog2 d a z)) (SfuOp.log2.plan1 (s.rnd z) d a)
def execSfSinpi (d a : Fin 32) (z : Bool) (s : State) : Out := s.sfu (encode (.sfSinpi d a z)) (SfuOp.sinpi.plan1 (s.rnd z) d a)
def execSfCospi (d a : Fin 32) (z : Bool) (s : State) : Out := s.sfu (encode (.sfCospi d a z)) (SfuOp.cospi.plan1 (s.rnd z) d a)
def execSfAtan2pi (d a b : Fin 32) (z : Bool) (s : State) : Out :=
  s.sfu (encode (.sfAtan2pi d a b z)) (planAtan2 (s.rnd z) d a b)

end Sys2Proof.Machine
end

