-- ==== Sys2Proof/Machine/Vprobe.lean ====
section
/-! DEFINITION. The probe of a vector memory instruction (R166, R171 to R174): the words of each element, their translation and
checks, and the accessed and dirty bits. -/

namespace Sys2Proof.Machine

/-- A word that the probe passed: its physical address, memory type, translation and VA. -/
structure WordAt where
  pa : Nat
  mt : Nat
  copy : Copy
  va : Nat
  deriving DecidableEq, Repr

/-- The answer of the probe of one word: a fault carries its place in Table 7.5, its code and its address. -/
inductive Probed where
  | at (w : WordAt)
  | bad (order code addr : Nat)
  | migrating
  deriving DecidableEq, Repr

/-- What an access of a vector memory instruction does at its target. -/
structure Want where
  acc : Acc
  /-- VAMO and VREDM with FADDF. -/
  faddf : Bool := false
  deriving DecidableEq, Repr

/-- The translations that a probe may use before it walks: those that the descriptor or the instruction holds (R169, R350), and the ends of
the walks that were made together (R354). -/
structure Look where
  own : List Copy
  walked : List (Nat × Joint)
  deriving DecidableEq, Repr

/-- The checks of a physical target: an AMO's performing point (R180, Table 4.7), then the access tables that are checked before commit
(R405, R406). -/
def State.targetFault (s : State) (pa : Nat) (w : Want) : Option Nat :=
  let t := s.die.target pa
  let o := s.me.id.owner
  let rw := s.die.admitsRW (tableOf pa t) o w.acc.reads w.acc.writes
  match t with
  | .hostWindow | .twinWindow => if w.acc = .rmw then some 0x11 else none
  | .mmio => if w.acc = .rmw then some 0x11 else if w.acc = .read && s.me.priv == .user then some 0x12 else none
  | .csm _ => if rw then none else some 0x12
  | .csp _ _ | .clm _ _ => if w.acc = .rmw && w.faddf then some 0x11 else if w.acc.reads && !rw then some 0x12 else none
  | .lpddr => if w.acc.reads && !rw then some 0x12 else none
  | .hole => if w.acc = .write then none else some 0x10

/-- The place in Table 7.5 of a code that translation or the target gives. -/
def faultOrder (code : Nat) : Nat := if code = 0x11 then 4 else if code = 0x12 then 5 else 3

/-- The translation of a VA of a probe. -/
def State.lookup (s : State) (va : Nat) (l : Look) (a : Acc) : XRes :=
  match ((l.walked.find? fun w => w.1 == va).map fun w => w.2 : Option Joint) with
  | some (.fault c) => .fault c s.die
  | some (.migrating c) => .migrating c s.die
  | some (.leaf c) => s.die.translate s.core s.me.id.owner s.me.xasid.toNat va a (c :: l.own)
  | _ => s.die.translate s.core s.me.id.owner s.me.xasid.toNat va a l.own

/-- An answer after the checks of the target. -/
def State.probeTarget (s : State) (w : Want) (c : Copy) (va : Nat) : Option Nat :=
  match s.die.leafFault c (c.pa va) w.acc with
  | some f => some f
  | none => s.targetFault (c.pa va) w

/-- The VA of an offset of a descriptor's space, and the size of the space (R166). -/
def spaceVa (space off : Nat) : Nat := ((if space = 1 then 0x003FFF0000000000 else if space = 2 then 0x003FFF0010000000 else 0) + off) % 2 ^ 64
def spaceSize (space : Nat) : Nat := if space = 1 then 0x40000 else if space = 2 then 0x200000 else 2 ^ 64

/-- The probe of one word at offset `off` of a descriptor's space (R166, R167, R172, Table 7.5). A page that is still migrating after its wait
faults by the first of its conditions (R173). -/
def State.probeWord (s : State) (space : Nat) (l : Look) (off : Nat) (w : Want) : Probed × State :=
  let o := s.me.id.owner
  if space = 3 then
    let pa := (0x100000000000 + off) % 2 ^ 64
    if s.die.csmWays * 0x1000000 ≤ off then (.bad 1 0x10 pa, s)
    else if off % 4 ≠ 0 then (.bad 2 0x03 pa, s)
    else match s.targetFault pa w with
      | some c => (.bad 5 c pa, s)
      | none => (.at ⟨pa, 0, Copy.window, pa⟩, s)
  else
    let va := spaceVa space off
    if spaceSize space ≤ off ∨ va / 2 ^ 54 ≠ 0 then (.bad 1 0x10 va, s)
    else if inWindow va then
      match windowPa s.core va with
      | none => (.bad 1 0x10 va, s)
      | some pa =>
        if va % 4 ≠ 0 then (.bad 2 0x03 va, s)
        else if w.acc = .rmw && w.faddf then (.bad 4 0x11 va, s)
        else if s.die.admitsRW (tableOf pa (s.die.target pa)) o w.acc.reads w.acc.writes then (.at ⟨pa, 0, Copy.window, va⟩, s)
        else (.bad 5 0x12 va, s)
    else if va % 4 ≠ 0 then (.bad 2 0x03 va, s)
    else
      match s.lookup va l w.acc with
      | .fault c d => (.bad (faultOrder c) c va, s.withDie d)
      | .migrating c d =>
        (if s.migrationOver then (match s.probeTarget w c va with
            | some f => .bad (faultOrder f) f va
            | none => .bad 6 0x13 va)
          else .migrating, s.withDie d)
      | .ok pa mt c d =>
        let s := s.withDie d
        match s.targetFault pa w with
        | some f => (.bad (faultOrder f) f va, s)
        | none => (.at ⟨pa, mt, c, va⟩, s)

/-- The probe of consecutive words, in order. -/
def State.probeWords (s : State) (space : Nat) (l : Look) (w : Want) : List Nat → List Probed × State
  | [] => ([], s)
  | off :: t =>
    let (p, s) := s.probeWord space l off w
    let (ps, s) := s.probeWords space l w t
    (p :: ps, s)

/-- An element after the probe: its index n, its words that passed, and its fault, a code and the element's address. -/
structure Elem where
  n : Nat
  words : List WordAt
  bad : Option (Nat × Nat)
  /-- It waits for a migrating page. -/
  waits : Bool
  deriving DecidableEq, Repr

/-- The words of a step at an offset. -/
def stepOffsets (off words : Nat) : List Nat := (List.range words).map fun i => (off + 4 * i) % 2 ^ 64

/-- The fault of an element (R173): the first by Table 7.5 among its words, from word `i` on, as its place, its code and the element's own
address. -/
def worstOf : List Probed → Nat → Option (Nat × Nat × Nat)
  | [], _ => none
  | .bad o c a :: t, i => match worstOf t (i + 1) with
    | some (o', f) => if o' < o then some (o', f) else some (o, c, a - 4 * i)
    | none => some (o, c, a - 4 * i)
  | _ :: t, i => worstOf t (i + 1)

/-- The fault of an element: its code, and the element's own address. -/
def firstBad (ps : List Probed) : Option (Nat × Nat) := (worstOf ps 0).map (·.2)

/-- The words that passed. -/
def goodWords : List Probed → List WordAt
  | [] => []
  | .at w :: t => w :: goodWords t
  | _ :: t => goodWords t

/-- The VAs of a probe that the TLBs miss (R354). -/
def State.missing (s : State) (space : Nat) (own : List Copy) (offs : List Nat) : List Nat :=
  if space = 3 ∨ s.die.reg (xdirAddr s.me.id.owner) % 2 = 0 then []
  else (offs.filterMap fun off =>
    let va := spaceVa space off
    if spaceSize space ≤ off ∨ va / 2 ^ 54 ≠ 0 ∨ inWindow va ∨ va % 4 ≠ 0 ∨
        (s.die.findCopy s.core s.me.id.owner s.me.xasid.toNat va own).isSome then none
    else some va)

/-- What a probe has to look translations up in: for an indexed instruction, the elements that miss are walked together; a swept one walks a
page at a time (R354). -/
def State.lookFor (s : State) (space words : Nat) (own : List Copy) (indexed : Bool) (es : List (Nat × Nat)) : Look × State :=
  if !indexed then (⟨own, []⟩, s)
  else match s.missing space own (es.flatMap fun e => stepOffsets e.2 words) with
    | [] => (⟨own, []⟩, s)
    | vas =>
      let (ws, d) := s.die.walkTogether s.core s.me.id.owner s.me.xasid.toNat vas
      (⟨own, ws⟩, s.withDie d)

/-- The probe of elements, one by one: index and offset. -/
def State.probeEach (s : State) (space words : Nat) (l : Look) (w : Want) : List (Nat × Nat) → List Elem × State
  | [] => ([], s)
  | (n, off) :: t =>
    let (ps, s) := s.probeWords space l w (stepOffsets off words)
    let (es, s) := s.probeEach space words l w t
    (⟨n, goodWords ps, firstBad ps, ps.any fun p => p == .migrating⟩ :: es, s)

/-- The probe of every element (R173). -/
def State.probeElems (s : State) (space words : Nat) (own : List Copy) (indexed : Bool) (w : Want) (es : List (Nat × Nat)) : List Elem × State :=
  let (l, s) := s.lookFor space words own indexed es
  s.probeEach space words l w es

/-- A descriptor without a translation. -/
def Desc.forget (d : Desc) (c : Copy) : Desc := { d with xlat := d.xlat.filter (· != c) }

/-- Set the accessed and dirty bits of a list of words after the whole probe (R343): the outcome is a fault with its address, or whether
every entry was as it had been read. A translation whose entry changed, or whose entry has an error, is discarded wherever the strand holds
it (R357). -/
def State.commitAD (s : State) (write : Bool) : List WordAt → Except (Nat × Nat) Bool × State
  | [] => (.ok true, s)
  | w :: t =>
    let forget (s : State) : State := s.modMe fun m => { m with ctx := { m.ctx with sd := m.ctx.sd.map fun e => (e.1, e.2.forget w.copy) } }
    match s.die.setAD s.core s.me.id.owner w.copy write with
    | .error (c, d) => (.error (c, w.va), forget (s.withDie d))
    | .ok (same, d) =>
      let (r, s) := (if same then s.withDie d else forget (s.withDie d)).commitAD write t
      match r with
      | .ok b => (.ok (same && b), s)
      | .error e => (.error e, s)

/-- One word a distinct table entry. -/
def distinctEntries (ws : List WordAt) : List WordAt :=
  ws.foldl (fun acc w => if acc.any fun x => x.copy.entry == w.copy.entry then acc else acc ++ [w]) []

/-- An element on a device-ordered page (Table 18.4, MT = 1). -/
def Elem.device (e : Elem) : Bool := e.words.any fun w => w.mt == 1

/-- The address of an element, for TVAL. -/
def Elem.addr (e : Elem) : Nat :=
  match e.bad with
  | some (_, a) => a
  | none => (e.words.head?.map (·.va)).getD 0

end Sys2Proof.Machine
end

