-- ==== Sys2Proof/Machine/Vmem.lean ====
section
/-! DEFINITION. The vector memory instructions (R170 to R189). -/

namespace Sys2Proof.Machine

/-! ### What an instruction accesses -/

/-- The active elements of an instruction with their offsets (R171): swept, or indexed by a register. -/
def VCtx.elements (c : VCtx) (d : Desc) (idx : Option Nat) (half : Bool) : List (Nat × Nat) :=
  ((c.units half).filter (c.unitOn half)).map fun n => (n, match idx with
    | none => (d.adv n).offset
    | some r => d.indexed (if c.tag r = .i32 then toSigned 32 (c.word r n) else c.word r n))

/-- The words that an element governs in a mask (R174). -/
def maskWords (half : Bool) (n : Nat) : List Nat := if half then [2 * n, 2 * n + 1] else [n]

/-- The fault mask and causes of a whole probe (R28, R195). -/
def probeMask (half : Bool) (es : List Elem) : BitVec 2048 × List (Nat × Nat) :=
  let c := es.foldl (fun (c : VCtx) e => match e.bad with
    | some (code, _) => c.setMf code (maskWords half e.n)
    | none => c) VCtx.absent
  (c.mf, c.mfc)

/-- Clear bits of mf; a bit that is cleared has no cause (R195). -/
def VCtx.clearMf (c : VCtx) (ws : List Nat) : VCtx :=
  { c with mf := ws.foldl (fun m w => m &&& ~~~BitVec.twoPow 2048 w) c.mf, mfc := ws.foldl (fun m w => sset 0 m w 0) c.mfc }

/-- What a probe fault at the lowest faulting element records (R174). -/
def probeTrap (c : VCtx) (d : Desc) (swept half : Bool) (es : List Elem) (n code addr : Nat) : TrapVals where
  code := code
  tval := BitVec.ofNat 64 addr
  telem := unitWords half * n
  tidx3 := if swept then (d.adv n).tidx3 else 0
  mf := some (probeMask half es)
  vstart := some c.vstart

/-- The first faulting element: its index, code and address. -/
def lowestBad : List Elem → Option (Nat × Nat × Nat)
  | [] => none
  | e :: t => match e.bad with
    | some (c, a) => some (e.n, c, a)
    | none => lowestBad t

/-- A data fault of element `n` (R175). -/
def dataTrap (d : Desc) (swept half : Bool) (n code va : Nat) : TrapVals where
  code := code
  tval := BitVec.ofNat 64 va
  telem := unitWords half * n
  tidx3 := if swept then (d.adv n).tidx3 else 0
  vstart := some (unitWords half * n)

/-- An instruction waits at a word: those below it are complete. It becomes the IDX of its slot. -/
def VCtx.inFlight (c : VCtx) (word : Nat) : VCtx := { c with vstart := word }

/-! ### Loading -/

/-- How a sequence of element loads ended. -/
inductive LoadStop where
  | done
  /-- A data error at element `n`. -/
  | bad (n code va : Nat)
  /-- Element `n`, at a VA, waits for a link. -/
  | link (n va : Nat) (q : HostReq)
  deriving DecidableEq, Repr

/-- The accesses that the words of an element take, each with its bytes: a cf32 element in a link window, at a multiple of 8, is one
(R315). -/
def linkParts : List WordAt → List (WordAt × Nat)
  | [w, x] => if w.va % 8 = 0 ∧ 0x800000000000 ≤ w.pa then [(w, 8)] else [(w, 4), (x, 4)]
  | ws => ws.map fun w => (w, 4)

/-- The answer of a load of each part, in order. -/
def State.loadParts (s : State) : List (WordAt × Nat) → LoadRes
  | [] => .ok [] s
  | (w, n) :: t => match s.loadLinked w.va w.pa n with
    | .trap c _ s => .trap c w.va s
    | .wait k _ s => .wait k w.pa s
    | .ok bs s' => match s'.loadParts t with
      | .ok rest s => .ok (bs ++ rest) s
      | r => r

/-- The words of an element. -/
def State.elemWords (s : State) (ws : List WordAt) : LoadRes := s.loadParts (linkParts ws)

/-- The request of the part at a physical address, which waits. -/
def partRead (ws : List WordAt) (pa : Nat) : HostReq :=
  match (linkParts ws).find? fun p => p.1.pa == pa with
  | some (w, n) => linkRead w.va pa n
  | none => linkRead 0 pa 4

/-- Load elements in ascending order; with `sc` each draws a ticket (R186). -/
def State.loadElems (sc : Bool) : State → List Elem → List (Nat × Nat) × State × LoadStop
  | s, [] => ([], s, .done)
  | s, e :: t =>
    match (if sc then s.modDie Die.ticket else s).elemWords e.words with
    | .trap c _ s => ([], s, .bad e.n c e.addr)
    | .wait _ pa _ => ([], s, .link e.n e.addr (partRead e.words pa))
    | .ok bs s =>
      let (vs, s, r) := State.loadElems sc s t
      ((e.n, leVal bs) :: vs, s, r)

/-- The destination of a load (R170). -/
def loadDest (c : VCtx) (v : Nat) (tag : Tag) (half : Bool) : Dest := ⟨v, c.g, if half then .cf32 else .raw, tag, half, 1, false⟩

/-- A value of a list, by element. -/
def valueOf (vs : List (Nat × Nat)) (e : Nat) : Nat := ((vs.find? fun x => x.1 == e).map Prod.snd).getD 0

/-- Write the elements of a finished load (R176). -/
def VCtx.putLoaded (c : VCtx) (dest : Dest) (vs : List (Nat × Nat)) : VCtx :=
  (c.elementInto c dest fun e => (valueOf vs e, 0)).1

/-- Write the elements below `n` of a load that stops there (R175). -/
def VCtx.putBelow (c : VCtx) (dest : Dest) (half : Bool) (n : Nat) (vs : List (Nat × Nat)) : VCtx :=
  let c' := { c with vl := unitWords half * n, vmc := c.vmc &&& ~~~(8 : BitVec 7) }
  (c'.elementInto c dest fun e => (valueOf vs e, 0)).1

/-- The heat of an instruction (R355). -/
def heatOf (d : Desc) (swept : Bool) : Heat :=
  if !swept then .indexed else if d.stride0.toInt = 4 * d.stepWords then .unit else .strided

/-- Count the elements of an instruction that has completed; one that runs from the vector queue is counted when it leaves it. -/
def State.countHeat (s : State) (d : Desc) (swept : Bool) (es : List Elem) : State :=
  if s.me.ctx.queue = [] then s.modDie fun x => x.hotCounts (heatOf d swept) (es.filterMap fun e => e.words.head?.map (·.copy)) else s

/-! ### Translations ahead of a sweep (R169) -/

/-- The translation of a page that a sweep reaches; a page without one gives none. -/
def State.aheadPage (s : State) (va : Nat) (own : List Copy) : Option Copy × State :=
  let o := s.me.id.owner
  let a := s.me.xasid.toNat
  if va / 2 ^ 54 ≠ 0 ∨ inWindow va ∨ s.die.reg (xdirAddr o) % 2 = 0 then (none, s)
  else match s.die.findCopy s.core o a va own with
    | some c => (some c, s)
    | none => match s.die.walk (walkerOf s.core) o a va with
      | .leaf c d => (some c, s.withDie (d.keepCopy s.core c))
      | .fault _ d | .migrating _ d => (none, s.withDie d)

/-- The next two pages that a sweep reaches beyond its current one, among the VAs of its next steps. -/
def State.aheadPages (cur : Option Copy) : State → List Nat → List Copy → List Copy × State
  | s, [], l => (l, s)
  | s, va :: t, l =>
    if 2 ≤ l.length then (l, s)
    else if (cur.toList ++ l).any fun c => c.covers s.me.id.owner s.me.xasid.toNat va then State.aheadPages cur s t l
    else
      let (p, s) := s.aheadPage va l
      State.aheadPages cur s t (l ++ p.toList)

/-- Fill the XLAT fields of a descriptor: a boundary is near where the next `n` steps, as many as the instruction took, reach another page
(log 11). -/
def State.fillXlat (s : State) (sd n : Nat) : State :=
  let d := s.me.ctx.desc sd
  if d.space ≠ 0 then s
  else
    let vas := (List.range n).map fun i => spaceVa 0 (d.adv i).offset
    let (cur, s) := match vas with
      | va :: _ => s.aheadPage va d.xlat
      | [] => (none, s)
    let (l, s) := State.aheadPages cur s vas []
    let old := d.xlat.filter fun c => some c != cur && !l.contains c
    s.modCtx fun c => c.setDesc sd { c.desc sd with xlat := (l ++ old).take 2 }

/-- A swept instruction completes: the position becomes adv(st, n) (R171). -/
def State.sweepDone (s : State) (sd : Nat) (d : Desc) (swept : Bool) (n : Nat) : State :=
  if !swept then s
  else
    let s := s.modCtx fun c => c.setDesc sd (d.adv n)
    if s.me.ctx.queue = [] then s.fillXlat sd n else s

/-- The tag checks of a load or store (R170): 0x20 for TAG 15, for a store whose data register disagrees, for an index register that is
neither integer nor raw. -/
def memTags (c : VCtx) (d : Desc) (store : Option Nat) (idx : Option Nat) : Except Nat Tag :=
  match d.etag with
  | none => .error 0x20
  | some t => do
    match store with
    | some v => failIf (c.tag v != t && c.tag v != .raw && t != .raw) 0x20
    | none => pure ()
    match idx with
    | some r => failIf (c.tag r != .i32 && c.tag r != .ui32 && c.tag r != .raw) 0x20
    | none => pure ()
    return t

/-- The decode checks of a load or store: groups, overlap, tags (R170, R198). -/
def memChecks (c : VCtx) (d : Desc) (v : Nat) (load : Bool) (idx : Option Nat) : Except Nat Tag := do
  let srcs := idx.toList.map fun r => (⟨r, c.g⟩ : Span)
  match (if load then spanFault false (some ⟨v, c.g⟩) srcs else spanFault true none (⟨v, c.g⟩ :: srcs)) with
  | some e => .error e
  | none => memTags c d (if load then none else some v) idx

/-- Any element waits for a migrating page. -/
def anyWaits (es : List Elem) : Bool := es.any fun e => e.waits

/-- The outcome of a load after its accessed bits are set: written elements, a trap, or a wait. -/
def State.finishLoad (s : State) (v sd : Nat) (d : Desc) (tag : Tag) (swept half sc : Bool) (n : Nat) (es : List Elem) : State :=
  let dest := loadDest s.me.ctx v tag half
  match s.loadElems sc es with
  | (vs, s, .done) =>
    (((s.modCtx fun c => c.putLoaded dest vs).sweepDone sd d swept n).countHeat d swept es).retireVec
  | (vs, s, .bad e code va) => (s.modCtx fun c => c.putBelow dest half e vs).trapWith (dataTrap d swept half e code va)
  | (vs, s, .link e va q) =>
    match s.linkFault q with
    | some code => (s.modCtx fun c => c.putBelow dest half e vs).trapWith (dataTrap d swept half e code va)
    | none => (s.modCtx fun c => (c.putBelow dest half e vs).inFlight (unitWords half * e)).linkWait q

/-- A retry of an instruction whose table entry changed between its probe and its OR: the probe again (R343), once. -/
def State.withAD (s : State) (write : Bool) (es : List Elem) (good : State → State) (again : State → State)
    (bad : Nat → Nat → State → State) : State :=
  match s.commitAD write (distinctEntries (es.flatMap (·.words))) with
  | (.ok true, s) => good s
  | (.ok false, s) => again s
  | (.error (c, va), s) => bad c va s

/-- The element that an address of a word belongs to: its index and its address. -/
def elemAt (es : List Elem) (va : Nat) : Nat × Nat :=
  ((es.find? fun e => e.words.any fun w => w.va == va).map fun e => (e.n, e.addr)).getD (0, va)

/-- What a fault of the OR of a word's entry records (R343, R357): the fault of the element that holds it. -/
def orTrap (c : VCtx) (d : Desc) (swept half : Bool) (es : List Elem) (code va : Nat) : TrapVals :=
  let f := elemAt es va
  probeTrap c d swept half (es.map fun e => if e.n = f.1 then { e with bad := some (code, f.2) } else e) f.1 code f.2

/-- VLD and VGATH (R176). -/
def State.vload (s : State) (word v sd : Nat) (idx : Option Nat) (sc : Bool) : Out :=
  let c := s.me.ctx
  let d := c.desc sd
  let swept := idx.isNone
  if !c.leased then ok (s.illegal 0x01 word)
  else match memChecks c d v true idx with
    | .error e => ok (s.illegal e word)
    | .ok tag =>
      let half := tag == .cf32
      let s := s.modCtx fun c => c.setTags v c.g tag
      let n := c.vl / unitWords half
      let (es, s) := s.probeElems d.space.toNat d.stepWords d.xlat idx.isSome ⟨.read, false⟩ (c.elements d idx half)
      match lowestBad es with
      | some (e, code, a) =>
        ok (if anyWaits es then s.waitIn .migrating else s.trapWith (probeTrap c d swept half es e code a))
      | none =>
        if anyWaits es then ok (s.waitIn .migrating)
        else ok (s.withAD false es (fun s => s.finishLoad v sd d tag swept half sc n es) (fun s => s)
          (fun code va s => s.trapWith (orTrap c d swept half es code va)))

def execVld (d : Fin 32) (sd : Fin 16) (c : Bool) (s : State) : Out := s.vload (encode (.vld d sd c)) d sd none c
def execVgath (d : Fin 32) (sd : Fin 16) (i : Fin 32) (c : Bool) (s : State) : Out :=
  s.vload (encode (.vgath d sd i c)) d sd (some i.val) c

/-! ### First-fault and speculative loads -/

/-- An element on a device-ordered page counts as faulting with code 0x11 (R178, R179); `keep` is the one that does not. -/
def Elem.deviceFault (keep : Option Nat) (e : Elem) : Elem :=
  if e.bad = none ∧ e.device ∧ keep ≠ some e.n then { e with bad := some (0x11, e.addr) } else e

/-- VLDFF (R178). -/
def execVldff (v : Fin 32) (sd : Fin 16) (s : State) : Out :=
  let word := encode (.vldff v sd)
  let c := s.me.ctx
  let d := c.desc sd
  if !c.leased then ok (s.illegal 0x01 word)
  else match memChecks c d v true none with
    | .error e => ok (s.illegal e word)
    | .ok tag =>
      let half := tag == .cf32
      let s := s.modCtx fun c => c.setTags v c.g tag
      let (es, s) := s.probeElems d.space.toNat d.stepWords d.xlat false ⟨.read, false⟩ (c.elements d none half)
      let first := es.head?.map (·.n)
      let es := es.map (Elem.deviceFault first)
      if anyWaits es then ok (s.waitIn .migrating)
      else
        let trap (e code a : Nat) (s : State) : State := s.trapWith (probeTrap c d true half es e code a)
        match lowestBad es with
        | none =>
          ok (s.withAD false es (fun s => s.finishLoad v sd d tag true half false (c.vl / unitWords half) es) (fun s => s)
            (fun code va s => s.trapWith (orTrap c d true half es code va)))
        | some (e, code, a) =>
          if first = some e then ok (trap e code a s)
          else
            let es' := es.filter fun x => decide (x.n < e)
            ok (s.withAD false es'
              (fun s => (s.modCtx fun c => { c with vl := unitWords half * e }).finishLoad v sd d tag true half false e es')
              (fun s => s) (fun code va s => s.trapWith (orTrap c d true half es code va)))

/-- The class of a data error of VLDS: a code that `mf` can record, else 0x70 (R179, R195). -/
def ldsCode (c : Nat) : Nat := if [0x03, 0x10, 0x11, 0x12, 0x13].contains c then c else 0x70

/-- How the loads of VLDS ended. -/
inductive LdsStop where
  | done
  /-- A table entry had changed: the instruction is probed again (R343). -/
  | again
  /-- Element `n` waits for a link. -/
  | link (n : Nat) (q : HostReq)
  deriving DecidableEq, Repr

/-- VLDS loads what it can: accessed bits and data element by element; an error marks its element (R179). -/
def State.ldsElems : State → List Elem → List (Nat × Nat) × List (Nat × Nat) × State × LdsStop
  | s, [] => ([], [], s, .done)
  | s, e :: t =>
    let fails (c : Nat) (s : State) : List (Nat × Nat) × List (Nat × Nat) × State × LdsStop :=
      let (vs, bs, s, w) := State.ldsElems s t
      (vs, (e.n, ldsCode c) :: bs, s, w)
    match e.bad with
    | some (c, _) => fails c s
    | none =>
      match s.commitAD false e.words with
      | (.error (c, _), s) => fails c s
      | (.ok false, s) => ([], [], s, .again)
      | (.ok true, s) =>
        match s.elemWords e.words with
        | .wait _ pa _ =>
          match s.linkFault (partRead e.words pa) with
          | some _ => fails 0x70 s
          | none => ([], [], s, .link e.n (partRead e.words pa))
        | .trap c _ s => fails c s
        | .ok x s =>
          let (vs, bs, s, w) := State.ldsElems s t
          ((e.n, leVal x) :: vs, bs, s, w)

/-- The bits of `mf` that VLDS writes for its active elements. -/
def VCtx.ldsMask (c : VCtx) (half : Bool) (vs bs : List (Nat × Nat)) : VCtx :=
  let c := c.clearMf (vs.flatMap fun x => maskWords half x.1)
  bs.foldl (fun c b => c.setMf b.2 (maskWords half b.1)) c

/-- VLDS (R179). -/
def execVlds (v : Fin 32) (sd : Fin 16) (s : State) : Out :=
  let word := encode (.vlds v sd)
  let c := s.me.ctx
  let d := c.desc sd
  if !c.leased then ok (s.illegal 0x01 word)
  else match memChecks c d v true none with
    | .error e => ok (s.illegal e word)
    | .ok tag =>
      let half := tag == .cf32
      let s := s.modCtx fun c => c.setTags v c.g tag
      let dest := loadDest s.me.ctx v tag half
      let (es, s) := s.probeElems d.space.toNat d.stepWords d.xlat false ⟨.read, false⟩ (c.elements d none half)
      if anyWaits es then ok (s.waitIn .migrating)
      else
        let es := es.map (Elem.deviceFault none)
        match s.ldsElems es with
        | (_, _, s, .again) => ok s
        | (vs, bs, s, .done) =>
          let good := es.filter fun e => vs.any fun x => x.1 == e.n
          ok (((s.modCtx fun c => (c.putLoaded dest vs).ldsMask half vs bs).sweepDone sd d true (c.vl / unitWords half)).countHeat d true
            good).retireVec
        | (vs, bs, s, .link e q) =>
          ok ((s.modCtx fun c => ((c.putBelow dest half e vs).ldsMask half vs bs).inFlight (unitWords half * e)).linkWait q)

/-! ### Stores -/

/-- The words that element `n` of a store sends. -/
def VCtx.storeWords (c : VCtx) (v : Nat) (half : Bool) (n : Nat) : List Nat := (maskWords half n).map (c.word v)

/-- The accesses that store words: a cf32 element in a link window, at a multiple of 8, is one of 8 bytes (R315). -/
def storeSplit : List (WordAt × Nat) → List (WordAt × List Byte)
  | [p, q] => if p.1.va % 8 = 0 ∧ 0x800000000000 ≤ p.1.pa then [(p.1, leBytes 4 p.2 ++ leBytes 4 q.2)]
    else [(p.1, leBytes 4 p.2), (q.1, leBytes 4 q.2)]
  | ps => ps.map fun p => (p.1, leBytes 4 p.2)

/-- Store words in ascending order. -/
def State.storeParts (s : State) (ps : List (WordAt × Nat)) : State :=
  (storeSplit ps).foldl (fun s p => s.storePa p.1.pa p.2 p.1.va) s

/-- Store every element in ascending order (R176): where several write one byte, the highest-indexed gives its final value. -/
def State.storeElems (s : State) (v : Nat) (half sc : Bool) (es : List Elem) : State :=
  es.foldl (fun s e => (if sc then s.modDie Die.ticket else s).storeParts (e.words.zip (s.me.ctx.storeWords v half e.n))) s

/-- VST, VSTU, VSCAT and VSCATU (R176). -/
def State.vstore (s : State) (word v sd : Nat) (idx : Option Nat) (sc : Bool) : Out :=
  let c := s.me.ctx
  let d := c.desc sd
  let swept := idx.isNone
  if !c.leased then ok (s.illegal 0x01 word)
  else match memChecks c d v false idx with
    | .error e => ok (s.illegal e word)
    | .ok tag =>
      let half := tag == .cf32
      let (es, s) := s.probeElems d.space.toNat d.stepWords d.xlat idx.isSome ⟨.write, false⟩ (c.elements d idx half)
      if anyWaits es then ok (s.waitIn .migrating)
      else match lowestBad es with
      | some (e, code, a) => ok (s.trapWith (probeTrap c d swept half es e code a))
      | none =>
        ok (s.withAD true es
          (fun s => (((s.storeElems v half sc es).sweepDone sd d swept (c.vl / unitWords half)).countHeat d swept es).retireVec)
          (fun s => s) (fun code va s => s.trapWith (orTrap c d swept half es code va)))

def execVst (t : Fin 32) (sd : Fin 16) (c : Bool) (s : State) : Out := s.vstore (encode (.vst t sd c)) t sd none c
def execVstu (t : Fin 32) (sd : Fin 16) (s : State) : Out := s.vstore (encode (.vstu t sd)) t sd none false
def execVscat (t : Fin 32) (sd : Fin 16) (i : Fin 32) (c : Bool) (s : State) : Out :=
  s.vstore (encode (.vscat t sd i c)) t sd (some i.val) c
def execVscatu (t : Fin 32) (sd : Fin 16) (i : Fin 32) (s : State) : Out :=
  s.vstore (encode (.vscatu t sd i)) t sd (some i.val) false

/-! ### Atomics and reduction to memory -/

/-- The operation of a VAMO or VREDM code (R71). -/
def Amo.ofVector : Nat → Amo
  | 0 => .fadd | 1 => .fand | 2 => .for | 3 => .fxor | 4 => .fmin | 5 => .fmax | 6 => .fminu | 7 => .fmaxu
  | _ => .faddf

/-- Perform elements in ascending index order (R180): the old values, and the element at which a data error stopped it. -/
def State.amoElems (op : Amo) (v : Nat) (sc post : Bool) : State → List Elem → List (Nat × Nat) × State × Option (Nat × Nat × Nat)
  | s, [] => ([], s, none)
  | s, e :: t =>
    let s := if sc then s.modDie Die.ticket else s
    let w := (e.words.head?).getD ⟨0, 0, Copy.window, 0⟩
    match s.die.amoAt s.me.id.owner w.pa 4 op (s.me.ctx.word v e.n) 0 with
    | .error c =>
      if post then
        let (vs, s, r) := State.amoElems op v sc post (s.postError s.meId c w.va) t
        (vs, s, r)
      else ([], s.modDie fun d => d.readError c s.meId w.pa, some (e.n, c, w.va))
    | .ok (old, die) =>
      let (vs, s, r) := State.amoElems op v sc post (s.withDie die) t
      ((e.n, old) :: vs, s, r)

/-- VAMO, and with `post` VREDM: a TAG of 15 is no fault, as R180 calls the TAG not relevant (log 73). VREDM writes no register and settles when its probe passes, so that an error at the target is posted
(R180, R191). -/
def State.vamo (s : State) (word v sd i p : Nat) (sc post : Bool) : Out :=
  let c := s.me.ctx
  let d := c.desc sd
  let op := Amo.ofVector p
  let tagOk (t : Tag) : Bool := t == .raw || t == .f32 || (op != .faddf && (t == .i32 || t == .ui32))
  if !c.leased then ok (s.illegal 0x01 word)
  else match (if post then spanFault true none [⟨v, c.g⟩, ⟨i, c.g⟩] else spanFault false (some ⟨v, c.g⟩) [⟨i, c.g⟩]) with
  | some e => ok (s.illegal e word)
  | none =>
    if !tagOk (c.tag v) || (c.tag i != .i32 && c.tag i != .ui32 && c.tag i != .raw) then ok (s.illegal 0x20 word)
    else
      let s := if post then s else s.modCtx fun x => x.setTags v x.g (x.tag v)
      let (es, s) := s.probeElems d.space.toNat 1 d.xlat true ⟨.rmw, op == .faddf⟩ (c.elements d (some i) false)
      if anyWaits es then ok (s.waitIn .migrating)
      else match lowestBad es with
      | some (e, code, a) => ok (s.trapWith (probeTrap c d false false es e code a))
      | none =>
        ok (s.withAD true es
          (fun s =>
            let (vs, s, r) := s.amoElems op v sc post es
            let s := if post then s else s.modCtx fun c => c.writeElems v .raw vs
            match r with
            | none => (s.countHeat d false es).retireVec
            | some (e, code, va) => s.trapWith (dataTrap d false false e code va))
          (fun s => s) (fun code va s => s.trapWith (orTrap c d false false es code va)))

def execVamo (d : Fin 32) (sd : Fin 16) (i : Fin 32) (c : Bool) (p : Fin 16) (s : State) : Out :=
  s.vamo (encode (.vamo d sd i c p)) d sd i p c false
def execVredm (t : Fin 32) (sd : Fin 16) (i : Fin 32) (p : Fin 16) (s : State) : Out :=
  s.vamo (encode (.vredm t sd i p)) t sd i p false true

end Sys2Proof.Machine
end

