-- ==== Sys2Proof/Machine/Vrecord.lean ====
section
/-! DEFINITION. Compressed records, VSTCMP and VLDEXP (R182 to R185), and VPREF (R181). -/

namespace Sys2Proof.Machine

/-! ### Records (R182) -/

/-- Bytes of a record's element. -/
def recBytes (t : Tag) : Nat := t.ebits / 8

/-- c: the elements that VL covers. -/
def recCovered (t : Tag) (vl : Nat) : Nat := if t = .cf32 then vl / 2 else vl * t.per

/-- Bytes of the bitmask of c elements. -/
def recMask (c : Nat) : Nat := 16 * ((c + 127) / 128)

/-- The value capacity of a descriptor. -/
def Desc.capacity (d : Desc) : Nat := lenOf d.len0 * (4 * d.stepWords)

/-- The word of a group that holds element `j`. -/
def recWord (t : Tag) (j : Nat) : Nat := if t = .cf32 then 2 * j else j / t.per

/-- The elements that VSTCMP stores (R183): those of an active word whose bits are not all zero. -/
def VCtx.recStored (c : VCtx) (v : Nat) (t : Tag) : List Nat :=
  (List.range (recCovered t c.vl)).filter fun j => c.maskOn (recWord t j) && c.elem v t j != 0

/-- The bytes of a bitmask. -/
def maskBytes (m : Nat) (js : List Nat) : List Byte := leBytes m (js.foldl (fun x j => x ||| 2 ^ j) 0)

/-- The header (Table 7.9). -/
def recHeader (c k m tag e : Nat) : List Byte :=
  leBytes 4 c ++ leBytes 4 k ++ leBytes 2 m ++ leBytes 1 tag ++ leBytes 1 1 ++ leBytes 4 (k * e)

/-- The words of a range of a record: `n` bytes from offset `from`. -/
def recOffsets (base start n : Nat) : List Nat := (List.range ((n + 3) / 4)).map fun i => (base + start + 4 * i) % 2 ^ 64

/-- The first faulting word of a record. -/
def recBad : List Probed → Option (Nat × Nat)
  | [] => none
  | .bad _ c a :: _ => some (c, a)
  | _ :: t => recBad t

/-- A fault of a record (R183, R184): TELEM, TIDX3 and VSTART are zero. -/
def recTrap (code va : Nat) (telem : Nat := 0) : TrapVals :=
  { code := code, tval := BitVec.ofNat 64 va, telem := telem, vstart := some 0 }

/-- The probe of a range of a record; `good` goes on with its words. -/
def State.recProbe (s : State) (d : Desc) (w : Want) (start n : Nat) (good : List WordAt → State → State) : State :=
  let (ps, s) := s.probeWords d.space.toNat ⟨d.xlat, []⟩ w (recOffsets d.base.toNat start n)
  if ps.any (fun p => p == .migrating) then s.waitIn .migrating
  else match recBad ps with
    | some (c, a) => s.trapWith (recTrap c a)
    | none => good (goodWords ps) s

/-- The accessed and dirty bits of a record, after every probe and check (R343); `good` goes on. -/
def State.recCommit (s : State) (write : Bool) (ws : List WordAt) (good : State → State) : State :=
  match s.commitAD write (distinctEntries ws) with
  | (.ok true, s) => good s
  | (.ok false, s) => s
  | (.error (c, va), s) => s.trapWith (recTrap c va)

/-- Store bytes at the words of a range. -/
def State.storeBytes (s : State) : List WordAt → List Byte → State
  | [], _ => s
  | w :: t, bs => (s.storePa w.pa (bs.take 4) w.va).storeBytes t (bs.drop 4)

/-- The checks of R182 after decode: VSTART, then BASE. -/
def State.recReady (s : State) (word : Nat) (d : Desc) (f : State → State) : State :=
  if s.me.ctx.vstart ≠ 0 then s.illegal 0x01 word
  else if d.base.toNat % 16 ≠ 0 then s.trapWith (recTrap 0x03 d.base.toNat)
  else f s

/-- Count a record's bytes, one per four (R355). -/
def State.recHeat (s : State) (ws : List WordAt) : State := s.modDie fun x => x.hotCounts .unit (ws.map (·.copy))

/-- VSTCMP (R183): bitmask, values, then the header. The group and tag checks come before that of VSTART (log 79). -/
def execVstcmp (v : Fin 32) (sd : Fin 16) (s : State) : Out :=
  let word := encode (.vstcmp v sd)
  let c := s.me.ctx
  let d := c.desc sd
  if !c.leased then ok (s.illegal 0x01 word)
  else match memChecks c d v false none with
    | .error e => ok (s.illegal e word)
    | .ok t => ok (s.recReady word d fun s =>
      let e := recBytes t
      let cov := recCovered t c.vl
      let m := recMask cov
      let js := c.recStored v t
      if d.capacity < js.length * e then
        s.trapWith (recTrap 0x24 (d.base.toNat + 16 + m + d.capacity) (recWord t ((js[d.capacity / e]?).getD 0)))
      else
        let body := maskBytes m js ++ js.flatMap fun j => leBytes e (c.elem v t j)
        s.recProbe d ⟨.write, false⟩ 0 (16 + m + js.length * e) fun ws s => s.recCommit true ws fun s =>
          let s := s.storeBytes (ws.drop 4) body
          let s := s.storeBytes (ws.take 4) (recHeader cov js.length m t.code e)
          (s.recHeat ws).retireVec)

/-- Read the bytes of a range, or the trap or wait that ends it. -/
def State.recRead (s : State) (ws : List WordAt) (n : Nat) (good : List Byte → State → State) : State :=
  match s.loadParts (ws.map fun w => (w, 4)) with
  | .ok bs s => good (bs.take n) s
  | .trap c va s => s.trapWith (recTrap c va)
  | .wait _ pa _ =>
    let q := linkRead (((ws.find? fun w => w.pa == pa).map (·.va)).getD 0) pa 4
    match s.linkFault q with
    | some c => s.trapWith (recTrap c q.va.toNat)
    | none => s.linkWait q

/-- Bit `j` of a bitmask. -/
def maskHas (bs : List Byte) (j : Nat) : Bool := ((bs[j / 8]?).getD 0).getLsbD (j % 8)

/-- The set bits of a bitmask below `n`. -/
def maskSet (bs : List Byte) (n : Nat) : List Nat := (List.range n).filter (maskHas bs)

/-- The position of a value of a list. -/
def indexIn : List Nat → Nat → Option Nat
  | [], _ => none
  | x :: t, j => if x = j then some 0 else (indexIn t j).map (· + 1)

/-- Element `j` of an expansion (R184): the next stored value, or zero. -/
def expandElem (set : List Nat) (cov e : Nat) (vals : List Byte) (j : Nat) : Nat :=
  if j < cov then
    match indexIn set j with
    | some i => leVal ((vals.drop (i * e)).take e)
    | none => 0
  else 0

/-- VLDEXP (R184). The group and tag checks come before that of VSTART (log 79). Its accessed bits are set when every probe and check has passed, in the step of its reads (R343). -/
def execVldexp (v : Fin 32) (sd : Fin 16) (s : State) : Out :=
  let word := encode (.vldexp v sd)
  let c := s.me.ctx
  let d := c.desc sd
  if !c.leased then ok (s.illegal 0x01 word)
  else match memChecks c d v true none with
    | .error e => ok (s.illegal e word)
    | .ok t =>
      if c.vstart ≠ 0 then ok (s.illegal 0x01 word)
      else
        let s := s.modCtx fun c => c.setTags v c.g t
        if c.vl = 0 then ok s.retireVec
        else ok (s.recReady word d fun s =>
          let e := recBytes t
          s.recProbe d ⟨.read, false⟩ 0 16 fun hw s =>
          s.recRead hw 16 fun h s =>
          let hc := leVal (h.take 4)
          let k := leVal ((h.drop 4).take 4)
          let m := leVal ((h.drop 8).take 2)
          let bad := recTrap 0x24 d.base.toNat
          if leVal ((h.drop 10).take 1) ≠ t.code ∨ d.capacity < k * e then s.trapWith bad
          else
            s.recProbe d ⟨.read, false⟩ 16 (m + k * e) fun ws s =>
            s.recRead (ws.take (m / 4)) m fun mask s =>
            if leVal ((h.drop 11).take 1) ≠ 1 ∨ m ≠ recMask hc ∨ leVal ((h.drop 12).take 4) ≠ k * e ∨
                (maskSet mask (8 * m)).any (fun j => decide (hc ≤ j)) ∨ (maskSet mask hc).length ≠ k then s.trapWith bad
            else
              s.recRead (ws.drop (m / 4)) (k * e) fun vals s =>
              s.recCommit false (hw ++ ws) fun s =>
              let set := maskSet mask hc
              let cov := Nat.min hc (recCovered t c.vl)
              let dest : Dest := ⟨v, c.g, t, t, t == .cf32, if t = .cf32 then 1 else t.per, false⟩
              ((s.modCtx fun c => (c.elementInto c dest fun j => (expandElem set cov e vals j, 0)).1).recHeat (hw ++ ws)).retireVec)

/-! ### VPREF (R181) -/

/-- Bring the lines of an element into the L2, unless it would fault or lies on a device-ordered page. -/
def State.prefetchElem (s : State) (d : Desc) (i : Nat) : State :=
  match s.probeEach d.space.toNat d.stepWords ⟨d.xlat, []⟩ ⟨.read, false⟩ [(i, (d.adv i).offset)] with
  | ([e], s') =>
    if e.bad.isSome || e.waits then s'
    else if e.device then s
    else e.words.foldl (fun s w => match s.die.target w.pa with
      | .lpddr => (match s.die.physRead s.me.id.owner w.pa 4 with
        | .ok (_, d) => s.withDie d
        | .error _ => s)
      | _ => s) s'
  | _ => s

/-- VPREF. -/
def State.vpref (s : State) (word sd : Nat) : Out :=
  let c := s.me.ctx
  let d := c.desc sd
  if !c.leased then ok (s.illegal 0x01 word)
  else match d.etag with
    | none => ok (s.illegal 0x20 word)
    | some t =>
      let n := c.vl / unitWords (t == .cf32)
      if n = 0 then ok s.retireVec
      else ok (((List.range n).foldl (fun s i => s.prefetchElem d i) s).fillXlat sd n).retireVec

def execVpref0 (s : State) : Out := s.vpref (encode .vpref0) 0
def execVpref1 (s : State) : Out := s.vpref (encode .vpref1) 1
def execVpref2 (s : State) : Out := s.vpref (encode .vpref2) 2
def execVpref3 (s : State) : Out := s.vpref (encode .vpref3) 3
def execVpref4 (s : State) : Out := s.vpref (encode .vpref4) 4
def execVpref5 (s : State) : Out := s.vpref (encode .vpref5) 5
def execVpref6 (s : State) : Out := s.vpref (encode .vpref6) 6
def execVpref7 (s : State) : Out := s.vpref (encode .vpref7) 7
def execVpref8 (s : State) : Out := s.vpref (encode .vpref8) 8
def execVpref9 (s : State) : Out := s.vpref (encode .vpref9) 9
def execVpref10 (s : State) : Out := s.vpref (encode .vpref10) 10
def execVpref11 (s : State) : Out := s.vpref (encode .vpref11) 11
def execVpref12 (s : State) : Out := s.vpref (encode .vpref12) 12
def execVpref13 (s : State) : Out := s.vpref (encode .vpref13) 13
def execVpref14 (s : State) : Out := s.vpref (encode .vpref14) 14
def execVpref15 (s : State) : Out := s.vpref (encode .vpref15) 15

end Sys2Proof.Machine
end

