-- ==== Sys2Proof/Machine/Matrix.lean ====
section
/-! DEFINITION. The matrix slices (R231 to R242) and the ring latch (R243 to R246). -/

namespace Sys2Proof.Machine

/-! ### Tiles and operands -/

/-- Column `j` of row `r` of a tile, FP32 bits. -/
def VCtx.cell (c : VCtx) (z r j : Nat) : Nat := (sget 0 c.tiles (4096 * z + 64 * r + j)).toNat

/-- Write cells of a tile: (row, column, bits). -/
def VCtx.setCells (c : VCtx) (z : Nat) (ws : List (Nat × Nat × Nat)) : VCtx :=
  { c with tiles := ws.foldl (fun m w => sset 0 m (4096 * z + 64 * w.1 + w.2.1) (BitVec.ofNat 32 w.2.2)) c.tiles }

/-- Mark a tile dirty (R232). -/
def VCtx.dirtyTile (c : VCtx) (z : Nat) : VCtx := { c with dirty := c.dirty ||| BitVec.twoPow 4 z }

/-- Rows of a tile of the context (R231). -/
def VCtx.rows (c : VCtx) : Nat := 16 * c.k

/-- The rows that are active for quarter `q` (R235). -/
def VCtx.activeRows (c : VCtx) (q : Nat) : List Nat := (List.range c.rows).filter fun r => c.active (c.rows * q + r)

/-- The ring latch of a core. -/
def State.latch (s : State) (core : Nat) : Latch := (s.coreS core).latch

/-- Replace a core's ring latch. -/
def State.setLatch (s : State) (core : Nat) (l : Latch) : State := s.modCoreS core fun c => { c with latch := l }

/-- A strand that owns its core's ring latch releases it (R243). -/
def State.releaseLatch (s : State) (i : Nat) : State :=
  if (s.latch (i / 8)).owner = some i then s.setLatch (i / 8) Latch.released else s

/-- The ownership check of R243: another strand owns the latch, or no strand does and the instruction does not claim it. -/
def State.ringDenied (s : State) (claims : Bool) : Bool :=
  match (s.latch s.core).owner with
  | some o => o != s.meId
  | none => !claims

/-- The B operand (R234): the words and tag of a quarter, or of the latch. -/
structure BOp where
  tag : Tag
  words : List (Nat × VWord)
  deriving DecidableEq, Repr

/-- Word `j` of a B operand. -/
def BOp.word (b : BOp) (j : Nat) : Nat := (sget 0 b.words j).toNat

/-- The 64 words of quarter `q` of a register (R234). -/
def VCtx.quarter (c : VCtx) (r q : Nat) : List (Nat × VWord) :=
  (List.range 64).foldl (fun m j => sset 0 m j (BitVec.ofNat 32 (c.word r (c.rows * q + j)))) []

/-- The start of a B quarter is a multiple of 64 (R234). -/
def VCtx.quarterOk (c : VCtx) (q : Nat) : Bool := q * c.k % 4 == 0

/-- The B operand of an instruction, or its fault. -/
def State.bOperand (s : State) (b q : Nat) (rl : Bool) : Except Nat BOp :=
  if rl then .ok ⟨(s.latch s.core).tag, (s.latch s.core).cur⟩
  else if s.me.ctx.quarterOk q then .ok ⟨s.me.ctx.tag b, s.me.ctx.quarter b q⟩
  else .error 0x22

/-- The exact value of sub-element `t` of a word. -/
def Tag.sub (g : Tag) (w t : Nat) : FV := g.value (bits w (g.ebits * t + g.ebits - 1) (g.ebits * t))

/-- Accumulate into a tile: `terms r j` are the products that are added to the element. The answer has the flags. -/
def VCtx.accumulate (c : VCtx) (m : Rnd) (z : Nat) (rows : List Nat) (terms : Nat → Nat → List (FV × FV)) : VCtx × Flags :=
  let res := rows.flatMap fun r => (List.range 64).map fun j =>
    let (v, fl) := dotFV [FV.ofBits .f32 (c.cell z r j)] (terms r j)
    let (x, fl') := m.into .f32 v
    (r, j, x, fl ||| fl')
  let c' := c.setCells z (res.map fun w => (w.1, w.2.1, w.2.2.1))
  (if rows = [] then c' else c'.dirtyTile z, res.foldl (fun f w => f ||| w.2.2.2) 0)

/-- The dot depth of real operands (Table 11.2). -/
def mopaDepth (a b : Tag) : Option Nat :=
  let half (t : Tag) : Bool := t == .bf16 || t == .f16
  let byte (t : Tag) : Bool := t == .e4m3 || t == .e5m2
  if a = .f32 ∧ b = .f32 then some 1 else if half a && half b then some 2 else if byte a && byte b then some 4 else none

/-- An outer product (R237, R238, R239) after the lease and latch checks. -/
def State.outer (s : State) (word : Nat) (rl : Bool) (f : State → Except Nat State) : Out :=
  if !s.me.ctx.leased then ok (s.illegal 0x01 word)
  else if rl && s.ringDenied false then ok (s.illegal 0x01 word)
  else s.vectorD word f

/-- MOPA, and MOPS with `neg` (R237). -/
def State.mopa (s : State) (word z a b p q : Nat) (rl rz neg : Bool) : Out :=
  s.outer word rl fun s => do
    let c := s.me.ctx
    let o ← s.bOperand b q rl
    let ta := c.tag a
    match mopaDepth ta o.tag with
    | none => .error 0x20
    | some d =>
      .ok (s.putCtx (c.accumulate (s.rnd rz) z (c.activeRows p) fun r j =>
        (List.range d).map fun t => ((ta.sub (c.word a (c.rows * p + r)) t).negIf neg, o.tag.sub (o.word j) t)))

def execMopa (c : Fin 4) (a b : Fin 32) (p q : Fin 4) (l z : Bool) (s : State) : Out :=
  s.mopa (encode (.mopa c a b p q l z)) c a b p q l z false
def execMops (c : Fin 4) (a b : Fin 32) (p q : Fin 4) (l z : Bool) (s : State) : Out :=
  s.mopa (encode (.mops c a b p q l z)) c a b p q l z true

/-- CMOPA (R238): real parts into the tile, imaginary parts into the next. -/
def execCmopa (z : Fin 4) (a b : Fin 32) (p q : Fin 4) (l rz : Bool) (s : State) : Out :=
  s.outer (encode (.cmopa z a b p q l rz)) l fun s => do
    let c := s.me.ctx
    failIf (z.val % 2 != 0) 0x22
    let o ← s.bOperand b q l
    failIf (c.tag a != .cbf16 || o.tag != .cbf16) 0x20
    let rows := c.activeRows p
    let are (r : Nat) : FV := Tag.bf16.sub (c.word a (c.rows * p + r)) 0
    let aim (r : Nat) : FV := Tag.bf16.sub (c.word a (c.rows * p + r)) 1
    let bre (j : Nat) : FV := Tag.bf16.sub (o.word j) 0
    let bim (j : Nat) : FV := Tag.bf16.sub (o.word j) 1
    let (c1, f1) := c.accumulate (s.rnd rz) z rows fun r j => [(are r, bre j), ((aim r).neg, bim j)]
    let (c2, f2) := c1.accumulate (s.rnd rz) (z + 1) rows fun r j => [(are r, bim j), (aim r, bre j)]
    .ok (s.putCtx (c2, f1 ||| f2))

/-- MOPASP (R239). -/
def execMopasp (z : Fin 4) (a b : Fin 32) (p q : Fin 4) (l rz n : Bool) (m : Fin 8) (s : State) : Out :=
  s.outer (encode (.mopasp z a b p q l rz n m)) l fun s => do
    let c := s.me.ctx
    failIf (p.val % (if n then 2 else 4) != 0) 0x22
    let o ← s.bOperand b q l
    let ta := c.tag a
    let byte (t : Tag) : Bool := t == .e4m3 || t == .e5m2
    failIf (!byte ta || !byte o.tag) 0x20
    .ok (s.putCtx (c.accumulate (s.rnd rz) z (c.activeRows p) fun r j =>
      (List.range 4).map fun t =>
        let e := 8 * (if n then 0 else t / 2) + bits (c.word (24 + m) j) (3 * t + 2) (3 * t)
        (o.tag.sub (o.word j) t, ta.sub (c.word a (c.rows * (p + e / 4) + r)) (e % 4))))

/-! ### Moving tile data -/

/-- MZERO (R240). -/
def State.mzero (s : State) (word z : Nat) : Out :=
  s.vectorD word fun s => .ok (s.modCtx fun c => { c with
    tiles := c.tiles.filter fun e => e.1 / 4096 != z
    dirty := c.dirty &&& ~~~BitVec.twoPow 4 z })

def execMzero0 (s : State) : Out := s.mzero (encode .mzero0) 0
def execMzero1 (s : State) : Out := s.mzero (encode .mzero1) 1
def execMzero2 (s : State) : Out := s.mzero (encode .mzero2) 2
def execMzero3 (s : State) : Out := s.mzero (encode .mzero3) 3

/-- A row of a tile after the probe: the words of its steps and its lowest faulting step, as (step, code, address). -/
structure Row where
  r : Nat
  words : List WordAt
  bad : Option (Nat × Nat × Nat)
  waits : Bool
  deriving DecidableEq, Repr

/-- The lowest faulting step of a row. -/
def rowBad : List Probed → Nat → Option (Nat × Nat × Nat)
  | [], _ => none
  | .bad _ c a :: _, j => some (j, c, a)
  | _ :: t, j => rowBad t (j + 1)

/-- The probe of the active rows (R241). -/
def State.probeRows (s : State) (d : Desc) (w : Want) : List Nat → List Row × State
  | [] => ([], s)
  | r :: t =>
    let (ps, s) := s.probeWords d.space.toNat ⟨d.xlat, []⟩ w ((List.range 64).map fun j => (d.adv (64 * r + j)).offset)
    let (rs, s) := s.probeRows d w t
    (⟨r, goodWords ps, rowBad ps 0, ps.any fun p => p == .migrating⟩ :: rs, s)

/-- The first faulting row. -/
def lowestRow : List Row → Option (Nat × Nat × Nat × Nat)
  | [] => none
  | x :: t => match x.bad with
    | some (j, c, a) => some (x.r, j, c, a)
    | none => lowestRow t

/-- What a probe fault of MLD or MST records (R174, R241). -/
def rowTrap (d : Desc) (rs : List Row) (r j code addr : Nat) : TrapVals where
  code := code
  tval := BitVec.ofNat 64 addr
  telem := r
  tidx3 := (d.adv (64 * r + j)).tidx3
  mf := some (probeMask false (rs.map fun x => ⟨x.r, [], x.bad.map fun b => (b.2.1, b.2.2), false⟩))
  vstart := some r

/-- Load the words of a row: the answer says which word stopped it. -/
def State.rowWords (s : State) : List WordAt → Nat → List Nat × State × Option (Nat × Option Nat × WordAt)
  | [], _ => ([], s, none)
  | w :: t, j =>
    match s.loadLinked w.va w.pa 4 with
    | .ok bs s =>
      let (vs, s, r) := s.rowWords t (j + 1)
      (leVal bs :: vs, s, r)
    | .trap c _ s => ([], s, some (j, some c, w))
    | .wait _ _ s => ([], s, some (j, none, w))

/-- Load rows in order; the answer is the cells, and the step that stopped it: its row, its step, the code (none for a wait), its word. -/
def State.loadRows (s : State) : List Row → List (Nat × Nat × Nat) × State × Option (Nat × Nat × Option Nat × WordAt)
  | [] => ([], s, none)
  | x :: t =>
    match s.rowWords x.words 0 with
    | (vs, s', none) =>
      let (cs, s', r) := s'.loadRows t
      ((((List.range 64).zip vs).map fun p => (x.r, p.1, p.2)) ++ cs, s', r)
    | (_, s', some (j, some c, w)) => ([], s', some (x.r, j, some c, w))
    | (_, _, some (j, none, w)) => ([], s, some (x.r, j, none, w))

/-- Cells written into a tile. -/
def VCtx.putRows (c : VCtx) (z : Nat) (cs : List (Nat × Nat × Nat)) : VCtx := if cs = [] then c else (c.setCells z cs).dirtyTile z

/-- The decode checks of MLD and MST. -/
def State.tileMove (s : State) (word sd : Nat) (w : Want) (f : Desc → List Row → State → State) : Out :=
  let c := s.me.ctx
  let d := c.desc sd
  if !c.leased then ok (s.illegal 0x01 word)
  else if d.etag ≠ some .f32 ∧ d.etag ≠ some .raw then ok (s.illegal 0x20 word)
  else if c.vl = 0 then ok s.retireVec
  else
    let (rs, s) := s.probeRows d w (c.activeRows 0)
    if rs.any (·.waits) then ok (s.waitIn .migrating)
    else match lowestRow rs with
    | some (r, j, code, a) => ok (s.trapWith (rowTrap d rs r j code a))
    | none =>
      match s.commitAD w.acc.writes (distinctEntries (rs.flatMap (·.words))) with
      | (.ok true, s) => ok (f d rs s)
      | (.ok false, s) => ok s
      | (.error (code, va), s) =>
        let hit (x : Row) : Bool := x.words.any fun w => w.va == va
        let rs := rs.map fun x => if hit x then { x with bad := some ((x.words.findIdx fun w => w.va == va), code, va) } else x
        match lowestRow rs with
        | some (r, j, code, a) => ok (s.trapWith (rowTrap d rs r j code a))
        | none => ok s

/-- The instruction completes: the position and the hotness counts (R241, R355). -/
def State.tileDone (s : State) (sd : Nat) (d : Desc) (rs : List Row) : State :=
  let s := s.sweepDone sd d true (64 * s.me.ctx.rows)
  (if s.me.ctx.queue = [] then s.modDie fun x => x.hotCounts (heatOf d true) (rs.flatMap fun r => r.words.map (·.copy)) else s).retireVec

/-- MLD (R241). -/
def execMld (z : Fin 4) (sd : Fin 16) (s : State) : Out :=
  s.tileMove (encode (.mld z sd)) sd ⟨.read, false⟩ fun d rs s =>
    let stop (r j code : Nat) (w : WordAt) (s : State) : State :=
      s.trapWith { code := code, tval := BitVec.ofNat 64 w.va, telem := r, tidx3 := (d.adv (64 * r + j)).tidx3, vstart := some r }
    match s.loadRows rs with
    | (cs, s, none) => (s.modCtx fun c => c.putRows z cs).tileDone sd d rs
    | (cs, s, some (r, j, some code, w)) => stop r j code w (s.modCtx fun c => c.putRows z cs)
    | (cs, s, some (r, j, none, w)) =>
      let q := linkRead w.va w.pa 4
      match s.linkFault q with
      | some code => stop r j code w (s.modCtx fun c => c.putRows z cs)
      | none => (s.modCtx fun c => (c.putRows z cs).inFlight r).linkWait q

/-- MST (R241). -/
def execMst (z : Fin 4) (sd : Fin 16) (s : State) : Out :=
  s.tileMove (encode (.mst z sd)) sd ⟨.write, false⟩ fun d rs s =>
    (rs.foldl (fun s r => s.storeParts (r.words.zip ((List.range 64).map fun j => s.me.ctx.cell z r.r j))) s).tileDone sd d rs

/-- MRDV (R242). Where VSTART lies between 64 and VL, no word is active and the words from 64 on follow TPOL (R23). -/
def execMrdv (z : Fin 4) (d b : Fin 32) (s : State) : Out :=
  s.vectorD (encode (.mrdv z d b)) fun s =>
    let r := (s.reg b).toNat
    .ok (s.modCtx fun c =>
      if 64 ≤ c.vstart ∧ c.vstart < c.vl then
        (let x := c.setTags d 1 .f32
        if c.tpol then x.zeroWords d 64 c.vlmax else x)
      else ({ c with vl := Nat.min c.vl 64 }.elementInto c ⟨d, 1, .raw, .f32, false, 1, false⟩ fun j =>
        (if c.rows ≤ r then 0 else c.cell z r j, 0)).1)

/-- MWRV (R242). -/
def execMwrv (z : Fin 4) (a b : Fin 32) (s : State) : Out :=
  s.vectorD (encode (.mwrv z a b)) fun s =>
    let c := s.me.ctx
    let r := (s.reg b).toNat
    if c.tag a != .f32 && c.tag a != .raw then .error 0x20
    else .ok (s.modCtx fun c =>
      if c.rows ≤ r then c else c.putRows z (((List.range 64).filter c.active).map fun j => (r, j, c.word a j)))

/-! ### The ring latch -/

/-- RLLD (R244): claims the latch where no strand owns it (R243). -/
def execRlld (a : Fin 32) (p : Fin 4) (s : State) : Out :=
  let word := encode (.rlld a p)
  if !s.me.ctx.leased || s.ringDenied true then ok (s.illegal 0x01 word)
  else s.vectorD word fun s =>
    let c := s.me.ctx
    if !c.quarterOk p then .error 0x22
    else
      let l := s.latch s.core
      .ok (s.setLatch s.core { l with cur := c.quarter a p, tag := c.tag a, owner := some s.meId })

/-- RLRD (R244). -/
def execRlrd (a : Fin 32) (p : Fin 4) (s : State) : Out :=
  let word := encode (.rlrd a p)
  if !s.me.ctx.leased || s.ringDenied false then ok (s.illegal 0x01 word)
  else s.vectorD word fun s =>
    let l := s.latch s.core
    if !s.me.ctx.quarterOk p then .error 0x22
    else .ok (s.modCtx fun c =>
      ((List.range 64).foldl (fun c j => c.setWord a (c.rows * p + j) (sget 0 l.cur j).toNat) c).setTags a 1 l.tag)

/-- The core that a core's ring passes to (R206). -/
def ringNext (core : Nat) : Nat := core / 4 * 4 + (core + 1) % 4

/-- The send of RLPASS can be made: the successor's latch has an owner and is empty. -/
def State.canSend (s : State) : Bool :=
  (s.latch (ringNext s.core)).owner.isSome && !(s.latch (ringNext s.core)).full

/-- The send of RLPASS (R245): CUR goes to the successor's INC. -/
def State.latchSend (s : State) : State :=
  let n := ringNext s.core
  s.setLatch n { s.latch n with inc := (s.latch s.core).cur, full := true }

/-- The send of an RLPASS that has not entered the queue; it has sent (Table 1.8). -/
def State.ringSend (s : State) : State := s.latchSend.modMe fun t => { t with run := { t.run with passSent := true } }

/-- The take of RLPASS (R245): INC becomes CUR. -/
def State.latchTake (s : State) : State :=
  let l := s.latch s.core
  s.setLatch s.core { l with cur := l.inc, full := false }

/-- The take of an RLPASS that has not entered the queue; it retires. -/
def State.ringTake (s : State) : State :=
  (s.latchTake.modMe fun t => { t with run := { t.run with passSent := false } }).retireVec

/-- RLPASS (R245). -/
def execRlpass (s : State) : Out :=
  if !s.me.ctx.leased || s.ringDenied false then ok (s.illegal 0x01 (encode .rlpass))
  else
    let s := if !s.me.run.passSent && s.canSend then s.ringSend else s
    if s.me.run.passSent && (s.latch s.core).full then ok s.ringTake
    else ok (s.waitIn .ring)

end Sys2Proof.Machine
end

