-- ==== Sys2Proof/Machine/Scalar.lean ====
section
/-! DEFINITION. Scalar loads, stores and atomics (R88 to R93). -/

namespace Sys2Proof.Machine

/-- LD: rd := mem[a + sext(imm13)] (R88). -/
def execLd (d a : Fin 32) (z : Fin 8) (i : Fin 8192) (s : State) : Out :=
  ok (s.load d (s.reg a + sext13 i).toNat (ldSize z.val).1 (ldSize z.val).2)
/-- ST: mem[a + sext(imm13)] := rs (R88, R89). -/
def execSt (t a : Fin 32) (z : Fin 8) (i : Fin 8192) (s : State) : Out :=
  ok (s.store (s.reg t) (s.reg a + sext13 i).toNat (2 ^ (z.val % 4)))

def execLda (d a : Fin 32) (w : Bool) (o : Fin 4) (c : Fin 8) (s : State) : Out := ok (s.amo .lda d a 0 w o c)
def execSta (a b : Fin 32) (w : Bool) (o : Fin 4) (c : Fin 8) (s : State) : Out := ok (s.amo .sta 0 a b w o c)
def execSwap (d a b : Fin 32) (w : Bool) (o : Fin 4) (c : Fin 8) (s : State) : Out := ok (s.amo .swap d a b w o c)
def execCas (d a b : Fin 32) (w : Bool) (o : Fin 4) (c : Fin 8) (s : State) : Out := ok (s.amo .cas d a b w o c)
def execAmoFadd (d a b : Fin 32) (w : Bool) (o : Fin 4) (c : Fin 8) (s : State) : Out := ok (s.amo .fadd d a b w o c)
def execAmoFand (d a b : Fin 32) (w : Bool) (o : Fin 4) (c : Fin 8) (s : State) : Out := ok (s.amo .fand d a b w o c)
def execAmoFor (d a b : Fin 32) (w : Bool) (o : Fin 4) (c : Fin 8) (s : State) : Out := ok (s.amo .for d a b w o c)
def execAmoFxor (d a b : Fin 32) (w : Bool) (o : Fin 4) (c : Fin 8) (s : State) : Out := ok (s.amo .fxor d a b w o c)
def execAmoFmin (d a b : Fin 32) (w : Bool) (o : Fin 4) (c : Fin 8) (s : State) : Out := ok (s.amo .fmin d a b w o c)
def execAmoFmax (d a b : Fin 32) (w : Bool) (o : Fin 4) (c : Fin 8) (s : State) : Out := ok (s.amo .fmax d a b w o c)
def execAmoFminu (d a b : Fin 32) (w : Bool) (o : Fin 4) (c : Fin 8) (s : State) : Out := ok (s.amo .fminu d a b w o c)
def execAmoFmaxu (d a b : Fin 32) (w : Bool) (o : Fin 4) (c : Fin 8) (s : State) : Out := ok (s.amo .fmaxu d a b w o c)
/-- FADDF is 32 bits wide (R63). -/
def execAmoFaddf (d a b : Fin 32) (o : Fin 4) (c : Fin 8) (s : State) : Out := ok (s.amo .faddf d a b false o c)

end Sys2Proof.Machine
end

