-- ==== Sys2Proof/Machine/Fetch.lean ====
section
/-! DEFINITION. Fetching an instruction word (R53, R57), and the events of barrel issue and of the vector queue (R207, R219, R220). -/

namespace Sys2Proof.Machine

/-- The answer of a fetch. -/
inductive Fetched where
  | word (w : Nat) (s : State)
  /-- A fault: TVAL is the PC (R57 check 1). -/
  | bad (code : Nat) (s : State)
  | wait (s : State)
  deriving DecidableEq, Repr

/-- Fetch the word at the PC of the issuing strand. -/
def State.fetch (s : State) : Fetched :=
  let va := s.me.pc.toNat
  match s.die.resolveAD s.core s.me.id.owner s.me.xasid.toNat va .fetch false with
  | .fault c d => .bad c (s.withDie d)
  | .migrating _ d => if s.migrationOver then .bad 0x13 (s.withDie d) else .wait ((s.withDie d).waitIn .migrating)
  | .ok pa _ _ d =>
    let s := s.withDie d
    match s.loadLinked va pa 4 with
    | .ok bs s => .word (leVal bs) s
    | .trap c _ s => .bad c s
    | .wait _ _ s =>
      match s.linkFault (linkRead va pa 4) with
      | some c => .bad c s
      | none => .wait (s.linkWait (linkRead va pa 4))

/-- The major opcode of a word. -/
def major (w : Nat) : Nat := bits w 31 26

/-- A vector-major instruction (R57 check 5). -/
def vectorMajor (w : Nat) : Bool := decide (0x20 ≤ major w ∧ major w ≤ 0x2A)

/-- An instruction that enters the vector queue (R110, R219): VOP to VMEM, MTX, VMVX and VMVS; the other VCTL ops and SDSC execute at
issue. -/
def queued (w : Nat) : Bool :=
  vectorMajor w && major w != 0x29 && (major w != 0x20 || bits w 10 5 == 8 || bits w 10 5 == 9)

/-! ### What a word names -/

/-- The vector-register fields of a word, by their lowest bit: vd, va, vb, vc, v and vi, not mask, descriptor, tile, quarter or scalar fields
(R122). -/
def rotFields (w : Nat) : List Nat :=
  let op := bits w 10 5
  match major w with
  | 0x21 => if 21 ≤ op ∧ op ≤ 24 then [16, 11] else [21, 16, 11]
  | 0x22 => if 21 ≤ op ∧ op ≤ 24 then [16] else [21, 16]
  | 0x23 => if bits w 5 3 = 4 then [21, 16, 11] else [21, 16, 11, 6]
  | 0x24 => if op = 11 ∨ op = 12 then [21] else []
  | 0x25 => if 8 ≤ op then [16] else if op = 0 ∨ op = 1 ∨ op = 7 then [21, 16] else [21, 16, 11]
  | 0x26 => if op = 8 then [21, 16] else [21, 16, 11]
  | 0x27 => [21, 16, 11]
  | 0x28 => if bits w 11 7 = 12 then [] else if bits w 11 7 = 5 ∨ bits w 11 7 = 6 ∨ bits w 11 7 = 7 ∨ bits w 11 7 = 10 ∨ bits w 11 7 = 11 then [21, 12] else [21]
  | 0x2A => match bits w 9 6 with
    | 1 | 2 | 3 | 4 => if w.testBit 5 then [19] else [19, 14]
    | 7 | 8 | 9 | 11 => [19]
    | _ => []
  | _ => []

/-- The vector registers that an instruction of the queue names first of a group, with the metadata register of MOPASP (R72). -/
def vecRegs (w : Nat) : List Nat :=
  match major w with
  | 0x20 => if bits w 10 5 = 8 then [bits w 20 16] else [bits w 25 21]
  | 0x2A => (if bits w 9 6 = 4 then [24 + bits w 2 0] else []) ++ (rotFields w).map fun lo => bits w (lo + 4) lo
  | _ => (rotFields w).map fun lo => bits w (lo + 4) lo

/-- The destination register of an instruction of the queue (Table 1.8). -/
def destReg (w : Nat) : Option Nat :=
  let op := bits w 10 5
  let vd := some (bits w 25 21)
  match major w with
  | 0x20 => if op = 9 then vd else none
  | 0x21 | 0x22 => if 21 ≤ op ∧ op ≤ 24 then none else vd
  | 0x23 | 0x26 | 0x27 => vd
  | 0x24 => if op = 11 ∨ op = 12 then vd else none
  | 0x25 => if 8 ≤ op then none else vd
  | 0x28 => if [0, 3, 4, 5, 9, 10].contains (bits w 11 7) then vd else none
  | 0x2A => if bits w 9 6 = 7 ∨ bits w 9 6 = 11 then some (bits w 23 19) else none
  | _ => none

/-- The field of the scalar operand that an instruction of the queue takes at issue (R110, Table 12.11): VMVX index and VMVS value, VOPS
operand, slide amount, broadcast index, reduction's initial value, VQSCL shift, MSET count, MRDV and MWRV row. -/
def scalarField (w : Nat) : Option Nat :=
  let op := bits w 10 5
  match major w with
  | 0x20 => if op = 8 then some 11 else if op = 9 then some 16 else none
  | 0x22 => some 11
  | 0x24 => if op = 13 then some 16 else none
  | 0x25 => if op = 0 ∨ op = 1 ∨ 7 ≤ op then some 11 else none
  | 0x26 => if op = 8 then some 11 else none
  | 0x2A => if bits w 9 6 = 7 ∨ bits w 9 6 = 8 then some 14 else none
  | _ => none

/-- The field of a second scalar operand: the index of VMVS. -/
def indexField (w : Nat) : Option Nat := if major w = 0x20 ∧ bits w 10 5 = 9 then some 11 else none

/-- The scalar register that an instruction of the queue writes: it is pending until then (R110). -/
def scalarDest (w : Nat) : Option Nat :=
  let op := bits w 10 5
  match major w with
  | 0x20 => if op = 8 then some (bits w 25 21) else none
  | 0x24 => if op = 9 ∨ op = 10 then some (bits w 25 21) else none
  | 0x25 => if 8 ≤ op then some (bits w 25 21) else none
  | _ => none

/-- The scalar registers that an instruction reads or writes (Tables 3.1, 3.6 and 3.7). -/
def scalarRegs (w : Nat) : List Nat :=
  let rd := bits w 25 21
  let ra := bits w 20 16
  let rb := bits w 15 11
  match major w with
  | 0x02 | 0x03 => [rd]
  | 0x05 | 0x06 | 0x07 | 0x08 | 0x09 | 0x0A | 0x0B | 0x0C | 0x0D | 0x14 | 0x17 => [rd, ra]
  | 0x01 | 0x04 | 0x0E | 0x0F => [rd, ra, rb]
  | 0x10 => [bits w 22 18]
  | 0x11 => [rd, ra]
  | 0x13 => [1]
  | 0x15 => [rd, ra, rb] ++ if bits w 10 6 < 2 then (List.range 6).map (rd + ·) else []
  | 0x16 => [rd, ra, rb] ++ if bits w 10 6 = 1 then (List.range 8).map (rd + ·) else []
  | 0x20 => if bits w 10 5 = 6 then [] else if bits w 10 5 = 8 then [rd, rb] else if bits w 10 5 = 9 then [ra, rb] else [rd, ra]
  | 0x29 => [rd]
  | _ => ((scalarField w).toList.map fun lo => bits w (lo + 4) lo) ++ (scalarDest w).toList

/-- The descriptor that an instruction of the queue names. -/
def descField (w : Nat) : Option Nat :=
  if major w = 0x28 then some (bits w 20 17)
  else if major w = 0x2A ∧ (bits w 9 6 = 5 ∨ bits w 9 6 = 6) then some (bits w 22 19)
  else none

/-! ### Kinds of instructions in the queue -/

/-- MLD and MST. -/
def tileMoves (w : Nat) : Bool := major w == 0x2A && (bits w 9 6 == 5 || bits w 9 6 == 6)

/-- RLPASS. -/
def ringPass (w : Nat) : Bool := major w == 0x2A && bits w 9 6 == 10

/-- An instruction that accesses memory. -/
def accesses (w : Nat) : Bool := major w == 0x28 || tileMoves w

/-- The class of an instruction (R219): 0 arithmetic, 1 memory, 2 SFU, 3 matrix. -/
def queueClass (w : Nat) : Nat := if major w = 0x28 then 1 else if major w = 0x27 then 2 else if major w = 0x2A then 3 else 0

/-- An instruction that writes a mask register or `mf`. -/
def writesMask (w : Nat) : Bool :=
  let op := bits w 10 5
  ((major w == 0x21 || major w == 0x22) && decide (21 ≤ op ∧ op ≤ 24)) || (major w == 0x24 && !decide (9 ≤ op ∧ op ≤ 12))
    || (major w == 0x28 && bits w 11 7 == 4) || major w == 0x27

/-- A faultable instruction (R191): one that can fault after decode. With VL = 0 it settles at issue, but for VSTCMP. -/
def faultable (w vl : Nat) (se : Bool) : Bool :=
  let op := bits w 11 7
  if major w = 0x28 ∧ op = 8 then true
  else decide (vl ≠ 0) && ((major w == 0x28 && op != 4 && op != 12) || tileMoves w || (major w == 0x27 && !se)
    || (major w == 0x21 && bits w 10 5 == 26))

/-- How an instruction of the queue makes progress (R116, R154, R171, R185, R235, R241). -/
inductive Steps where
  /-- Word n of its destination takes word n of each source. -/
  | elements
  /-- It writes a vector or mask register from other words of its sources: it begins when they are complete (R220). -/
  | across
  /-- A vector memory instruction, element by element after its probe. -/
  | memory
  /-- By the returns of its requests (R275). -/
  | sfu
  /-- MLD and MST, by rows. -/
  | rows
  /-- None: it keeps no partial result. -/
  | whole
  deriving DecidableEq, Repr

/-- The progress of a word. -/
def stepsOf (w : Nat) : Steps :=
  let op := bits w 10 5
  match major w with
  | 0x21 | 0x22 => if op = 26 then .whole else if 21 ≤ op ∧ op ≤ 24 then .across else .elements
  | 0x23 | 0x26 => .elements
  | 0x24 => if op = 9 ∨ op = 10 then .whole else .across
  | 0x25 => if 8 ≤ op then .whole else .across
  | 0x27 => .sfu
  | 0x28 => if [3, 8, 9, 12].contains (bits w 11 7) then .whole else .memory
  | 0x2A => if tileMoves w then .rows else .whole
  | _ => .whole

/-! ### PIX (Table 1.8) -/

/-- Write PIX of a slot. -/
def VCtx.setPix (c : VCtx) (num : Nat) (val : Bool) (w idx : Nat) : VCtx :=
  { c with pix := sset 0 c.pix num (BitVec.ofNat 18 ((if val then 2 ^ 17 else 0) + 4096 * ((destReg w).getD 0) + idx % 4096)) }

/-- An instruction that shows progress: not VSTCMP or VLDEXP (R185), nor an indivisible MTX instruction (R235). -/
def Slot.stepped (q : Slot) : Bool :=
  !((major q.word == 0x2A && !tileMoves q.word && !ringPass q.word) || (major q.word == 0x28 && (bits q.word 11 7 == 8 || bits q.word 11 7 == 9)))

/-- The IDX that a slot shows: 0 for an instruction without progress. -/
def Slot.shown (q : Slot) : Nat := if q.stepped then q.idx else 0

/-- The word count of an instruction (R221); rows for MLD and MST. -/
def wordCount (k w vl : Nat) : Nat := if tileMoves w then Nat.min vl (16 * k) else vl

/-- The number of the slot that the next instruction takes: past the youngest one's. -/
def VCtx.nextSlot (c : VCtx) : Nat :=
  match c.queue.getLast? with
  | some q => (q.num + 1) % 32
  | none => 0

/-- Replace the slot of a number. -/
def VCtx.setSlot (c : VCtx) (q : Slot) : VCtx :=
  { c with queue := c.queue.map fun (x : Slot) => if x.num = q.num then q else x }.setPix q.num true q.word q.shown

/-- An instruction leaves the queue complete (R221). -/
def VCtx.leaveSlot (c : VCtx) (q : Slot) : VCtx :=
  { c with queue := c.queue.filter fun (x : Slot) => x.num != q.num }.setPix q.num false q.word (wordCount c.k q.word q.vl)

/-- A scalar register of these waits for an instruction of the queue (R110). -/
def VCtx.pends (c : VCtx) (rs : List Nat) : Bool := c.queue.any fun q => (scalarDest q.word).any fun r => r != 0 && rs.contains r

/-- The slot of a number. -/
def VCtx.slot (c : VCtx) (num : Nat) : Option Slot := c.queue.find? fun q => q.num == num

/-! ### Chaining (R219, R220) -/

/-- Two groups may share a register: groups of at most 8 registers (R27, R113). -/
def groupsNear (a b : Nat) : Bool := decide (a < b + 8) && decide (b < a + 8)

/-- The words of a group from word `a` to `b` − 1, as they lie in the register file, meet those of another. -/
def wordsMeet (m r a b r' a' b' : Nat) : Bool := decide (m * r + a < m * r' + b') && decide (m * r' + a' < m * r + b)

/-- An older instruction `q` in flight holds back the words of `p` below `n` (R220). -/
def VCtx.holdsBack (c : VCtx) (q p : Slot) (n : Nat) : Bool :=
  if (accesses q.word && accesses p.word) || (major q.word == 0x2A && major p.word == 0x2A) || writesMask q.word || writesMask p.word then true
  else
    let m := c.vlmax
    let size (x : Slot) : Nat := m * 2 ^ bits x.vmc.toNat 5 4
    let linear := q.linear && p.linear
    (vecRegs p.word).any (fun r => (destReg q.word).any fun d =>
        if linear then wordsMeet m d q.idx (size q) r p.idx n else groupsNear d r)
      || (destReg p.word).any (fun d => (vecRegs q.word).any fun r =>
        if linear then wordsMeet m r q.idx (size q) d p.idx n else groupsNear d r)

/-- The instructions older than a slot's. -/
def VCtx.olderThan (c : VCtx) (num : Nat) : List Slot := c.queue.takeWhile fun q => q.num != num

/-- Nothing older holds back the words of a slot's instruction below `n`. -/
def VCtx.chained (c : VCtx) (p : Slot) (n : Nat) : Bool := (c.olderThan p.num).all fun q => !c.holdsBack q p n

/-- The instruction that starts next (R219): the oldest that has not started, while none of its class runs. -/
def VCtx.starter (c : VCtx) : Option Slot :=
  (c.queue.find? fun q => !q.started).bind fun p =>
    if c.queue.any fun q => q.started && queueClass q.word == queueClass p.word then none else some p

/-- The end of the part that a slot's next beat processes: an element group of its narrow layout, 16·k words, a row, or all of it
(R26, R220, R221). -/
def VCtx.beatEnd (c : VCtx) (q : Slot) : Nat :=
  match stepsOf q.word with
  | .whole | .sfu => q.vl
  | .rows => Nat.min q.vl (q.idx + 1)
  | _ => Nat.min q.vl ((q.idx / (16 * c.k) + 1) * (16 * c.k))

/-! ### Events -/

/-- FRONT_END_ISSUE: the core's front end takes the least recently issued ready strand; of those that have not issued, the lowest (R207). -/
def State.readyOn (s : State) (core : Nat) : Option Nat :=
  (((List.range 8).map (8 * core + ·)).filter fun i => (s.strand i).id.kind != .free && (s.strand i).run.wait == .ready).foldl
    (fun best i => match best with
      | none => some i
      | some b => if (s.strand i).run.lastIssue < (s.strand b).run.lastIssue then some i else some b) none

/-- Leave work to the next step. -/
def State.leave (s : State) (d : Due) : State := s.modDie fun x => { x with due := x.due ++ [d] }

/-- FRONT_END_ISSUE: a scalar instruction executes, a vector instruction enters its queue (R109), in the next step. -/
def execFrontEndIssue (core : Nat) (s : State) : Out :=
  ok (match s.readyOn core with
    | some i => s.leave (.issue i)
    | none => s)

/-- A strand stands at a SETVL without KEEP, its vector queue empty (R214). -/
def State.atSetvl (s : State) (i : Nat) : Bool :=
  (s.strand i).run.wait == .ready && (s.strand i).ctx.queue == [] && !(s.strand i).ctx.rep.running &&
    match (s.focus i).fetch with
    | .word w _ => major w == 0x20 && bits w 10 5 == 0 && !w.testBit 0
    | _ => false

/-- LANE_CHANGE: the SETVL at which a strand with a pending change stands takes it (R214), in the next step. -/
def execLaneChange (strand : Nat) (s : State) : Out :=
  ok (if (s.coreS (strand / 8)).pending strand && s.atSetvl strand then s.leave (.issue strand) else s)

/-- REPETITION_REISSUE: the next instruction of the body enters the queue again (R122, R223), in the next step. -/
def execRepetitionReissue (strand : Nat) (s : State) : Out :=
  ok (if (s.strand strand).ctx.rep.running then s.leave (.reissue strand) else s)

/-- An MTX instruction that is indivisible: once started it completes (R235). -/
def indivisible (w : Nat) : Bool := major w == 0x2A && !tileMoves w && !ringPass w

/-- VECTOR_INSTRUCTION_START: the oldest instruction of the queue that has not started starts, if its class is free (R219). In the next step a
faultable one makes its probe (R173), and an indivisible one, which starts only where nothing older holds it back, completes. -/
def State.startSlot (s : State) (i : Nat) : State :=
  let c := (s.strand i).ctx
  match c.starter with
  | none => s
  | some q =>
    if indivisible q.word && !c.chained q q.vl then s
    else
      let s := s.modStrand i fun t => { t with ctx := t.ctx.setSlot { q with started := true } }
      if indivisible q.word then s.leave (.beat i q.num q.vl) else if q.settled then s else s.leave (.probe i q.num)

def execVectorInstructionStart (strand : Nat) (s : State) : Out := ok (s.startSlot strand)

/-! ### RLPASS in the queue (R245) -/

/-- The RLPASS in the queue of the issuing strand that nothing older holds back. -/
def State.ringSlot (s : State) (idx : Nat) : Option Slot :=
  s.me.ctx.queue.find? fun q => ringPass q.word && q.idx == idx && s.me.ctx.chained q q.vl

/-- RLPASS_SEND: the send of an RLPASS that waits for it; the IDX of its slot becomes 1. -/
def execRlpassSend (strand : Nat) (s : State) : Out :=
  ok (s.at strand fun s =>
    if s.me.run.wait = .ring ∧ !s.me.run.passSent ∧ s.canSend then s.ringSend
    else match s.ringSlot 0 with
      | some q => if s.canSend then s.latchSend.modCtx fun c => c.setSlot { q with idx := 1, started := true } else s
      | none => s)

/-- RLPASS_TAKE: the take of an RLPASS that waits for it. -/
def execRlpassTake (strand : Nat) (s : State) : Out :=
  ok (s.at strand fun s =>
    if s.me.run.wait = .ring ∧ s.me.run.passSent ∧ (s.latch s.core).full then s.ringTake
    else match s.ringSlot 1 with
      | some q => if (s.latch s.core).full then s.latchTake.modCtx fun c => c.leaveSlot q else s
      | none => s)

end Sys2Proof.Machine
end

