-- ==== Sys2Proof/Machine/Tiers.lean ====
section
/-! DEFINITION. A job by its handle, the fields of its descriptor (R358, R359), the partitions, and the tiers in which jobs wait (R368). -/

namespace Sys2Proof.Machine

/-- A job by its handle, while the handle is current (R359). -/
def Die.job (d : Die) (h : Nat) : Option Job :=
  let j := sget Job.unused d.jobs (h % 65536)
  if h ≠ 0 ∧ j.gen = h / 65536 then some j else none

/-- Change a job. -/
def Die.modJob (d : Die) (h : Nat) (f : Job → Job) : Die :=
  match d.job h with
  | some j => { d with jobs := sset Job.unused d.jobs (h % 65536) (f j) }
  | none => d

/-! ### Fields of a job (Table 19.1) -/

def Job.entry (j : Job) : Nat := 4 * bits j.desc 53 2
def Job.clm (j : Job) : Bool := bits j.desc 60 60 == 1
def Job.pin (j : Job) : Bool := bits j.desc 61 61 == 1
def Job.earlyOk (j : Job) : Bool := bits j.desc 62 62 == 1
def Job.preemptible (j : Job) : Bool := bits j.desc 63 63 == 1
def Job.deadline (j : Job) : Nat := bits j.desc 127 64
def Job.release (j : Job) : Nat := bits j.desc 191 128
def Job.parent (j : Job) : Nat := bits j.desc 223 192
def Job.cls (j : Job) : Nat := bits j.desc 231 224
def Job.lmin (j : Job) : Nat := bits j.desc 233 232
def Job.lpref (j : Job) : Nat := bits j.desc 235 234
def Job.deps (j : Job) : Nat := bits j.desc 243 236
def Job.pcore (j : Job) : Nat := bits j.desc 251 244

/-- A live job: not ENDED (R362). -/
def Job.live (j : Job) : Bool := j.gen != 0 && j.state != .ended

/-- The job has started (R361). -/
def Job.started (j : Job) : Bool :=
  j.begun || (match j.state with
    | .dispatching | .running | .saved | .checkpointed | .exiting => true
    | _ => false)

/-- The handle of an entry (R359). -/
def handleOf (e : Nat × Job) : Nat := e.2.gen * 65536 + e.1

/-- The code of a state (Table 19.2). -/
def JState.code : JState → Nat
  | .pending => 1 | .ready => 2 | .dispatching => 3 | .running => 4 | .saved => 5 | .checkpointed => 6 | .exiting => 7 | .ended => 8

/-! ### Partitions (Table 21.2) -/

/-- PART of a VF. -/
def Die.vfPart (d : Die) (v : Nat) : Nat := bits (d.reg (0x200006110000 + 8 * v)) 3 0

/-- `PCLU`[p] and `PRES`[p]. -/
def pcluAddr (p : Nat) : Nat := 0x200006100000 + 64 * p
def presAddr (p : Nat) : Nat := pcluAddr p + 8

/-- A core belongs to a partition (R404); a core of the Tollhouse column belongs to none. -/
def Die.inPart (d : Die) (p core : Nat) : Bool := (d.reg (pcluAddr p)).testBit (core / 4) && !d.isColumn core

/-- The cores of a partition. -/
def Die.coresOf (d : Die) (p : Nat) : List Nat := (List.range Config.cores).filter (d.inPart p)

/-! ### Tiers (R368) -/

/-- The bank of a handle index (R368). -/
def bankOf (i : Nat) : Nat := bits i 3 0 ^^^ bits i 7 4 ^^^ bits i 11 8 ^^^ bits i 15 12

/-- A job waits in a tier: READY, or SAVED or CHECKPOINTED until a pop takes it for resume (R414). -/
def Job.waits (j : Job) : Bool := j.gen != 0 && (j.state == .ready || j.state == .saved || j.state == .checkpointed)

/-- Entries of a bank. -/
def Die.bankCount (d : Die) (b : Nat) : Nat := d.jobs.countP fun e => e.2.waits && !e.2.urgent && e.2.bank == b

/-- The bank that a job enters: its own, or the first above it with room. -/
def Die.findBank (d : Die) (i : Nat) : Nat :=
  (((List.range 16).map fun k => (bankOf i + k) % 16).find? fun b => decide (d.bankCount b < 4096)).getD (bankOf i)

/-- PROMO of a partition, in ns. -/
def Die.promo (d : Die) (p : Nat) : Nat := 1000 * bits (d.reg (0x200004002000 + 16 * p)) 15 0

/-- The urgent tier has room. -/
def Die.urgentRoom (d : Die) : Bool := decide ((d.jobs.countP fun e => e.2.waits && e.2.urgent) < 256)

/-- Put a job in a tier with a state (R368). -/
def Die.intoTier (d : Die) (h : Nat) (st : JState) : Die :=
  match d.job h with
  | none => d
  | some j =>
    let urgent := decide (j.deadline < d.dtime + d.promo (d.vfPart j.vf)) && d.urgentRoom
    d.modJob h fun j => { j with state := st, urgent := urgent, bank := d.findBank (h % 65536) }

end Sys2Proof.Machine
end

