-- ==== Sys2Proof/Machine/Land.lean ====
section
/-! DEFINITION. Messages, the landing queue and the contexts away from their strand (R248 to R264), and the start of a handler (R17). -/

namespace Sys2Proof.Machine

/-! ### Messages -/

/-- The header of a message (Table 12.1), 128 bits. -/
def Msg.header (m : Msg) : Nat :=
  m.owner * 2 ^ 119 + m.asid * 2 ^ 103 + m.score * 2 ^ 95 + m.sstr * 2 ^ 92 + (if m.twin then 2 ^ 91 else 0) + m.lmin * 2 ^ 86
    + m.lpref * 2 ^ 84 + m.orig * 2 ^ 82 + (if m.cont then 2 ^ 81 else 0) + m.target

/-- The 64 bytes of a message, as a number (R248). -/
def Msg.pack (m : Msg) : Nat := m.header + 2 ^ 128 * leVal (m.payload.flatMap fun w => leBytes 8 w.toNat)

/-- The message of 64 bytes. The job of its sender is not among them. -/
def Msg.unpack (x : Nat) : Msg where
  owner := bits x 127 119
  asid := bits x 118 103
  score := bits x 102 95
  sstr := bits x 94 92
  twin := bits x 91 91 == 1
  lmin := bits x 87 86
  lpref := bits x 85 84
  orig := bits x 83 82
  cont := bits x 81 81 == 1
  target := bits x 63 0
  payload := (List.range 6).map fun i => BitVec.ofNat 64 (x / 2 ^ (128 + 64 * i))
  job := 0
  noJob := false

/-- The strand number, core·8 + strand, that a continuation ID names (Table 12.2). -/
def idHome (id : Nat) : Nat := 8 * bits id 31 24 + bits id 23 21
/-- REG of a continuation ID. -/
def idReg (id : Nat) : Nat := bits id 20 16
/-- GEN of a continuation ID. -/
def idGen (id : Nat) : Nat := bits id 15 0

/-- The continuation ID of a context, with register `n` (R254). -/
def Ident.contId (i : Ident) (n : Nat) : Nat := i.home / 8 * 2 ^ 24 + i.home % 8 * 2 ^ 21 + n * 2 ^ 16 + i.gen

/-- A block of six registers. -/
def Strand.block (t : Strand) (n : Nat) : List Word := (List.range 6).map fun i => t.reg (Fin.ofNat 32 (n + i))

/-- Write a block of six registers. -/
def Strand.setBlock (t : Strand) (n : Nat) (ws : List Word) : Strand :=
  ((List.range 6).zip ws).foldl (fun t p => t.setReg (Fin.ofNat 32 (n + p.1)) p.2) t

/-! ### The absent-context table -/

/-- The entry of an absent context (R263). -/
def CoreS.absentAt (c : CoreS) (strand gen owner : Nat) : Option Absent :=
  c.absent.find? fun a => a.strand == strand && a.gen == gen && a.owner == owner

/-- Set or replace an entry. -/
def CoreS.setAbsent (c : CoreS) (a : Absent) : CoreS :=
  { c with absent := (c.absent.filter fun x => !(x.strand == a.strand && x.gen == a.gen)) ++ [a] }

/-- Free an entry. -/
def CoreS.freeAbsent (c : CoreS) (strand gen : Nat) : CoreS :=
  { c with absent := c.absent.filter fun x => !(x.strand == strand && x.gen == gen) }

/-! ### Acceptance (R257, R263) -/

/-- What becomes of an offered message. -/
inductive Landed where
  /-- Accepted, or dropped and counted. -/
  | took (s : State)
  | held
  /-- The landing ring of a save area could not be written (R264). -/
  | ringFault
  deriving DecidableEq, Repr

/-- Continuation slots taken by a strand. -/
def CoreS.contCount (c : CoreS) (i : Nat) : Nat := c.conts.countP fun e => e.1 == i

/-- Put a continuation in a slot of a strand, if one of its six is free (R257). -/
def State.queueCont (s : State) (i : Nat) (m : Msg) : Landed :=
  let c := s.coreS (i / 8)
  if (s.strand i).run.wait == .restoring || decide (6 ≤ c.contCount i) then .held
  else .took (s.setCoreS (i / 8) { c with conts := c.conts ++ [(i, m)] })

/-- Write a continuation into the landing ring of a save area (R264). -/
def State.ringWrite (s : State) (o area : Nat) (m : Msg) : Landed :=
  match s.die.physRead o (area + 0x14) 4 with
  | .error _ => .ringFault
  | .ok (bs, d) =>
    let head := leVal (bs.take 2)
    let n := leVal (bs.drop 2)
    if 64 ≤ n then .held
    else match d.physWrite o (area + 0x4000 + 64 * ((head + n) % 64)) (leBytes 64 m.pack) with
      | .error _ => .ringFault
      | .ok d => match d.physWrite o (area + 0x16) (leBytes 2 (n + 1)) with
        | .error _ => .ringFault
        | .ok d => .took (s.withDie d)

/-- A strand runs the context of an identity. -/
def Strand.runs (t : Strand) (home gen owner : Nat) : Bool :=
  t.id.kind != .free && t.id.home == home && t.id.gen == gen && t.id.owner == owner

/-- A continuation at its home core: the first row of Table 12.4 that applies. -/
def State.resolve (s : State) (m : Msg) : Landed :=
  let i := idHome m.target
  let g := idGen m.target
  if (s.strand i).runs i g m.owner then s.queueCont i m
  else match (s.coreS (i / 8)).absentAt (i % 8) g m.owner with
    | some ⟨_, _, _, .saved area⟩ => s.ringWrite m.owner area m
    | some ⟨_, _, _, .moved j⟩ => if (s.strand j).runs i g m.owner then s.queueCont j m else .held
    | _ => .took (s.modDie fun d => d.addReg (telemetry m.owner 0x50) 1)

/-- Handler messages that wait on no reservation, oldest first. -/
def CoreS.unreserved (c : CoreS) : List Msg :=
  c.reservations.foldl (fun l r => match r.msg with | some m => l.erase m | none => l) c.handlers

/-- Offer a message to a core (R257). -/
def State.offer (s : State) (core : Nat) (m : Msg) : Landed :=
  if m.cont then s.resolve m
  else
    let c := s.coreS core
    if 16 ≤ c.handlers.length then .held else .took (s.setCoreS core { c with handlers := c.handlers ++ [m] })

/-- Messages of one sender and class (R257: they arrive in the order in which they were sent). -/
def Msg.sameSender (a b : Msg) : Bool := a.cont == b.cont && a.owner == b.owner && a.score == b.score && a.sstr == b.sstr && a.orig == b.orig

/-- Offer a message that nobody waits for: one not accepted is held and offered again; one whose ring cannot be written is dropped with
an error record (R264). -/
def State.post (s : State) (core : Nat) (m : Msg) : State :=
  let blocked := (s.coreS core).offers.any m.sameSender
  match (if blocked then .held else s.offer core m) with
  | .took s => s
  | .held => s.modCoreS core fun c => { c with offers := c.offers ++ [m] }
  | .ringFault => s.modDie fun d => d.errorRecord 0x50 2048 m.target

/-- The first offered message that the core can take now, behind none of its sender. -/
def State.firstTaken (s : State) (core : Nat) : List Msg → List Msg → Option Msg
  | _, [] => none
  | held, m :: t =>
    if held.any m.sameSender then s.firstTaken core held t
    else match s.offer core m with
      | .held => s.firstTaken core (m :: held) t
      | _ => some m

/-- Accept the first offered message of a core that can be accepted (R257). -/
def State.accept (s : State) (core : Nat) : State :=
  let c := s.coreS core
  match s.firstTaken core [] c.offers with
  | none => s
  | some m =>
    let s := s.setCoreS core { c with offers := c.offers.erase m }
    match s.offer core m with
    | .took s => s
    | .held => s
    | .ringFault => s.modDie fun d => d.errorRecord 0x50 2048 m.target

/-- MESSAGE_ARRIVAL: the oldest offered message that finds a slot is accepted. -/
def execMessageArrival (core : Nat) (s : State) : Out := ok (s.accept core)

/-- The lowest strand that waits in SEND or SENDC. -/
def State.sender (s : State) : Option Nat :=
  (((s.meId, s.me) :: s.others).find? fun e => e.2.run.wait == .send).map (·.1)

/-- MESSAGE_REOFFER: a held message is offered again; a strand that waits in SEND or SENDC offers its message at its next issue. -/
def execMessageReoffer (core : Nat) (s : State) : Out :=
  ok (if (s.coreS core).offers = [] then
      match s.sender with
      | some i => s.leave (.issue i)
      | none => s
    else s.accept core)

/-! ### The start of a handler -/

/-- `JTVEC`[v] and `JTSCR`[v] (Table 19.4). -/
def jtvecAddr (v : Nat) : Nat := 0x200004003000 + 16 * v

/-- The VF of an owner. -/
def ownerVf (o : Nat) : Nat := o - 0x100

/-- The context of a handler's start (R17): every vector register, tile, mask and descriptor zero, every tag raw. -/
def VCtx.fresh (gm : BitVec 4) : VCtx := { VCtx.absent with gm := gm }

/-- The reset state of a handler's start (R17, R366, R454): `s3` the handle, `s4` to `s9` the payload. -/
def State.newStrand (s : State) (m : Msg) (kind : Kind) (home gen : Nat) (gm : BitVec 4) : Strand :=
  let t : Strand := { Strand.empty with
    pc := BitVec.ofNat 64 m.target
    priv := if kind = .column then .firmware else .user
    trap := if kind = .column then Strand.empty.trap else { Strand.empty.trap with
      stvec := BitVec.ofNat 64 (bits (s.die.reg (jtvecAddr (ownerVf m.owner))) 53 2 * 4)
      sscratch := BitVec.ofNat 64 (s.die.reg (jtvecAddr (ownerVf m.owner) + 8)) }
    xasid := BitVec.ofNat 16 m.asid
    ctx := VCtx.fresh gm
    id := ⟨kind, m.owner, BitVec.ofNat 32 m.job, gen, home, m.lmin + 1, m.lpref + 1⟩
    run := { Strand.empty.run with since := s.die.dtime, retired := s.die.clock } }
  (t.setReg 3 (BitVec.ofNat 64 m.job)).setBlock 4 m.payload

/-- What the strand that a handler message starts is (R250, R454). -/
def Msg.kind (m : Msg) : Kind := if m.noJob then .column else if m.orig = 2 then .root else .aux

/-- The handler starts on a strand with a grant (R17, R210, R261); the root strand's start makes its job RUNNING (Table 19.2). -/
def State.startHandler (s : State) (i : Nat) (m : Msg) (gm : BitVec 4) : State :=
  let c := s.coreS (i / 8)
  let g := c.nextGen (i % 8)
  let s := s.setCoreS (i / 8) { c.give i gm with gens := sset 0 c.gens (i % 8) g }
  let s := s.setStrand i (s.newStrand m m.kind i g gm)
  if m.orig = 2 then
    s.modDie fun d => d.modJob m.job fun j =>
      { j with state := .running, root := some i, placed := none, begun := true, runSince := d.dtime }
  else s

/-- A core whose absent-context table holds 56 entries starts no handler message (R258). -/
def CoreS.absentFull (c : CoreS) : Bool := decide (56 ≤ c.absent.length)

/-- The strand that the next handler of a core starts on: the lowest free one; none where the absent-context table is full (R258). -/
def State.startStrand (s : State) (core : Nat) : Option Nat :=
  if (s.coreS core).absentFull then none else (s.freeStrands core).head?

/-- The handler messages of a core that may start: those that wait on no reservation, and whose job is not being saved or away; an auxiliary
strand shares its job's pre-emption (R250; log 71). -/
def State.handlersOf (s : State) (core : Nat) : List Msg :=
  (s.coreS core).unreserved.filter fun m => m.orig == 2 || m.noJob || !((s.die.job m.job).any fun j =>
    j.preempt != 0 || (j.slots != [] && j.state != .running))

/-- The oldest handler message whose grant can be made at once (R258). -/
def State.startable (s : State) (core : Nat) : Option (Msg × BitVec 4) :=
  (s.handlersOf core).findSome? fun m => ((s.coreS core).findGrant (m.lmin + 1) (m.lpref + 1)).map fun g => (m, g)

/-- A placement returns its job to READY without a start, into its tier (R362, R368); its next placement avoids the core for one more window
(R372). -/
def State.returnJob (s : State) (core h : Nat) : State :=
  if !((s.die.job h).any fun j => j.state == .dispatching) then s
  else s.modDie fun d => (d.modJob h fun j => { j with
      placed := none
      avoid := if j.pin then j.avoid else some (core, d.dtime + 1000 * (s.coreS core).rgwin.toNat) }).intoTier h .ready

/-- Take a message out of the landing queue. -/
def State.dropHandler (s : State) (core : Nat) (m : Msg) : State := s.modCoreS core fun c => { c with handlers := c.handlers.erase m }

/-- Make the reservation of a message that cannot start at once (R211); a dispatch that no reservation can serve returns its job. -/
def State.reserveFor (s : State) (core : Nat) (m : Msg) : Option State :=
  (s.startStrand core).bind fun i =>
    match s.reserve i m.job (m.lmin + 1) (some m) with
    | some s => some s
    | none => if m.orig = 2 then some ((s.dropHandler core m).returnJob core m.job) else none

/-- A waiting reservation of a core whose every shrink has been taken: its handler starts (R211). -/
def State.startReserved (s : State) (core : Nat) : Option State :=
  let c := s.coreS core
  if c.absentFull then none
  else (c.reservations.find? fun r => c.ready r && r.msg.isSome).bind fun r => r.msg.map fun m =>
    ((s.setCoreS core (c.dropReservation r)).dropHandler core m).startHandler r.strand m r.groups

/-- The landing queue of a core starts a handler (R250, R258): one whose reservation is complete, else the oldest that can start, else the
oldest that can reserve, or return its job, does so (R211). -/
def State.startNext (s : State) (core : Nat) : State :=
  match s.startReserved core with
  | some s => s
  | none =>
    match s.startStrand core, s.startable core with
    | some i, some (m, g) => (s.dropHandler core m).startHandler i m g
    | _, _ => ((s.handlersOf core).findSome? (s.reserveFor core)).getD s

def execHandlerStart (core : Nat) (s : State) : Out := ok (s.startNext core)

/-- RESERVATION_TIMEOUT: the oldest reservation whose window has passed is withdrawn (R211). -/
def State.reservationTimeout (s : State) (core : Nat) : State :=
  let c := s.coreS core
  match c.reservations.find? fun r => decide (r.since + 1000 * r.window ≤ s.die.dtime) && !c.ready r with
  | none => s
  | some r =>
    let s := s.setCoreS core (c.dropReservation r)
    match r.msg with
    | some m => if m.orig = 2 then (s.dropHandler core m).returnJob core r.job else s
    | none => s.returnJob core r.job

def execReservationTimeout (core : Nat) (s : State) : Out := ok (s.reservationTimeout core)

/-! ### SEND, SENDC, CONTID, PARK -/

/-- The message that the issuing strand sends. -/
def State.message (s : State) (cont twin : Bool) (lmin lpref target n : Nat) : Msg where
  owner := s.me.id.owner
  asid := s.me.xasid.toNat
  score := s.core
  sstr := s.meId % 8
  twin := twin
  lmin := lmin
  lpref := lpref
  orig := 0
  cont := cont
  target := target
  payload := s.me.block n
  job := s.me.id.job.toNat
  noJob := s.me.id.kind == .column

/-- Send a message to a core of this die or of the twin (R252, R447): the access table, then acceptance. -/
def State.sendTo (s : State) (core : Nat) (m : Msg) (dest : Word) : State :=
  if m.twin then
    s.linkRequest ⟨true, .message, 32, 64, false, dest, 0xC00000000000 + core, m.pack, 0, false, 0, false, .sent, Copy.window, 0, false⟩
  else if !s.die.admits (0x300 + core) s.me.id.owner true then s.trap 0x12 dest
  else match s.offer core m with
    | .took s => s.retire
    | .held => s.waitIn .send
    | .ringFault => s.trap 0x50 (BitVec.ofNat 64 m.target)

/-- SEND (R252). -/
def execSend (n a b : Fin 32) (s : State) : Out :=
  let x := (s.reg a).toNat
  let y := (s.reg b).toNat
  let lmin := bits x 11 10
  let lpref := bits x 13 12
  if x / 2 ^ 14 ≠ 0 ∨ bits x 9 9 ≠ 0 ∨ lmin = 2 ∨ lpref = 2 ∨ lpref < lmin then ok (s.trap 0x10 (s.reg a))
  else if y / 2 ^ 54 ≠ 0 then ok (s.trap 0x10 (s.reg b))
  else if y % 4 ≠ 0 then ok (s.trap 0x03 (s.reg b))
  else ok (s.sendTo (x % 256) (s.message false (bits x 8 8 == 1) lmin lpref y n) (s.reg a))

/-- SENDC (R253). -/
def execSendc (n a : Fin 32) (s : State) : Out :=
  let x := (s.reg a).toNat
  if x / 2 ^ 33 ≠ 0 ∨ idReg x = 0 ∨ 26 < idReg x then ok (s.trap 0x10 (s.reg a))
  else ok (s.sendTo (bits x 31 24) (s.message true (bits x 32 32 == 1) 0 0 (x % 2 ^ 32) n) (s.reg a))

/-- CONTID (R254). -/
def execContid (d n : Fin 32) (s : State) : Out := ok (s.writeRetire d (BitVec.ofNat 64 (s.me.id.contId n)))

/-- The continuation that a context takes next: one of its ring, then the oldest in its slots (R258, R269); it waits while a register that it
writes is pending (R251). -/
def State.nextCont (s : State) (i : Nat) : Option Msg :=
  let m : Option Msg := match (s.strand i).run.ring with
    | m :: _ => some m
    | [] => ((s.coreS (i / 8)).conts.find? fun e => e.1 == i).map (·.2)
  m.filter fun m => !(s.strand i).ctx.pends ((List.range 6).map (idReg m.target + ·))

/-- Remove it. -/
def State.takeCont (s : State) (i : Nat) : State :=
  match (s.strand i).run.ring with
  | _ :: r => s.modStrand i fun t => { t with run := { t.run with ring := r } }
  | [] => s.modCoreS (i / 8) fun c =>
    match c.conts.find? fun e => e.1 == i with
    | some e => { c with conts := c.conts.erase e }
    | none => c

/-- Deliver a continuation (R251): the six registers, and the PARK retires. -/
def State.deliver (s : State) (i : Nat) (m : Msg) : State :=
  (s.takeCont i).at i fun s => (s.modMe fun t => t.setBlock (idReg m.target) m.payload).retire

/-- PARK (R255). -/
def execPark (s : State) : Out :=
  match s.nextCont s.meId with
  | some m => ok (s.deliver s.meId m)
  | none => ok (s.waitIn .park)

/-- CONTINUATION_DELIVERY: the oldest continuation of a parked strand (R251). -/
def State.deliverNext (s : State) (i : Nat) : State :=
  if (s.strand i).run.wait = .park then
    match s.nextCont i with
    | some m => s.deliver i m
    | none => s
  else s

def execContinuationDelivery (strand : Nat) (s : State) : Out := ok (s.deliverNext strand)

end Sys2Proof.Machine
end

