-- ==== Sys2Proof/Machine/Save.lean ====
section
/-! DEFINITION. Saving a context and reading it back (R266 to R270, R456): the save area of Tables 12.5 and 12.9 to 12.12. -/

namespace Sys2Proof.Machine

/-- The SFU requests of a strand are cancelled and their tokens freed (R278). -/
def Die.sfuCancel (d : Die) (i : Nat) : Die := { d with sfu := d.sfu.filter fun r => r.strand != i }

/-- The pool of a partition: the physical address of a slot (R375). -/
def Die.slotArea (d : Die) (p slot : Nat) : Nat := bits (d.reg (0x200004002008 + 16 * p)) 47 19 * 2 ^ 19 + 2 ^ 19 * slot

/-! ### Writing the area -/

/-- A field of the area: offset, bytes, value. -/
abbrev AreaField := Nat × Nat × Nat

/-- Write bytes of an area under its owner's key; a failure is a write-path error (R89). -/
def Die.areaWrite (d : Die) (o pa : Nat) (bs : List Byte) : Die :=
  match d.writeLong o pa bs (bs.length / 64 + 2) with
  | (d, none) => d
  | (d, some (c, _)) => d.errorRecord c 2048 pa

/-- Write zeros. -/
def Die.areaZero (d : Die) (o pa n : Nat) : Die := d.areaWrite o pa (List.replicate n 0)

/-- Write fields. -/
def Die.areaFields (d : Die) (o base : Nat) (fs : List AreaField) : Die :=
  fs.foldl (fun d f => if f.2.2 = 0 then d else d.areaWrite o (base + f.1) (leBytes f.2.1 f.2.2)) d

/-- Fields of a list of values of one size. -/
def areaArray (off size : Nat) (vs : List Nat) : List AreaField :=
  ((List.range vs.length).zip vs).map fun p => (off + size * p.1, size, p.2)

/-- The class of a recorded cause (R195). -/
def causeClass (c : Nat) : Nat :=
  match c with
  | 0x10 => 1 | 0x11 => 2 | 0x12 => 3 | 0x13 => 4 | 0x30 => 5 | 0x70 => 6 | _ => 0

/-- The code of a class. -/
def classCause (k : Nat) : Nat :=
  match k with
  | 0 => 0x03 | 1 => 0x10 | 2 => 0x11 | 3 => 0x12 | 4 => 0x13 | 5 => 0x30 | _ => 0x70

/-- log2 of a family's size. -/
def log2n (n : Nat) : Nat := if n = 4 then 2 else if n = 2 then 1 else 0

/-- The header (Table 12.9); the PC is that of the front end, past what the queue holds (R192). -/
def Strand.areaHeader (t : Strand) (clm : Bool) (msgs dtime : Nat) : List AreaField :=
  let c := t.ctx
  [(0x00, 4, 1), (0x04, 4, t.id.contId 0), (0x08, 2, t.id.owner), (0x0A, 2, t.xasid.toNat), (0x0C, 1, t.priv.code), (0x0D, 1, c.k),
    (0x0E, 1, bits c.vmc.toNat 5 4), (0x0F, 1, c.dirty.toNat),
    (0x10, 1, (if clm then 1 else 0) + (if c.fork.n ≠ 0 ∧ c.fork.index ≠ 0 then 2 else 0)),
    (0x11, 1, if c.fork.n = 0 then 0 else c.fork.index + 4 * log2n c.fork.n), (0x12, 1, c.queue.length), (0x16, 2, msgs), (0x18, 8, t.pc.toNat), (0x20, 8, dtime)]

/-- The CSR area (Table 12.10); VL, STRIP and STRIPN of a repetition that runs are those of its strip (R224). -/
def Strand.areaCsrs (t : Strand) : List AreaField :=
  let r := t.ctx.rep
  let c := if r.running then { t.ctx with vl := r.vl, strip := r.strip, stripn := r.stripn } else t.ctx
  areaArray 0x200 8 [t.fcsr.toNat, c.vl, c.vmc.toNat, c.vstart, t.trap.stvec.toNat, t.trap.sscratch.toNat, t.trap.tcause.toNat,
      t.trap.tpc.toNat, t.trap.tval.toNat, t.trap.telem.toNat, t.trap.tidx3.toNat, t.tprv, t.trap.ftvec.toNat, t.trap.fscratch.toNat,
      c.strip, c.stripn, t.xasid.toNat]
    ++ areaArray 0x288 8 ((List.range 16).map t.domSlot)
    ++ [(0x308, 16, (List.range 32).foldl (fun x r => x + (c.tag r).code * 16 ^ r) 0)]

/-- A queue slot (Table 12.11). -/
def Slot.areaFields (i : Nat) (q : Slot) : List AreaField :=
  let a := 0x400 + 32 * i
  [(a, 4, q.word), (a + 4, 2, q.shown), (a + 6, 2, q.vstart), (a + 8, 2, q.vl), (a + 10, 1, q.vmc.toNat), (a + 11, 1, if q.rep then 1 else 0),
    (a + 12, 4, Nat.min q.index.toNat (2 ^ 32 - 1)), (a + 16, 8, if (descField q.word).isSome then q.desc.linear else 0),
    (a + 24, 8, if major q.word = 0x24 then 0 else q.scalar.toNat)]

/-- The repetition buffer (Table 12.12). -/
def Rep.areaFields (r : Rep) : List AreaField :=
  areaArray 0x800 4 (r.body.map (·.word)) ++ areaArray 0x840 8 (r.body.map (·.scalar.toNat))
    ++ [(0x8C0, 1, r.body.length + r.toCapture), (0x8C1, 1, (if r.rot then 1 else 0) + (if r.suspended then 2 else 0)), (0x8C2, 2, r.t),
      (0x8C4, 1, if r.toCapture = 0 then r.pos else r.body.length)]

/-- The latch and the outstanding TLBINVs (Table 12.12). -/
def areaLatch (l : Latch) (owned : Bool) (cmds : Nat) (is : List Inval) : List AreaField :=
  (if owned then areaArray 0x2000 4 ((List.range 64).map fun j => (sget 0 l.cur j).toNat)
      ++ areaArray 0x2100 4 ((List.range 64).map fun j => (sget 0 l.inc j).toNat)
      ++ [(0x2200, 1, (if l.full then 1 else 0) + 2), (0x2201, 1, l.tag.code)] else [])
    ++ [(0x2204, 4, cmds), (0x2208, 4, is.length)]
    ++ ((List.range is.length).zip is).flatMap fun p =>
      [(0x2210 + 24 * p.1, 2, p.2.asid), (0x2212 + 24 * p.1, 1, if p.2.all then 1 else 0), (0x2218 + 24 * p.1, 8, p.2.base),
        (0x2220 + 24 * p.1, 8, p.2.count)]

/-- Masks and the causes of mf (R195, R456). -/
def VCtx.areaMasks (c : VCtx) : List AreaField :=
  areaArray 0x1400 256 ((List.range 8).map fun m => (sget 0 c.masks m).toNat) ++ [(0x1C00, 256, c.mf.toNat)]
    ++ [(0x1D00, 768, c.mfc.foldl (fun x e => x + causeClass e.2 * 8 ^ e.1) 0)]

/-- Vector registers and dirty tiles. -/
def VCtx.areaData (c : VCtx) : List AreaField :=
  (c.v.map fun e => (0x8000 + 4 * (64 * c.k * (e.1 / 256) + e.1 % 256), 4, e.2.toNat))
    ++ ((c.tiles.filter fun e => c.dirty.getLsbD (e.1 / 4096)).map fun e =>
      (0x10000 + 4 * (1024 * c.k * (e.1 / 4096) + e.1 % 4096), 4, e.2.toNat))

/-- Engine commands of a context still outstanding (R388). -/
def Die.cmdsOf (d : Die) (home gen : Nat) : Nat := d.cmds.countP fun c => c.home == home && c.gen == gen

/-- The CLM of a core as an owner reads it: its non-zero bytes. -/
def Mem.clmImage (m : Mem) (core o : Nat) : List (Nat × Byte) :=
  let a := 0x120000000000 + 0x40000 * core
  (m.bytes.filter fun e => decide (a ≤ e.1 ∧ e.1 < a + 0x40000) && sget 0 m.otags (e.1 / 4096) == o + 1 && m.dieByte e.1 != 0).map
    fun e => (e.1 - a, e.2)

/-- The messages that a context takes to its area, oldest first: those of the ring that it has not taken, and those in its slots (R263). -/
def State.areaMsgs (s : State) (i : Nat) : List Msg :=
  (s.strand i).run.ring ++ ((s.coreS (i / 8)).conts.filter fun e => e.1 == i).map (·.2)

/-- Write out a context (R266 step 5, R267). -/
def State.writeArea (s : State) (i area : Nat) (clm : Bool) : State :=
  let t := s.strand i
  let c := t.ctx
  let o := t.id.owner
  let l := s.latch (i / 8)
  let msgs := (s.areaMsgs i).take 64
  let d := s.die.areaZero o area 0x2400
  let d := d.areaZero o (area + 0x8000) (8192 * c.k)
  let d := (List.range 4).foldl (fun d z => if c.dirty.getLsbD z then d.areaZero o (area + 0x10000 + 4096 * c.k * z) (4096 * c.k) else d) d
  let d := d.areaFields o area (t.areaHeader clm msgs.length s.die.dtime ++ areaArray 0x100 8 ((List.range 32).map fun r =>
      (t.reg (Fin.ofNat 32 r)).toNat) ++ t.areaCsrs ++ ((List.range 32).zip c.queue).flatMap (fun p => Slot.areaFields p.1 p.2) ++ c.rep.areaFields
    ++ areaArray 0x1000 64 ((List.range 16).map fun n => (c.desc n).pack) ++ c.areaMasks
    ++ areaLatch l (l.owner == some i) (s.die.cmdsOf t.id.home t.id.gen) t.run.invals ++ c.areaData
    ++ areaArray 0x4000 64 (msgs.map Msg.pack))
  let d := if clm then
      let d := d.areaZero o (area + 0x40000) 0x40000
      (d.mem.clmImage (i / 8) o).foldl (fun d e => d.areaWrite o (area + 0x40000 + e.1) [e.2]) d
    else d
  s.withDie d

/-! ### Reading it back -/

/-- Read a field. -/
def Die.areaGet (d : Die) (o area off size : Nat) : Nat :=
  leVal (d.readLong o (area + off) size (size / 64 + 2)).1

/-- Read an array. -/
def Die.areaGets (d : Die) (o area off size n : Nat) : List Nat := (List.range n).map fun i => d.areaGet o area (off + size * i) size

/-- The scalar registers. -/
def Die.areaRegs (d : Die) (o area : Nat) : Vector Word 32 :=
  Vector.ofFn fun i => BitVec.ofNat 64 (d.areaGet o area (0x100 + 8 * i.val) 8)

/-- The trap CSRs. -/
def Die.areaTrap (d : Die) (o area : Nat) : Trap :=
  let g (i : Nat) : Nat := d.areaGet o area (0x200 + 8 * i) 8
  { stvec := BitVec.ofNat 64 (g 4), sscratch := BitVec.ofNat 64 (g 5), tcause := BitVec.ofNat 9 (g 6), tpc := BitVec.ofNat 64 (g 7),
    tval := BitVec.ofNat 64 (g 8), telem := BitVec.ofNat 64 (g 9), tidx3 := BitVec.ofNat 63 (g 10), hold := bits (g 11) 8 8 == 1,
    pprv := Priv.ofCode (bits (g 11) 1 0), ftvec := BitVec.ofNat 64 (g 12), fscratch := BitVec.ofNat 64 (g 13) }

/-- The repetition buffer, with what the area does not hold of it as it was kept (log 68). -/
def Die.areaRep (d : Die) (o area : Nat) (v : Saved) : Rep :=
  let n := d.areaGet o area 0x8C0 1
  let f := d.areaGet o area 0x8C1 1
  let r := v.rep
  if n = 0 then Rep.empty
  else { r with
    rot := f % 2 == 1
    body := (((d.areaGets o area 0x800 4 16).zip (d.areaGets o area 0x840 8 16)).zip r.body).map fun p =>
      { p.2 with word := p.1.1, scalar := BitVec.ofNat 64 p.1.2 }
    t := d.areaGet o area 0x8C2 2
    pos := if r.toCapture = 0 then d.areaGet o area 0x8C4 1 else r.pos
    suspended := f / 2 % 2 == 1
    vl := d.areaGet o area 0x208 8
    strip := d.areaGet o area 0x270 8
    stripn := d.areaGet o area 0x278 8 }

/-- Slot i of the queue, renumbered from 0 (R269), with what the area does not hold of it as it was kept (log 68): it has not started, and its
remaining elements are probed again. -/
def Die.areaSlot (d : Die) (o area i : Nat) (q : Slot) : Slot :=
  let a := 0x400 + 32 * i
  let w := d.areaGet o area a 4
  let q' : Slot := { q with word := w }
  let vstart := d.areaGet o area (a + 6) 2
  let vmc := BitVec.ofNat 7 (d.areaGet o area (a + 10) 1)
  let vl := d.areaGet o area (a + 8) 2
  { num := i
    word := w
    pc := q.pc
    idx := if q'.stepped then d.areaGet o area (a + 4) 2 else vstart
    vl := vl
    vmc := vmc
    vstart := vstart
    tags := q.tags
    fcsr := q.fcsr
    desc := { ({ q.desc with i0 := 0, i1 := 0, i2 := 0 }.adv (d.areaGet o area (a + 16) 8)) with xlat := [] }
    scalar := if major w = 0x24 then q.scalar else BitVec.ofNat 64 (d.areaGet o area (a + 24) 8)
    index := BitVec.ofNat 64 (d.areaGet o area (a + 12) 4)
    rep := d.areaGet o area (a + 11) 1 % 2 == 1
    shift := q.shift
    capture := q.capture
    linear := q.linear
    error := false
    started := false
    settled := !faultable w vl (vmc.getLsbD 6)
    probed := false
    probedAt := 0
    counted := if q'.stepped then d.areaGet o area (a + 4) 2 else vstart
    entered := d.clock }

/-- The queue. -/
def Die.areaQueue (d : Die) (o area : Nat) (v : Saved) : List Slot :=
  (((List.range 32).take (d.areaGet o area 0x12 1)).zip v.queue).map fun p => d.areaSlot o area p.1 p.2

/-- Words of a range that are not zero, with their place. -/
def Die.areaWords (d : Die) (o pa n : Nat) : List (Nat × VWord) :=
  let go := (List.range (n / 32)).flatMap fun b =>
    ((List.range 32).zip (d.areaGets o pa (128 * b) 4 32)).filterMap fun p =>
      if p.2 = 0 then none else some (32 * b + p.1, BitVec.ofNat 32 p.2)
  go

/-- The outstanding TLBINVs, and when they were issued. -/
def Die.areaInvals (d : Die) (o area : Nat) (stamps : List Nat) : List Inval :=
  (List.range (d.areaGet o area 0x2208 4)).map fun j =>
    ⟨o, d.areaGet o area (0x2210 + 24 * j) 2, d.areaGet o area (0x2218 + 24 * j) 8, d.areaGet o area (0x2220 + 24 * j) 8,
      d.areaGet o area (0x2212 + 24 * j) 1 % 2 == 1, stamps.getD j d.clock⟩

/-- The vector context of an area on a block of groups; the family's own fields are set at the resume. -/
def Die.areaCtx (d : Die) (o area : Nat) (gm : BitVec 4) (v : Saved) (fork : Fork) : VCtx :=
  let k := (VCtx.fresh gm).k
  let g (i : Nat) : Nat := d.areaGet o area (0x200 + 8 * i) 8
  let tags := d.areaGet o area 0x308 16
  let dirty := BitVec.ofNat 4 (d.areaGet o area 0x0F 1)
  let causes := d.areaGet o area 0x1D00 768
  let mf := BitVec.ofNat 2048 (d.areaGet o area 0x1C00 256)
  { VCtx.fresh gm with
    vl := if v.rep.running then v.vl else g 1
    vmc := BitVec.ofNat 7 (g 2)
    vstart := g 3
    strip := g 14
    stripn := if v.rep.running then 0 else g 15
    loopT := v.loopT
    v := (d.areaWords o (area + 0x8000) (2048 * k)).map fun e => (256 * (e.1 / (64 * k)) + e.1 % (64 * k), e.2)
    tags := (List.range 32).foldl (fun l r => sset .raw l r ((Tag.ofCode (bits tags (4 * r + 3) (4 * r))).getD .raw)) []
    tiles := (List.range 4).flatMap fun z =>
      if dirty.getLsbD z then (d.areaWords o (area + 0x10000 + 4096 * k * z) (1024 * k)).map fun e => (4096 * z + e.1, e.2) else []
    dirty := dirty
    masks := (List.range 8).foldl (fun l m => sset 0 l m (BitVec.ofNat 2048 (d.areaGet o area (0x1400 + 256 * m) 256))) []
    mf := mf
    mfc := (List.range 2048).filterMap fun w => if mf.getLsbD w then some (w, classCause (bits causes (3 * w + 2) (3 * w))) else none
    sd := (List.range 16).foldl (fun l n => sset Desc.zero l n (Desc.unpack (d.areaGet o area (0x1000 + 64 * n) 64))) []
    queue := d.areaQueue o area v
    pix := (d.areaQueue o area v).foldl (fun l q => (({ VCtx.absent with pix := l }).setPix q.num true q.word q.shown).pix) []
    rep := d.areaRep o area v
    fork := fork }

/-- The messages of an area's landing ring, oldest first. -/
def Die.areaRing (d : Die) (o area : Nat) : List Msg :=
  let head := d.areaGet o area 0x14 2
  (List.range (d.areaGet o area 0x16 2)).map fun i => Msg.unpack (d.areaGet o area (0x4000 + 64 * ((head + i) % 64)) 64)

/-- The identity that an area holds. -/
def Saved.ident (v : Saved) (owner job : Nat) (kind : Kind) : Ident := ⟨kind, owner, BitVec.ofNat 32 job, v.gen, v.home, v.minG, v.prefG⟩

/-- Read a context back (R269); `gm` is empty for the bare restore of R380, which discards the vector context, the ring and the latch. -/
def State.readArea (s : State) (i area : Nat) (v : Saved) (owner job : Nat) (gm : BitVec 4) (fork : Fork) : State :=
  let d := s.die
  let pc := BitVec.ofNat 64 (d.areaGet owner area 0x18 8)
  let bare := gm == 0
  let ctx := if bare then VCtx.absent else d.areaCtx owner area gm v fork
  let t : Strand := {
    pc := pc
    regs := d.areaRegs owner area
    priv := if (Priv.ofCode (d.areaGet owner area 0x0C 1)).code ≤ v.priv.code then Priv.ofCode (d.areaGet owner area 0x0C 1) else v.priv
    fcsr := BitVec.ofNat 9 (d.areaGet owner area 0x200 8)
    trap := d.areaTrap owner area
    xasid := v.xasid
    fxsel := 0
    dom := (List.range 16).foldl (fun l j => sset 0 l j (d.areaGet owner area (0x288 + 8 * j) 8)) []
    ctx := ctx
    joined := if bare then [] else v.joined
    id := v.ident owner job v.kind
    run := { Strand.empty.run with
      wait := .restoring
      entering := v.entering && !bare
      causes := if bare then [] else v.causes
      watchdog := v.watchdog && !bare
      linkData := if bare then [] else v.linkData
      hostLog := v.hostLog
      since := d.dtime
      retired := d.clock
      invals := d.areaInvals owner area v.stamps
      ring := if bare then [] else d.areaRing owner area } }
  let s := s.setStrand i t
  let f := d.areaGet owner area 0x2200 1
  let s := if !bare ∧ f / 2 % 2 = 1 ∧ (s.latch (i / 8)).owner = none then
      let arr (off : Nat) : List (Nat × VWord) := (d.areaWords owner (area + off) 64)
      s.setLatch (i / 8) ⟨arr 0x2000, arr 0x2100, f % 2 == 1, (Tag.ofCode (d.areaGet owner area 0x2201 1)).getD .raw, some i⟩
    else s
  if !bare ∧ d.areaGet owner area 0x10 1 % 2 = 1 then
    let img := (d.areaWords owner (area + 0x40000) 0x10000)
    s.modDie fun d => img.foldl (fun d e => d.areaWrite owner (0x120000000000 + 0x40000 * (i / 8) + 4 * e.1) (leBytes 4 e.2.toNat))
      (d.areaZero owner (0x120000000000 + 0x40000 * (i / 8)) 0x40000)
  else s

/-! ### The absent-context table -/

/-- The context leaves the strand by a save: its entry shows SAVED (R262). -/
def State.absentSaved (s : State) (id : Ident) (area : Nat) : State :=
  s.modCoreS (id.home / 8) fun c => c.setAbsent ⟨id.home % 8, id.gen, id.owner, .saved area⟩

/-- The context resumes on strand `i` (R262): at home its entry is freed and the strand's generation is set; elsewhere it shows MOVED. -/
def State.absentResumed (s : State) (id : Ident) (i : Nat) : State :=
  s.modCoreS (id.home / 8) fun c =>
    if id.home = i then { c.freeAbsent (i % 8) id.gen with gens := sset 0 c.gens (i % 8) id.gen }
    else c.setAbsent ⟨id.home % 8, id.gen, id.owner, .moved i⟩

/-- The context ends (R262): ENDED while engine commands are outstanding, else no entry. -/
def State.absentEnded (s : State) (id : Ident) : State :=
  s.modCoreS (id.home / 8) fun c =>
    if s.die.cmdsOf id.home id.gen = 0 then c.freeAbsent (id.home % 8) id.gen
    else c.setAbsent ⟨id.home % 8, id.gen, id.owner, .ended⟩

end Sys2Proof.Machine
end

