-- ==== Sys2Proof/Machine/Jobs.lean ====
section
/-! DEFINITION. The Timetable's jobs (R358 to R364, R376 to R383): entering, ending and abandoning them, servers, and the job instructions. -/

namespace Sys2Proof.Machine

/-! ### Clearance orders as jobs meet them (R410, R418) -/

/-- The order slot of a source partition (R408): `CLRCLU`, `CLRRES`, `CLRDL`, `CLRCTL` and `CLRWB` at +0, +8, +0x10, +0x18, +0x20. -/
def clrAddr (p : Nat) : Nat := 0x200007000000 + 64 * p

/-- The order of a partition is active: STATE is 1. -/
def Die.clrActive (d : Die) (p : Nat) : Bool := bits (d.reg (clrAddr p + 0x18)) 11 8 == 1

/-- The partitions whose active order names the cluster of a core. -/
def Die.clrNaming (d : Die) (core : Nat) : List Nat :=
  ((List.range 12).map (· + 1)).filter fun p => d.clrActive p && (d.reg (clrAddr p)).testBit (core / 4)

/-- No job is placed on the core: an active order names its cluster (R410), or the cluster has retired (R419). -/
def Die.closed (d : Die) (core : Nat) : Bool := d.clrNaming core != [] || d.retired.contains (core / 4)

/-- EXITCAP of an order, in ns. -/
def Die.exitCap (d : Die) (p : Nat) : Nat :=
  let x := bits (d.reg (clrAddr p + 0x18)) 33 28
  1000 * (if x = 0 then 5 else x)

/-- The cap that active orders put on an exit budget on a core (R410). -/
def Die.capBudget (d : Die) (core budget : Nat) : Nat := (d.clrNaming core).foldl (fun b p => Nat.min b (d.exitCap p)) budget

/-- Write a report record (R418, Table 21.7). -/
def Die.reportRecord (d : Die) (kind out handle est dplus t0 t1 seq k : Nat) : Die :=
  let log := d.reg 0x200007001000
  if log % 2 = 0 then d
  else
    let wp := d.reg 0x200007001008
    let at_ := bits log 47 12 * 4096 + 32 * (wp % 2 ^ (8 + bits log 11 8))
    let x := t1 % 2 ^ 64 * 2 ^ 192 + t0 % 2 ^ 64 * 2 ^ 128 + dplus % 2 ^ 32 * 2 ^ 96 + Nat.min est (2 ^ 32 - 1) * 2 ^ 64
      + seq % 256 * 2 ^ 56 + k % 16 * 2 ^ 48 + out * 2 ^ 40 + kind * 2 ^ 32 + handle % 2 ^ 32
    let d := match d.physWrite 0 at_ (leBytes 32 x) with
      | .ok d => d
      | .error e => d.errorRecord e 2048 at_
    d.setReg 0x200007001008 ((wp + 1) % 2 ^ 32)

/-- The outcome record of a decided job (R418, R421). -/
def Die.outcomeOf (d : Die) (p h out : Nat) : Die :=
  let o := sget ⟨0, 0, []⟩ d.orders p
  match o.picks.find? fun x => x.job == h && !x.closed with
  | none => d
  | some x =>
    let out := if out = 3 ∧ x.overran ≠ 0 then x.overran else out
    let d := d.reportRecord x.kind out h x.est x.dplus x.at_ d.dtime (bits (d.reg (clrAddr p + 0x18)) 23 16) x.k
    let picks := o.picks.map fun y => if y.job = h then { y with closed := true } else y
    { d with orders := sset ⟨0, 0, []⟩ d.orders p { o with picks := picks } }

/-- The outcome of a job is reported under every order that decided it: 1 DONE, 2 CHECKPOINTED, 3 CLEARED, 6 pre-empted, 7 ABANDONED. -/
def Die.outcome (d : Die) (h out : Nat) : Die := (d.orders.map (·.1)).foldl (fun d p => d.outcomeOf p h out) d

/-! ### The server of a VF (R367) -/

/-- `JSRV`, `JSDL`, `JSBG`, `JCLS` of a VF. -/
def jsrvAddr (v : Nat) : Nat := 0x200004000000 + 32 * v

/-- The server is enabled. -/
def Die.srvEn (d : Die) (v : Nat) : Bool := d.reg (jsrvAddr v) % 2 == 1
def Die.srvHard (d : Die) (v : Nat) : Bool := d.reg (jsrvAddr v) / 2 % 2 == 1
def Die.srvQ (d : Die) (v : Nat) : Nat := bits (d.reg (jsrvAddr v)) 31 16
def Die.srvT (d : Die) (v : Nat) : Nat := bits (d.reg (jsrvAddr v)) 51 32
def Die.srvDl (d : Die) (v : Nat) : Nat := d.reg (jsrvAddr v + 8)
/-- BG, two's complement. -/
def Die.srvBg (d : Die) (v : Nat) : Int := toSigned 64 (d.reg (jsrvAddr v + 16))

/-- Set DL and BG. -/
def Die.setServer (d : Die) (v dl : Nat) (bg : Int) : Die :=
  (d.setReg (jsrvAddr v + 8) (dl % 2 ^ 64)).setReg (jsrvAddr v + 16) (wrapBits 64 bg)

/-- A refresh. -/
def Die.refresh (d : Die) (v : Nat) : Die := d.setServer v (d.dtime + 1000 * d.srvT v) ((1000 * d.srvQ v : Nat) : Int)

/-- DL and BG stepped until BG is above 0; Q is at least 1 while the server is enabled. -/
def Die.replenish (d : Die) (v : Nat) : Die :=
  let q := 1000 * Nat.max 1 (d.srvQ v)
  let n := if 0 < d.srvBg v then 0 else (-(d.srvBg v)).toNat / q + 1
  d.setServer v (d.srvDl v + n * (1000 * d.srvT v)) (d.srvBg v + ((n * q : Nat) : Int))

/-- The budget is exhausted. -/
def Die.exhausted (d : Die) (v : Nat) : Bool := d.srvEn v && decide (d.srvBg v ≤ 0)

/-- The server is suspended: exhausted, HARD, before DL. -/
def Die.suspended (d : Die) (v : Nat) : Bool := d.exhausted v && d.srvHard v && decide (d.dtime < d.srvDl v)

/-- The wake of R367: a job becomes READY while none of the VF is READY, DISPATCHING or RUNNING. -/
def Die.wake (d : Die) (v : Nat) : Die :=
  if !d.srvEn v || (d.jobs.any fun e => e.2.vf == v && e.2.gen != 0 &&
      (e.2.state == .ready || e.2.state == .dispatching || e.2.state == .running)) then d
  else if d.srvDl v ≤ d.dtime ∨ ((d.srvDl v - d.dtime : Nat) : Int) * (d.srvQ v : Int) ≤ d.srvBg v * (d.srvT v : Int) then d.refresh v
  else d

/-! ### Becoming READY (R363) -/

/-- A PENDING job that may run becomes READY (R363). -/
def Die.releaseJob (d : Die) (h : Nat) : Die :=
  match d.job h with
  | none => d
  | some j =>
    if j.state = .pending ∧ j.release ≤ d.dtime ∧ (j.count = 0 ∨ j.earlyOk) then (d.wake j.vf).intoTier h .ready else d

/-! ### Entering a job (R358, R360, R364) -/

/-- A malformed descriptor (R358). -/
def Die.malformedDesc (d : Die) (vf x : Nat) : Bool :=
  bits x 255 252 != 0 || bits x 59 54 != 0 || bits x 1 0 != 0 || bits x 233 232 == 2 || bits x 235 234 == 2
    || decide (bits x 235 234 < bits x 233 232) || (bits x 61 61 == 1 && !d.inPart (d.vfPart vf) (bits x 251 244))

/-- The class record of a VF (R360): exit VA and budget, where the class is defined. -/
def Die.classRecord (d : Die) (vf c : Nat) : Option (Nat × Nat) :=
  match d.physRead (0x100 + vf) (bits (d.reg (jsrvAddr vf + 24)) 47 12 * 4096 + 16 * c) 16 with
  | .error _ => none
  | .ok (bs, _) => if leVal (bs.take 8) = 0 then none else some (leVal (bs.take 8), leVal ((bs.drop 8).take 4))

/-- The entry that a new job takes (R362): a free one, lowest first, then the ENDED one that ended first. -/
def Die.freeEntry (d : Die) : Option Nat :=
  if d.jobs.length < 65536 then
    some (d.jobs.foldl (fun n e => if e.1 = n then n + 1 else n) 0)
  else
    (d.jobs.foldl (fun (best : Option (Nat × Nat)) e =>
      if e.2.state != .ended then best
      else match best with
        | some b => if e.2.order < b.2 then some (e.1, e.2.order) else best
        | none => some (e.1, e.2.order)) none).map Prod.fst

/-- Why a job is not entered: the negative code of R364 without its sign. -/
def Die.enterFault (d : Die) (vf x : Nat) : Option Nat :=
  if d.vfPart vf = 0 then some 6
  else if d.malformedDesc vf x then some 2
  else if (d.classRecord vf (bits x 231 224)).isNone then some 4
  else if bits x 223 192 ≠ 0 ∧ !((d.job (bits x 223 192)).any fun p => p.live && p.vf == vf) then some 3
  else if d.freeEntry.isNone then some 1
  else none

/-- A decrement of a parent (R361): the tally rises where the status is not DONE; at count 0 the job is no longer early-started (R373). -/
def Die.childEnded (d : Die) (parent status : Nat) : Die :=
  d.modJob parent fun p =>
    if p.live then { p with
      count := p.count - 1
      early := p.early && p.count != 1
      tally := if status = 1 then p.tally else p.tally + 1 }
    else p

/-- Record a final status (R362, Table 23.3). -/
def Die.finish (d : Die) (h status word : Nat) : Die :=
  match d.job h with
  | none => d
  | some j =>
    let d := d.outcome h (if status = 1 then 1 else if status = 4 then 3 else 7)
    let d := d.modJob h fun j => { j with
      state := .ended, status := status, word := word, root := none, slots := [], placed := none, preempt := 0
      order := d.endings
      run := if j.state = .running ∨ j.state = .exiting then j.run + (d.dtime - j.runSince) else j.run }
    let d := { d with endings := d.endings + 1 }
    let d := d.addReg (telemetry j.owner (0x20 + 8 * (status - 1))) 1
    let d := d.childEnded j.parent status
    match j.queue with
    | some (q, n) => { d with due := d.due ++ [.report j.vf q n h status word d.dtime] }
    | none => d

/-- Enter a job that passed the checks (R361, R363, R364): its handle. -/
def Die.enterJob (d : Die) (x vf owner asid : Nat) (queue : Option (Nat × Nat)) : Nat × Die :=
  let i := d.freeEntry.getD 0
  let old := sget Job.unused d.jobs i
  let g := if old.gen = 65535 then 1 else old.gen + 1
  let cls := (d.classRecord vf (bits x 231 224)).getD (0, 0)
  let h := g * 65536 + i
  let j : Job := { Job.unused with
    gen := g, vf := vf, owner := owner, asid := asid, desc := x, state := .pending, count := bits x 243 236
    exitVa := cls.1, budget := cls.2, queue := queue }
  let d := { d with jobs := sset Job.unused d.jobs i j }
  let d := d.modJob (bits x 223 192) fun p =>
    if p.started || p.filled == p.deps then { p with count := p.count + 1 } else { p with filled := p.filled + 1 }
  (h, if j.deadline ≤ d.dtime then d.finish h 3 0 else d.releaseJob h)

/-! ### Strands that end -/

/-- A strand stops for good: a request that has left the die is discarded when it completes, one that waits for its translation or page is not
sent (R108; log 79); requests of the SFU are cancelled (R278). -/
def State.dropRequests (s : State) (i : Nat) : State :=
  let t := s.strand i
  s.modDie fun d => { d.sfuCancel i with
    orphans := d.orphans ++ ((t.run.hostReq.filter fun q => q.phase == .sent).toList.map fun q =>
      ⟨i, t.id.owner, t.xasid.toNat, { q with cancelled := true }⟩) }

/-- A strand leaves what it shares: its requests, its domains, its ring latch and the continuations accepted for it (R108, R243, R278, R295,
R380). -/
def State.detach (s : State) (i : Nat) : State :=
  (((s.dropRequests i).leaveDomains i domV).releaseLatch i).modCoreS (i / 8) fun c => { c with conts := c.conts.filter fun e => e.1 != i }

/-- A strand ends: its lanes are free, and its identity goes with it (R210, R262, R378). -/
def State.endStrand (s : State) (i : Nat) : State :=
  let t := s.strand i
  (((s.detach i).modCoreS (i / 8) fun c => c.release i).absentEnded t.id).setStrand i Strand.empty

/-- A child c ≥ 1 ends (R124): its share of the registers stays in the lanes for child 0, whose groups they are now, and the rest of it ends
as any strand's does. -/
def State.endChild (s : State) (i : Nat) : State :=
  let t := s.strand i
  let root := t.ctx.fork.root
  let s := s.modStrand root fun r => { r with joined := r.joined ++ [⟨t.ctx.fork.index, t.ctx, t.fcsr⟩] }
  let s := s.modCoreS (i / 8) fun c => c.modGroups (c.owned i) fun e => { e with own := some root }
  s.endStrand i

/-- VJOIN (R124): a child c ≥ 1 ends; child 0 waits for every other child to end. -/
def execVjoin (s : State) : Out :=
  if !s.me.ctx.leased || s.me.ctx.fork.n = 0 then ok (s.illegal 0x01 (encode .vjoin))
  else if s.me.ctx.fork.index ≠ 0 then ok (s.endChild s.meId)
  else if s.family s.meId = [] then ok s.joinFamily
  else ok (s.waitIn .join)

/-- VJOIN_REASSEMBLE (R218): the VJOIN at which child 0 waits goes on. -/
def execVjoinReassemble (strand : Nat) (s : State) : Out :=
  ok (s.at strand fun s =>
    if s.me.ctx.fork.n ≠ 0 ∧ s.me.ctx.fork.index = 0 ∧ s.me.run.wait = .join ∧ s.family s.meId = [] then s.joinFamily else s)

/-- End every other child of a family and reassemble it in child 0 (R117, R380). -/
def State.endFamily (s : State) (root : Nat) : State :=
  if (s.strand root).ctx.fork.n = 0 then s
  else ((s.family root).foldl (fun s e => s.endChild e.1) s).modStrand root Strand.reassembled

/-- Withdraw what a job waits for on a core: its reservations and its handler messages (R216, R372, R380). -/
def State.withdrawJob (s : State) (h : Nat) : State :=
  s.modDie fun d => { d with cores := d.cores.map fun e =>
    let c := e.2.reservations.foldl (fun c r => if r.job = h then c.dropReservation r else c) e.2
    (e.1, { c with
      handlers := c.handlers.filter fun m => m.job != h
      offers := c.offers.filter fun m => m.cont || m.job != h }) }

/-- A job's saved contexts end with it: their absent entries (R262) and their domains (R295). -/
def State.dropSaved (s : State) (j : Job) : State :=
  j.slots.foldl (fun s v => (s.leaveSaved v).absentEnded ⟨.free, j.owner, 0, v.gen, v.home, 1, 1⟩) s

/-- The job ends with a status (R378 steps 2 to 4). -/
def State.endJob (s : State) (h status word : Nat) : State :=
  let s := match s.die.job h with
    | some j => s.dropSaved j
    | none => s
  let s := (s.strandsOf h).foldl State.endStrand s
  (s.withdrawJob h).modDie fun d => d.finish h status word

/-- NDONE and RUNAVG of a class (R411), and the slack histogram (Table 23.3), at a DONE. -/
def Die.countDone (d : Die) (h : Nat) : Die :=
  match d.job h with
  | none => d
  | some j =>
    let a := 0x200009100000 + 0x800 * j.vf + 8 * j.cls
    let x := d.reg a
    let run : Int := ((j.run + (d.dtime - j.runSince) : Nat) : Int)
    let avg : Int := ((bits x 47 0 : Nat) : Int)
    let d := d.setReg a (Nat.min 65535 (bits x 63 48 + 1) * 2 ^ 48 + wrapBits 48 (avg + (run - avg) / 8))
    let us := (j.deadline - d.dtime) / 1000
    d.addReg (telemetry j.owner (0x80 + 8 * (if us = 0 then 0 else Nat.min 15 (us.log2 + 1)))) 1

/-! ### Abandonment (R380, R381) -/

/-- A strand that is stopped for good (R117, R380): its queued instructions retire as empty operations. -/
def Strand.halted (t : Strand) : Strand :=
  { t with
    ctx := { t.ctx with vl := 0, stripn := 0, vstart := 0, rep := Rep.empty, pix := [], queue := [] }
    run := { Strand.empty.run with
      wait := .exit
      since := t.run.since
      retired := t.run.retired
      lastIssue := t.run.lastIssue
      invals := t.run.invals
      hostLog := t.run.hostLog } }

/-- Engine commands of a job are cancelled: they end with no message, messages not accepted are not sent (R334, R380, R390), and the entries of
ended contexts that waited for them are freed (R262). -/
def Die.cancelCmds (d : Die) (h : Nat) : Die :=
  let d := { d with cmds := d.cmds.filter fun c => c.noJob || c.job != h }
  { d with cores := d.cores.map fun e => (e.1, { e.2 with
      offers := e.2.offers.filter fun m => m.noJob || m.job != h
      absent := e.2.absent.filter fun a => a.at_ != .ended || d.cmdsOf (8 * e.1 + a.strand) a.gen != 0 }) }

/-- The stop of a RUNNING job: every strand but the root ends, the root halts (R380). -/
def State.stopJob (s : State) (h root : Nat) : State :=
  let s := (s.modDie fun d => d.cancelCmds h).endFamily root
  let s := ((s.strandsOf h).filter (· ≠ root)).foldl State.endStrand s
  (((s.withdrawJob h).withdrawChanges root).detach root).modStrand root Strand.halted

/-- A strand whose context was being read back gives it up: the context is in its save area still, and its entry shows it there (R380). -/
def State.unread (j : Job) (s : State) (i : Nat) : State :=
  let t := s.strand i
  let s := ((s.leaveDomains i domV).releaseLatch i).modCoreS (i / 8) fun c => c.release i
  let s := match j.slots.find? fun v => v.home == t.id.home && v.gen == t.id.gen with
    | some v => s.absentSaved t.id (s.die.slotArea (s.die.vfPart j.vf) v.slot)
    | none => s
  s.setStrand i Strand.empty

/-- The contexts of a job wait for the bare restore of its root's scalar part (R380): they leave their domains, and what the job waits for on a
core is withdrawn. -/
def State.bareRestore (s : State) (h : Nat) (j : Job) (status cause : Nat) : State :=
  let back := s.strandsOf h
  let s := if back = [] then j.slots.foldl State.leaveSaved s else back.foldl (State.unread j) s
  (s.withdrawJob h).modDie fun d =>
    ((d.cancelCmds h).modJob h fun j => { j with
      bare := true, cause := cause, pend := status, placed := none, preempt := 0
      slots := j.slots.map fun v => { v with dom := [], own := Barrier.free, barPhase := [] } }).intoTier h
        (if j.state = .checkpointed then .checkpointed else if j.state = .dispatching ∨ j.state = .ready then .ready else .saved)

/-- A save in progress stops with its job (R270, R380): the contexts still on their strands end, but for a root strand, which halts for the exit
routine; a root that has been saved is restored for it. -/
def State.abandonRunning (s : State) (h : Nat) (j : Job) (status cause : Nat) : State :=
  match j.root with
  | some root => ((s.dropSaved j).stopJob h root).modDie fun d =>
    d.modJob h fun j => { j with slots := [], cause := cause, pend := status, preempt := 0 }
  | none =>
    if j.slots = [] then s.endJob h status 0
    else ((s.strandsOf h).foldl State.endStrand (s.modDie fun d => d.cancelCmds h)).bareRestore h j status cause

/-- Abandon one job (R380): `status` 2 ABANDONED or 4 CLEARED. -/
def State.abandonOne (s : State) (h status cause : Nat) : State :=
  match s.die.job h with
  | none => s
  | some j =>
    if j.pend ≠ 0 then s
    else match j.state with
    | .ended | .exiting => s
    | .running => s.abandonRunning h j status cause
    | _ => if j.slots = [] then s.endJob h (if status = 4 then 4 else 3) 0 else s.bareRestore h j status cause

/-- The live descendants of a job, itself first: `fuel` levels. -/
def Die.descendants (d : Die) : Nat → List Nat → List Nat
  | 0, hs => hs
  | fuel + 1, hs =>
    let kids := (d.jobs.filter fun e => e.2.live && hs.contains e.2.parent).map handleOf
    if kids = [] then hs else hs ++ d.descendants fuel kids

/-- Abandon a job with its descendants (R380): a descendant takes the status of its ancestor's, with cause 1. -/
def State.abandon (s : State) (h status cause : Nat) : State :=
  match s.die.job h with
  | none => s
  | some j =>
    if !j.live || j.state == .exiting then s
    else
      let kids := (s.die.descendants 65536 [h]).drop 1
      kids.foldl (fun s k => s.abandonOne k status 1) (s.abandonOne h status cause)

/-- The reason word of an exit routine (R381). -/
def Job.reason (j : Job) : Word := BitVec.ofNat 64 (j.pend + 256 * j.cause)

/-- The exit routine starts on the root strand once its stop has completed (R381). -/
def State.exitStart (s : State) (h : Nat) : State :=
  match s.die.job h with
  | none => s
  | some j => match j.root with
    | none => s
    | some i =>
      let t := s.strand i
      if t.run.wait = .exit then
        (s.setStrand i { t.setReg 31 j.reason with
          pc := BitVec.ofNat 64 j.exitVa
          priv := .user
          id := { t.id with kind := .exiting }
          run := { t.run with wait := .ready, retired := s.die.clock } }).modDie fun d =>
            d.modJob h fun j => { j with state := .exiting, exitAt := d.dtime, budget := d.capBudget (i / 8) j.budget }
      else s

/-- EXIT_ROUTINE_START (R381). -/
def execExitRoutineStart (handle : Nat) (s : State) : Out := ok (s.exitStart handle)

/-- A VF that an export has quiesced: its jobs wait for the target (Table 24.7). -/
def Die.frozen (d : Die) (v lo : Nat) : Bool := !d.mig.dir && d.mig.vf == v && decide (lo ≤ d.mig.state ∧ d.mig.state ≤ 3)

/-- DEADLINE_EXPIRY (R380); the jobs of a frozen VF meet their deadlines on the target (R451). -/
def State.deadline (s : State) (h : Nat) : State :=
  match s.die.job h with
  | some j =>
    if j.live && j.state != .exiting && decide (j.deadline ≤ s.die.dtime) && j.pend == 0 && !s.die.frozen j.vf 2 then s.abandon h 2 0 else s
  | none => s
def execDeadlineExpiry (handle : Nat) (s : State) : Out := ok (s.deadline handle)

/-- EXIT_BUDGET_EXPIRY: the strand is reset and the job ends with its abandonment status (R381). -/
def State.exitBudget (s : State) (h : Nat) : State :=
  match s.die.job h with
  | some j => if j.state = .exiting ∧ j.exitAt + j.budget ≤ s.die.dtime then s.endJob h j.pend 0 else s
  | none => s
def execExitBudgetExpiry (handle : Nat) (s : State) : Out := ok (s.exitBudget handle)

/-- A strand failed: where it is a root the job ends ABANDONED with no exit routine, else the job is abandoned with that cause (R202, R229,
R230, R380, R381). A strand of no job ends. -/
def State.failStrand (s : State) (i cause : Nat) : State :=
  let t := s.strand i
  let h := t.id.job.toNat
  match t.id.kind with
  | .free => s
  | .column => (s.detach i).modStrand i Strand.stop
  | .root =>
    let kids := (s.die.descendants 65536 [h]).drop 1
    kids.foldl (fun s k => s.abandonOne k 2 1) ((s.modDie fun d => d.cancelCmds h).endJob h 2 0)
  | .exiting => match s.die.job h with
    | some j => s.endJob h j.pend 0
    | none => s.endStrand i
  | .aux | .child => s.abandon h 2 cause

/-! ### The job instructions -/

/-- The checks that keep a job instruction from a strand (R364, R378, R379, R454). -/
def State.jobDenied (s : State) (ks : List Kind) : Bool := ks.contains s.me.id.kind

/-- SPAWN (R364), a release at die scope (Table 17.3). -/
def execSpawn (d a : Fin 32) (s : State) : Out :=
  let word := encode (.spawn d a)
  let va := (s.reg a).toNat
  if s.jobDenied [.aux, .child, .column] then ok (s.illegal 0x01 word)
  else if !s.drained then ok (s.waitIn .fence)
  else match s.resolveScalar va 64 .read with
    | .inr s => ok (s.waitIn .migrating)
    | .inl (.error (c, s)) => ok (s.trap c (BitVec.ofNat 64 va))
    | .inl (.ok (pa, _, s)) =>
      match s.loadLinked va pa 64 with
      | .trap c _ s => ok (s.trap c (BitVec.ofNat 64 va))
      | .wait _ pa s => ok (s.linkRequest (linkRead va pa 64))
      | .ok bs s =>
        let x := leVal bs
        let vf := ((s.die.job s.me.id.job.toNat).map (·.vf)).getD (ownerVf s.me.id.owner)
        if s.me.id.kind = .exiting then ok (s.writeRetire d (BitVec.ofInt 64 (-5)))
        else match s.die.enterFault vf x with
          | some e => ok (s.writeRetire d (BitVec.ofInt 64 (-(e : Int))))
          | none =>
            let (h, die) := s.die.enterJob x vf s.me.id.owner s.me.xasid.toNat none
            ok ((s.withDie die).writeRetire d (BitVec.ofNat 64 h))

/-- JWAIT (R376). -/
def execJwait (d : Fin 32) (s : State) : Out :=
  if s.jobDenied [.column] then ok (s.illegal 0x01 (encode (.jwait d)))
  else match s.die.job s.me.id.job.toNat with
    | none => ok (s.writeRetire d 0)
    | some j =>
      if j.count = 0 then
        ok ((s.modDie fun x => x.modJob s.me.id.job.toNat fun j => { j with tally := 0 }).writeRetire d
          (BitVec.ofNat 64 (Nat.min (2 ^ 32 - 1) j.tally)))
      else ok (s.waitIn .jwait)

/-- JDONE (R378): the job ends DONE, once every access of the strand has performed. -/
def execJdone (a : Fin 32) (s : State) : Out :=
  if s.jobDenied [.aux, .child, .exiting, .column] then ok (s.illegal 0x01 (encode (.jdone a)))
  else if !s.drained then ok (s.waitIn .fence)
  else
    let h := s.me.id.job.toNat
    let w := (s.reg a).toNat % 2 ^ 32
    if (s.die.job h).isNone then ok (s.endStrand s.meId)
    else ok ((s.modDie fun d => d.countDone h).endJob h 1 w)

/-- JSTAT (R377, R454). -/
def execJstat (d a : Fin 32) (s : State) : Out :=
  let h := (s.reg a).toNat
  let vf := ((s.die.job s.me.id.job.toNat).map (·.vf)).getD (ownerVf s.me.id.owner)
  match (if h < 2 ^ 32 then s.die.job h else none) with
  | none => ok (s.writeRetire d 0)
  | some j =>
    if j.vf ≠ vf ∧ s.me.id.kind ≠ .column then ok (s.writeRetire d 0)
    else
      let low := if j.state = .ended then (if j.status = 1 then j.word else 0) else j.count % 2 ^ 32
      ok (s.writeRetire d (BitVec.ofNat 64 (j.state.code * 2 ^ 40 + j.status * 2 ^ 32 + low)))

/-- JEXIT (R379). -/
def execJexit (s : State) : Out :=
  if s.jobDenied [.exiting, .aux] && !s.drained then ok (s.waitIn .fence)
  else match s.me.id.kind with
  | .exiting => match s.die.job s.me.id.job.toNat with
    | some j => ok (s.endJob s.me.id.job.toNat j.pend 0)
    | none => ok (s.endStrand s.meId)
  | .aux => ok (s.endStrand s.meId)
  | _ => ok (s.illegal 0x01 (encode .jexit))

/-! ### Events -/

/-- JOB_RELEASE (R363). -/
def execJobRelease (handle : Nat) (s : State) : Out := ok (s.modDie fun d => d.releaseJob handle)

/-- JOB_END: the end of a job whose strands have drained (R378 steps 3 and 4). -/
def execJobEnd (handle status word : Nat) (s : State) : Out :=
  ok (match s.die.job handle with
    | some j => if j.live && decide (1 ≤ status ∧ status ≤ 4) then
        (if status = 1 then s.modDie fun d => d.countDone handle else s).endJob handle status (if status = 1 then word % 2 ^ 32 else 0) else s
    | none => s)

end Sys2Proof.Machine
end

