-- ==== Sys2Proof/Machine/Slots.lean ====
section
/-! DEFINITION. What waits for the vector queue (R21, R109, R192), the state in which an instruction of it runs: what it took at issue in the place of
the strand's own controls (R110, R122), and the hotness of the elements that it has completed (R355). -/

namespace Sys2Proof.Machine

/-! ### Rotation (R122) -/

/-- The name of a register field, moved by a shift. -/
def rotReg (sh f : Nat) : Nat := if f < 16 then f else 16 + (f - 16 + sh) % 16

/-- A word with its vector-register fields moved by a shift. -/
def rotWord (sh w : Nat) : Nat := (rotFields w).foldl (fun x lo => putBits x (lo + 4) lo (rotReg sh (bits x (lo + 4) lo))) w

/-- The shift of strip t with group size G. -/
def Rep.shift (r : Rep) : Nat := if r.rot then r.t * 2 ^ bits r.vmc.toNat 5 4 % 16 else 0

/-- The register file with v16 to v31 renamed by a shift: what was register `rotReg sh f` is register f. -/
def rotFile (sh : Nat) (l : List (Nat × α)) (size : Nat) : List (Nat × α) :=
  if sh = 0 then l
  else
    let mid := size * (16 + sh)
    (l.filter fun e => decide (e.1 < 16 * size))
      ++ ((l.filter fun e => decide (mid ≤ e.1)).map fun e => (e.1 - sh * size, e.2))
      ++ ((l.filter fun e => decide (16 * size ≤ e.1 ∧ e.1 < mid)).map fun e => (e.1 + (16 - sh) * size, e.2))

/-! ### What is captured and what waits -/

/-- A vector instruction that may not be captured: VCTL, SDSC, MPOPC, MFIRST and the reductions (R121). -/
def notCaptured (w : Nat) : Bool :=
  major w == 0x20 || major w == 0x29 || (major w == 0x24 && (bits w 10 5 == 9 || bits w 10 5 == 10))
    || (major w == 0x25 && decide (8 ≤ bits w 10 5 ∧ bits w 10 5 ≤ 11))

/-- A VREP captures here: not in the handler of a trap taken meanwhile (R121, R225; log 70). -/
def VCtx.capturing (c : VCtx) : Bool := decide (0 < c.rep.toCapture) && !c.rep.suspended

/-- The words of the repetition still to be re-issued, in this strip or a later one. -/
def Rep.toCome (r : Rep) : List Nat :=
  if !r.running then [] else (if r.stripn = 0 then r.body.drop r.pos else r.body).map (·.word)

/-- A faultable instruction has not settled: nothing younger takes effect (R192). A re-issue to come counts (R225). -/
def VCtx.unsettled (c : VCtx) : Bool :=
  c.queue.any (fun q => !q.settled) || c.rep.toCome.any fun w => faultable w 1 (c.rep.vmc.getLsbD 6)

/-- Memory instructions are queued or to be re-issued. -/
def VCtx.accessing (c : VCtx) : Bool := c.queue.any (fun q => accesses q.word) || c.rep.toCome.any accesses

/-- A CSR instruction that waits for the queue to be empty: VSTART, STRIP, STRIPN, PIX (R21) and XASID (R336). -/
def csrWaits (w : Nat) : Bool :=
  let n := bits w 11 0
  major w == 0x17 && (n == 0x012 || n == 0x180 || n == 0xC13 || n == 0xC14 || decide (0xC20 ≤ n ∧ n < 0xC40))

/-- An instruction that waits for the queue to be empty: SYS, YIELD (R256), JDONE, JEXIT (R378), and of VCTL a SETVL without KEEP (R214), VFORK
(R123), VJOIN (R124) and VWAIT (R126). -/
def drains (w : Nat) : Bool :=
  let op := bits w 10 5
  major w == 0x01 || csrWaits w || (major w == 0x15 && [4, 7, 8].contains (bits w 10 6))
    || (major w == 0x20 && ((op == 0 && !w.testBit 0) || op == 4 || op == 5 || op == 7))

/-- A scalar instruction that waits for the memory instructions of the queue (R187; log 2). -/
def ordered (w : Nat) : Bool := [0x0C, 0x0D, 0x0E, 0x15, 0x16].contains (major w) || (major w == 0x29 && (bits w 11 7 == 2 || bits w 11 7 == 3))

/-- The instruction at the PC waits for the vector queue (R21, R109, R110, R178, R192, R207). -/
def VCtx.held (c : VCtx) (w : Nat) : Bool :=
  c.unsettled
    || (vectorMajor w && c.rep.running)
    || (queued w && decide (32 ≤ c.queue.length))
    || (c.busy && drains w)
    || (c.accessing && ordered w)
    || c.pends (scalarRegs w)

/-! ### The view of a slot -/

/-- Put a value in the register that a field of a word names. -/
def Strand.operand (t : Strand) (w : Nat) (f : Option Nat) (v : Word) : Strand :=
  match f with
  | some lo => t.setReg (Fin.ofNat 32 (bits w (lo + 4) lo)) v
  | none => t

/-- The state that the instruction of a slot runs in, its words from IDX to `n`: what it took at issue, and TPOL only where it completes. One that
completes element by element keeps its slot in view: the slot counts its elements and moves its descriptor on. -/
def State.slotView (s : State) (q : Slot) (n : Nat) : State :=
  s.modMe fun t =>
    let t := (t.operand q.word (scalarField q.word) q.scalar).operand q.word (indexField q.word) q.index
    let vmc := if n < q.vl then q.vmc &&& ~~~(0x08 : BitVec 7) else q.vmc
    { t with
      pc := q.pc
      fcsr := q.fcsr &&& 0x1E0
      ctx := { t.ctx with
        vl := n
        vmc := vmc
        vstart := if ringPass q.word then q.vstart else q.idx
        v := rotFile q.shift t.ctx.v 256
        tags := rotFile q.shift q.tags 1
        sd := match descField q.word with
          | some d => sset Desc.zero t.ctx.sd d q.desc
          | none => t.ctx.sd
        queue := if stepsOf q.word = .memory ∨ stepsOf q.word = .rows then [q] else [] }
      run := { t.run with
        wait := if t.run.wait = .migrating then .migrating else .ready
        entering := false
        passSent := ringPass q.word && q.idx == 1 } }

/-- The elements, or rows, of a slot's instruction from the first not counted to word `n`, by the translations of its probe. -/
def State.slotHeat (s : State) (q : Slot) (n : Nat) : State :=
  let d := q.desc
  let c := { (s.slotView q n).me.ctx with vstart := q.counted }
  let copies (vas : List Nat) : List Copy :=
    vas.filterMap fun va => d.xlat.find? fun x => x.covers s.me.id.owner s.me.xasid.toNat va
  let op := bits q.word 11 7
  match stepsOf q.word with
  | .rows => s.modDie fun x => x.hotCounts (heatOf d true) (copies ((c.activeRows 0).flatMap fun r =>
      (List.range 64).map fun j => spaceVa d.space.toNat (d.adv (64 * r + j)).offset))
  | .memory =>
    let idx := if 5 ≤ op then some (bits q.word 16 12) else none
    s.modDie fun x => x.hotCounts (heatOf d idx.isNone)
      (copies ((c.elements d idx (decide (op < 10) && d.stepWords == 2)).map fun e => spaceVa d.space.toNat e.2))
  | _ => s

/-- The words below IDX of a slot's instruction are given to the hotness counters (R355). -/
def State.slotCount (s : State) (q : Slot) : State :=
  if q.idx ≤ q.counted then s else (s.slotHeat q q.idx).modCtx fun c => c.setSlot { q with counted := q.idx }

end Sys2Proof.Machine
end

