-- ==== Sys2Proof/Machine/System.lean ====
section
/-! DEFINITION. System instructions (R101 to R106), translation maintenance (R104, R105, R345 to R347) and barriers (R293). -/

namespace Sys2Proof.Machine

/-- ECALL: trap cause 0x08, TVAL 0 (R101). -/
def execEcall (s : State) : Out := ok (s.trap 0x08 0)
/-- BREAK: trap cause 0x09, TVAL 0 (R101). -/
def execBrk (s : State) : Out := ok (s.trap 0x09 0)
/-- A TRAPRET to the suspended instruction resumes the repetition, with the controls as the handler leaves them (R204, R225). -/
def VCtx.resumeRep (c : VCtx) (fcsr : BitVec 9) : VCtx :=
  { c with
    vl := 0
    stripn := 0
    vstart := 0
    rep := { c.rep with
      running := true
      suspended := false
      vl := c.vl
      strip := c.strip
      stripn := c.stripn
      vstart := c.vstart
      vmc := c.vmc
      fcsr := fcsr &&& 0x1E0 } }

/-- What TRAPRET does to the repetition (R225): a capture goes on at the privilege of its VREP; a suspended one goes on where the return is
to its instruction, the front end past the body, and any other return clears it. -/
def Strand.returnRep (m : Strand) : Strand :=
  let r := m.ctx.rep
  if !r.suspended then m
  else if 0 < r.toCapture then
    if m.priv = r.priv then { m with ctx := { m.ctx with rep := { r with suspended := false } } } else m
  else match r.body[r.pos]? with
    | some c =>
      if c.va = m.pc then { m with pc := ((r.body.getLast?).getD c).va + 4, ctx := m.ctx.resumeRep m.fcsr }
      else { m with ctx := { m.ctx with rep := Rep.empty } }
    | none => { m with ctx := { m.ctx with rep := Rep.empty } }

/-- TRAPRET (R102, R225). -/
def execTrapret (s : State) : Out :=
  ok (needs .supervisor (encode .trapret) s fun s =>
    let t := s.trapReturn
    if t.me.trap.hold then t else t.modMe Strand.returnRep)

/-- The earlier accesses of a FENCE kind, and the later ones (Table 4.15). -/
def fenceBefore (k : Nat) : Bool × Bool := (k != 2, k != 1 && k != 3)
def fenceAfter (k : Nat) : Bool × Bool := (k != 2 && k != 4, k != 1)

/-- FENCE: every earlier access of the strand on the die has performed when its step begins (R103; log 2); where it orders stores it waits for
those that the twin has still to accept. At scope .s it orders nothing toward others. At .y it orders the strand's requests to the host (R330). -/
def execFence (sc k : Fin 8) (s : State) : Out :=
  ok (let b := fenceBefore k.val
    let a := fenceAfter k.val
    let go (s : State) : State := (if sc.val = 4 then s.modMe fun t => t.orderHost b.1 b.2 a.1 a.2 else s).retire
    if b.2 && sc.val != 0 then s.drain go else go s)
/-- XPFENCE (R106): a command issued after it reads nothing older than the stores before it (R327). -/
def execXpfence (s : State) : Out :=
  ok (s.drain fun s => (s.modMe fun t => { t with run := { t.run with unfenced := [] } }).retire)

/-- PTFENCE (R104, R345): a narrower scope than die orders nothing toward a walker; at die scope every earlier store has performed. -/
def State.ptfence (s : State) (scope word : Nat) : State :=
  needs .supervisor word s fun s => if 3 ≤ scope then s.drain State.retire else s.retire
def execPtfenceStrand (s : State) : Out := ok (s.ptfence 0 (encode .ptfenceStrand))
def execPtfenceCore (s : State) : Out := ok (s.ptfence 1 (encode .ptfenceCore))
def execPtfenceCluster (s : State) : Out := ok (s.ptfence 2 (encode .ptfenceCluster))
def execPtfenceDie (s : State) : Out := ok (s.ptfence 3 (encode .ptfenceDie))
def execPtfenceSystem (s : State) : Out := ok (s.ptfence 4 (encode .ptfenceSystem))

/-- Drop copies from the descriptors of a strand: those of its registers, and those of queued instructions that have not made their probe; one
that has keeps its translations to its end (R350). -/
def Strand.dropHeld (t : Strand) (f : Copy → Bool) : Strand :=
  let drop (d : Desc) : Desc := { d with xlat := d.xlat.filter fun c => !f c }
  { t with ctx := { t.ctx with
    sd := t.ctx.sd.map fun e => (e.1, drop e.2)
    queue := t.ctx.queue.map fun q => if q.probed then q else { q with desc := drop q.desc } } }

/-- Drop the copies that an invalidation names from every descriptor of every running context (R346). -/
def Strand.dropXlat (i : Inval) (t : Strand) : Strand :=
  t.dropHeld i.hits

/-- Carry out an invalidation everywhere (R346). -/
def State.invalidate (s : State) (i : Inval) : State :=
  { s with me := s.me.dropXlat i, others := s.others.map fun e => (e.1, e.2.dropXlat i), die := s.die.invalidate i }

/-- The owner whose ASIDs TLBINV and TLBSYNC name (R104, R336). -/
def Strand.invOwner (t : Strand) : Nat := if t.priv = .firmware then t.fxsel.toNat else t.id.owner

/-- TLBINV (R104): the invalidation reaches every copy, and stays outstanding until a TLBSYNC. -/
def execTlbinv (c a b : Fin 32) (l : Bool) (s : State) : Out :=
  ok (needs .supervisor (encode (.tlbinv c a b l)) s fun s =>
    let i : Inval := ⟨s.me.invOwner, (s.reg a).toNat % 65536, (s.reg b).toNat / 4096 * 4096, (s.reg c).toNat, l, s.die.clock⟩
    ((s.invalidate i).modMe fun t => { t with run := { t.run with invals := t.run.invals ++ [i] } }).retire)

/-- A vector instruction of the strand that had made its probe, when a copy was dropped, through that copy has accesses to make (R347). -/
def Strand.vectorPending (t : Strand) (f : Copy → Bool) (stamp : Nat) : Bool :=
  t.ctx.queue.any fun q => q.probed && decide (q.probedAt ≤ stamp) && q.desc.xlat.any f

/-- A request of the strand to the host or the twin window, made through such a copy, has not left the die, or with `done` has not completed. -/
def Strand.linkPending (t : Strand) (f : Copy → Bool) (stamp : Nat) (done : Bool) : Bool :=
  t.run.hostReq.any fun q => decide (q.made ≤ stamp) && f q.copy && (done || q.phase != .sent)

/-- A posted write through such a copy has not performed; an engine's counts by its owner. -/
def Posted.pending (p : Posted) (owner : Nat) (f : Copy → Bool) (stamp : Nat) : Bool :=
  (p.twin || p.held.isSome) && decide (p.made ≤ stamp) && (f p.copy || (decide (2048 ≤ p.source) && p.owner == owner))

/-- The agents of a scope other than the strand itself (Table 17.2): strands of its core, its cluster, or the die. -/
def inScope (scope me other : Nat) : Bool :=
  match scope with
  | 0 => false
  | 1 => me / 8 == other / 8
  | 2 => me / 32 == other / 32
  | _ => true

/-- Something that a TLBSYNC of a scope waits for is outstanding for an invalidation (R105, R347): a walk in flight at the drop, walkers lying at
die scope only (R345), or an access through a dropped copy. -/
def State.invPending (s : State) (scope : Nat) (i : Inval) : Bool :=
  (decide (3 ≤ scope) && s.die.walks.any fun e => e.2.any fun w => w.marks.contains i)
    || (s.others.any fun e => inScope scope s.meId e.1 &&
      (e.2.vectorPending i.hits i.stamp || (decide (3 ≤ scope) && e.2.linkPending i.hits i.stamp (decide (4 ≤ scope)))))
    || (s.die.posted.any fun p => (p.source == s.meId || inScope scope s.meId p.source) && p.pending i.owner i.hits i.stamp)

/-- What the clearing of an owner's `XDIR`.EN waits for (R337): what a TLBSYNC.d over all of the owner's ASIDs would. The walks ended with the
write. -/
def State.xdirPending (s : State) (p : Posted) : Bool :=
  let hits (c : Copy) : Bool := c.owner == p.owner
  (((s.meId, s.me) :: s.others).any fun e => e.2.vectorPending hits p.made || e.2.linkPending hits p.made false)
    || s.die.posted.any fun x => x.pending p.owner hits p.made

/-- A posted write performs now: the twin accepts one at a free time (R319), and the clearing of an EN completes when nothing is pending
(R337). One that waits for the host performs when it is sent. -/
def State.performs (s : State) (p : Posted) : Bool :=
  p.held.isNone && (if p.twin then Config.twinAccepts s.die.clock else !s.xdirPending p)

/-- TLBSYNC (R105, R347). Its own strand's accesses have performed when its step begins; an invalidation stays outstanding until nothing at
any scope is. -/
def State.tlbsync (s : State) (scope word : Nat) : State :=
  needs .supervisor word s fun s =>
    if s.me.run.invals.any (s.invPending scope) then s.waitIn .fence
    else (s.modMe fun t => { t with run := { t.run with invals := t.run.invals.filter (s.invPending 4) } }).retire
def execTlbsyncStrand (s : State) : Out := ok (s.tlbsync 0 (encode .tlbsyncStrand))
def execTlbsyncCore (s : State) : Out := ok (s.tlbsync 1 (encode .tlbsyncCore))
def execTlbsyncCluster (s : State) : Out := ok (s.tlbsync 2 (encode .tlbsyncCluster))
def execTlbsyncDie (s : State) : Out := ok (s.tlbsync 3 (encode .tlbsyncDie))
def execTlbsyncSystem (s : State) : Out := ok (s.tlbsync 4 (encode .tlbsyncSystem))

/-- An outstanding invalidation of a strand reaches the copies (R346). -/
def execTlbinvDrop (strand : Nat) (s : State) : Out :=
  ok ((s.strand strand).run.invals.foldl State.invalidate s)

/-- A strand that waits in a fence executes it again; nothing of the model keeps it from retiring but R347 (R103, R106, R345). -/
def State.fenceRetire (s : State) (strand : Nat) : State :=
  s.modStrand strand fun t => if t.run.wait = .fence then { t with run := { t.run with wait := .ready } } else t
def execFenceRetire (strand : Nat) (s : State) : Out := ok (s.fenceRetire strand)
def execXpfenceRetire (strand : Nat) (s : State) : Out := ok (s.fenceRetire strand)
def execPtfenceRetire (strand : Nat) (s : State) : Out := ok (s.fenceRetire strand)
/-- TLBSYNC retires once nothing it covers is outstanding: the strand executes it again (R347). -/
def execTlbsyncRetire (strand : Nat) (s : State) : Out := ok (s.fenceRetire strand)

def execBar0 (s : State) : Out := ok (s.bar 0 (encode .bar0))
def execBar1 (s : State) : Out := ok (s.bar 1 (encode .bar1))
def execBar2 (s : State) : Out := ok (s.bar 2 (encode .bar2))
def execBar3 (s : State) : Out := ok (s.bar 3 (encode .bar3))
def execBar4 (s : State) : Out := ok (s.bar 4 (encode .bar4))
def execBar5 (s : State) : Out := ok (s.bar 5 (encode .bar5))
def execBar6 (s : State) : Out := ok (s.bar 6 (encode .bar6))
def execBar7 (s : State) : Out := ok (s.bar 7 (encode .bar7))
def execBar8 (s : State) : Out := ok (s.bar 8 (encode .bar8))
def execBar9 (s : State) : Out := ok (s.bar 9 (encode .bar9))
def execBar10 (s : State) : Out := ok (s.bar 10 (encode .bar10))
def execBar11 (s : State) : Out := ok (s.bar 11 (encode .bar11))
def execBar12 (s : State) : Out := ok (s.bar 12 (encode .bar12))
def execBar13 (s : State) : Out := ok (s.bar 13 (encode .bar13))
def execBar14 (s : State) : Out := ok (s.bar 14 (encode .bar14))
def execBar15 (s : State) : Out := ok (s.bar 15 (encode .bar15))
/-- BARARV (R293). -/
def execBararv (t : Fin 32) (d : Fin 16) (s : State) : Out := ok (s.barArrive t d.val (encode (.bararv t d)))
/-- BARWT (R293). -/
def execBarwt (a : Fin 32) (d : Fin 16) (s : State) : Out := ok (s.barWait a d.val (encode (.barwt a d)))

end Sys2Proof.Machine
end

