-- ==== Sys2Proof/Machine/Place.lean ====
section
/-! DEFINITION. The Timetable's choice and placement of jobs (R365 to R375), pre-emption, saves and resumes (R256, R266 to R270). -/

namespace Sys2Proof.Machine

/-! ### Keys and tiers -/

/-- d_s of R365: the server deadline, or the job's own where its server is disabled. -/
def Die.serverKey (d : Die) (j : Job) : Nat := if d.srvEn j.vf then d.srvDl j.vf else j.deadline

/-- The key (d_s, DEADLINE, handle) compared from left to right (R365). -/
def Die.keyLess (d : Die) (a b : Nat × Job) : Bool :=
  let x := d.serverKey a.2
  let y := d.serverKey b.2
  decide (x < y) || (x == y && (decide (a.2.deadline < b.2.deadline) ||
    (a.2.deadline == b.2.deadline && decide (handleOf a < handleOf b))))

/-- (DEADLINE, handle) compared (R368). -/
def dueLess (a b : Nat × Job) : Bool :=
  decide (a.2.deadline < b.2.deadline) || (a.2.deadline == b.2.deadline && decide (handleOf a < handleOf b))

/-- The least of a list by an order. -/
def leastBy (less : Nat × Job → Nat × Job → Bool) (l : List (Nat × Job)) : Option (Nat × Job) :=
  l.foldl (fun best e => match best with
    | none => some e
    | some b => if less e b then some e else some b) none

/-- Strands that a placement needs on its core. -/
def Job.strandsNeeded (j : Job) : Nat := if j.bare ∨ j.slots = [] then 1 else j.slots.length

/-- A placement of the job would be of an early-started one (R373): one that starts early, or that did and resumes. -/
def Job.startsEarly (j : Job) : Bool := j.count != 0 && (j.early || (j.slots == [] && j.earlyOk))

/-- The strands of a partition that are early-started, on one core or on all (R373): those that run, and those that wait for a reservation or a
start. -/
def State.earlyStrands (s : State) (p : Nat) (core : Option Nat) : Nat :=
  let isEarly (h : Nat) : Bool := (s.die.job h).any fun j => j.early && j.count != 0
  let here (c : Nat) : Bool := match core with | some x => c == x | none => s.die.inPart p c
  (((s.meId, s.me) :: s.others).countP fun e => here (e.1 / 8) && e.2.id.kind != .free && e.2.id.kind != .column && isEarly e.2.id.job.toNat)
    + (s.die.jobs.foldl (fun n e =>
      if e.2.state == .dispatching && e.2.early && e.2.count != 0 && s.strandsOf (handleOf e) == [] && (e.2.placed.any fun x => here x.1)
      then n + e.2.strandsNeeded else n) 0)

/-- The cap of R373 lets `n` strands of an early-started job on a core. -/
def State.earlyFits (s : State) (p n core : Nat) : Bool :=
  decide (s.earlyStrands p (some core) + n ≤ 4 ∧ s.earlyStrands p none + n ≤ 4 * (s.die.coresOf p).length)

/-- The cores that a job may use (R372). -/
def Die.coresOfJob (d : Die) (p : Nat) (j : Job) : List Nat := if j.pin then [j.pcore] else d.coresOf p

/-- A job that a pop of partition `p` may take: bare restores whatever the server says; others while it is not
suspended and no export freezes its VF (R367, R370, R450). -/
def Die.placeable (d : Die) (p : Nat) (e : Nat × Job) : Bool :=
  e.2.waits && d.vfPart e.2.vf == p && (e.2.bare || (!d.suspended e.2.vf && !d.frozen e.2.vf 1))

/-- The candidates of a partition that the cap of R373 allows somewhere. -/
def State.candidates (s : State) (p : Nat) : List (Nat × Job) :=
  s.die.jobs.filter fun e => s.die.placeable p e &&
    (!e.2.startsEarly || (s.die.coresOfJob p e.2).any (s.earlyFits p e.2.strandsNeeded))

/-- One advance of the LFSR (R370). -/
def lfsrNext (l : BitVec 16) : BitVec 16 := l.ushiftRight 1 ^^^ (if l.getLsbD 0 then 0xB400 else 0)

/-- The head of a bank for a partition. -/
def Die.bankHead (d : Die) (l : List (Nat × Job)) (b : Nat) : Option (Nat × Job) :=
  leastBy d.keyLess (l.filter fun e => !e.2.urgent && e.2.bank == b)

/-- The pop of R370: the job taken and the LFSR after it. -/
def State.pop (s : State) (p : Nat) : Option (Nat × Job) × BitVec 16 :=
  let l := s.candidates p
  match leastBy dueLess (l.filter fun e => e.2.bare) with
  | some e => (some e, s.die.lfsr)
  | none =>
    match leastBy dueLess (l.filter fun e => e.2.urgent) with
    | some e => (some e, s.die.lfsr)
    | none =>
      let x := lfsrNext s.die.lfsr
      let b1 := bits x.toNat 3 0
      let b2 := bits x.toNat 7 4
      let b2 := if b1 = b2 then b1 ^^^ 1 else b2
      match s.die.bankHead l b1, s.die.bankHead l b2 with
      | some a, some b => (some (if s.die.keyLess b a then b else a), x)
      | some a, none => (some a, x)
      | none, some b => (some b, x)
      | none, none => (((List.range 16).map fun k => (b1 + k) % 16).findSome? (s.die.bankHead l), x)

/-! ### Saved contexts -/

/-- NSAVE. -/
def Die.nsave (d : Die) (p : Nat) : Nat := bits (d.reg (0x200004002000 + 16 * p)) 47 32

/-- The free slots of a partition, lowest first. -/
def Die.freeSlots (d : Die) (p : Nat) : List Nat :=
  (List.range (d.nsave p)).filter fun n => !(d.jobs.any fun e => d.vfPart e.2.vf == p && e.2.slots.any fun v => v.slot == n)

/-- k of a saved context, from its header. -/
def State.savedK (s : State) (j : Job) (v : Saved) : Nat :=
  s.die.areaGet j.owner (s.die.slotArea (s.die.vfPart j.vf) v.slot) 0x0D 1

/-- The family byte of a saved context. -/
def State.savedFork (s : State) (j : Job) (v : Saved) : Nat :=
  s.die.areaGet j.owner (s.die.slotArea (s.die.vfPart j.vf) v.slot) 0x11 1

/-- The blocks that a resume needs: each context's k, a family's children together in child 0's (R216, R266). -/
def State.resumeSizes (s : State) (j : Job) : List Nat :=
  if j.bare then []
  else j.slots.filterMap fun v =>
    let f := s.savedFork j v
    if f = 0 then some (s.savedK j v) else if f % 4 = 0 then some (s.savedK j v * 2 ^ (f / 4)) else none

/-- Take blocks of the given sizes on a core. -/
def CoreS.takeBlocks (c : CoreS) : List Nat → Option (List (BitVec 4))
  | [] => some []
  | k :: ks => match c.findGrant k k with
    | none => none
    | some g => ((c.give 2047 g).takeBlocks ks).map (g :: ·)

/-! ### Placing (R372) -/

/-- The size of the grant that a core can make at once: for a first start R210, for a resume its exact blocks. -/
def State.grantOn (s : State) (j : Job) (core : Nat) : Option Nat :=
  let c := s.coreS core
  if (s.freeStrands core).length < j.strandsNeeded ∨ (s.startStrand core).isNone then none
  else if j.slots = [] then
    ((c.findGrant (j.lmin + 1) (j.lpref + 1)).map fun g => (VCtx.fresh g).k)
  else (c.takeBlocks (s.resumeSizes j)).map fun _ => 1

/-- The cores on which a job may be placed now. -/
def State.coresFor (s : State) (p : Nat) (j : Job) : List Nat :=
  let cs := (s.die.coresOfJob p j).filter fun c => !s.die.closed c && (j.pin ||
    match j.avoid with
    | some (x, t) => !(x == c && decide (s.die.dtime < t))
    | none => true)
  if j.startsEarly then cs.filter (s.earlyFits p j.strandsNeeded) else cs

/-- The core of R372 step 2: the largest grant, then the most free strands, then the lowest number. -/
def State.bestCore (s : State) (p : Nat) (j : Job) : Option Nat :=
  ((s.coresFor p j).foldl (fun (best : Option (Nat × Nat × Nat)) c => match s.grantOn j c with
    | none => best
    | some g =>
      let f := (s.freeStrands c).length
      match best with
      | none => some (c, g, f)
      | some b => if b.2.1 < g ∨ (b.2.1 = g ∧ b.2.2 < f) then some (c, g, f) else best) none).map (·.1)

/-- The block that a job needs reserved: its minimum, or for a resume the least that holds the blocks of its contexts (R211, R216). -/
def State.reserveSize (s : State) (j : Job) : Nat :=
  if j.slots = [] then j.lmin + 1
  else match (s.resumeSizes j).foldl (· + ·) 0 with
    | 0 => 0 | 1 => 1 | 2 => 2 | 3 | 4 => 4 | _ => 0

/-- The core of R372 step 3: the fewest halvings, then the lowest number. -/
def State.reserveCore (s : State) (p : Nat) (j : Job) : Option Nat :=
  if s.reserveSize j = 0 then none
  else ((s.coresFor p j).foldl (fun (best : Option (Nat × Nat)) c =>
    let x := s.coreS c
    if x.rgwin = 0 ∨ (s.startStrand c).isNone ∨ (s.freeStrands c).length < j.strandsNeeded then best
    else match x.reserveBlock s.minOf (s.reserveSize j) with
      | none => best
      | some b => match x.halvings s.minOf b, best with
        | some n, none => some (c, n)
        | some n, some m => if n < m.2 then some (c, n) else best
        | none, _ => best) none).map (·.1)

/-- The dispatch message (R374). -/
def Job.dispatch (j : Job) (h : Nat) : Msg where
  owner := j.owner
  asid := j.asid
  score := 0
  sstr := 0
  twin := false
  lmin := j.lmin
  lpref := j.lpref
  orig := 2
  cont := false
  target := j.entry
  payload := (BitVec.ofNat 64 j.deadline) :: (List.range 5).map fun i => BitVec.ofNat 64 (j.desc / 2 ^ (192 + 64 * i))
  job := h
  noJob := false

/-! ### Pre-emption (R266, R372, R375) -/

/-- Slots of a partition set aside for the CHECKPOINT decisions whose saves have not ended (R413). -/
def State.setAside (s : State) (p : Nat) : Nat :=
  (s.die.jobs.filter fun e => e.2.state == .running && e.2.preempt == 2 && s.die.vfPart e.2.vf == p).foldl
    (fun n e => n + (s.strandsOf (handleOf e)).length) 0

/-- A RUNNING job whose contexts all find a save slot (R375). -/
def State.canSave (s : State) (h : Nat) (j : Job) : Bool :=
  let p := s.die.vfPart j.vf
  j.state == .running && j.pend == 0 && decide ((s.strandsOf h).length + s.setAside p ≤ (s.die.freeSlots p).length)

/-- Ask for a pre-emption: 1 by the Timetable, 2 by Clearance. With no free slot the job runs on (R375). -/
def State.askPreempt (s : State) (h why : Nat) : State :=
  match s.die.job h with
  | some j => if s.canSave h j ∧ j.preempt = 0 then s.modDie fun d => d.modJob h fun j => { j with preempt := why } else s
  | none => s

/-- Pre-empt the RUNNING preemptible jobs of a VF (R367). -/
def State.preemptVf (s : State) (v : Nat) : State :=
  (s.die.jobs.filter fun e => e.2.vf == v && e.2.state == .running && e.2.preemptible).foldl
    (fun s e => s.askPreempt (handleOf e) 1) s

/-- A job's groups and strands on the core that it runs on would let R210 grant `j` (R372). -/
def State.wouldFit (s : State) (j : Job) (victim : Nat × Job) : Bool :=
  match victim.2.root with
  | none => false
  | some root =>
    let core := root / 8
    let c := (s.strandsOf (handleOf victim)).foldl (fun c i => c.release i) (s.coreS core)
    if j.slots = [] then (c.findGrant (j.lmin + 1) (j.lpref + 1)).isSome
    else (c.takeBlocks (s.resumeSizes j)).isSome

/-- The victim of R372: the latest key among the RUNNING preemptible jobs with a later key on a core that the job may use. -/
def State.victim (s : State) (p : Nat) (e : Nat × Job) : Option (Nat × Job) :=
  let later (v : Nat × Job) : Bool := if e.2.urgent then dueLess e v else s.die.keyLess e v
  let l := s.die.jobs.filter fun v =>
    v.2.state == .running && v.2.preemptible && v.2.pend == 0 && s.die.vfPart v.2.vf == p && later v
      && (v.2.root.any fun r => if e.2.pin then r / 8 == e.2.pcore else s.die.inPart p (r / 8)) && s.wouldFit e.2 v
  leastBy (fun a b => s.die.keyLess b a) l

/-- Dispatch or place a job on a core (R372, R374). -/
def State.placeOn (s : State) (e : Nat × Job) (core : Nat) : State :=
  let h := handleOf e
  let s := s.modDie fun d => d.modJob h fun j => { j with
    state := .dispatching, urgent := false, placed := some (core, d.dtime), begun := true, early := j.startsEarly }
  if e.2.slots = [] then s.post core (e.2.dispatch h) else s

/-- One pop and placement for a partition (R370, R372). -/
def State.popFor (s : State) (p : Nat) : State :=
  let (e, x) := s.pop p
  let s := s.modDie fun d => { d with lfsr := x, popTurn := p }
  match e with
  | none => s
  | some e =>
    match s.bestCore p e.2 with
    | some c => s.placeOn e c
    | none => match s.reserveCore p e.2 with
      | some c => s.placeOn e c
      | none => match s.victim p e with
        | some v => s.askPreempt (handleOf v) 1
        | none => s

/-- The next partition with a job to place, from the one after that last served (R370). -/
def State.nextPart (s : State) : Option Nat :=
  ((List.range 12).map fun k => (s.die.popTurn + k) % 12 + 1).find? fun p => s.candidates p != []

/-- TIMETABLE_POP. -/
def State.timetablePop (s : State) : State :=
  match s.nextPart with
  | some p => s.popFor p
  | none => s
def execTimetablePop (s : State) : Out := ok s.timetablePop

/-- A pop for a partition would place its job or ask for a pre-emption. -/
def State.canPlace (s : State) (p : Nat) : Bool :=
  match (s.pop p).1 with
  | none => false
  | some e => (s.bestCore p e.2).isSome || (s.reserveCore p e.2).isSome ||
      (s.victim p e).any fun v => v.2.preempt == 0 && s.canSave (handleOf v) v.2

/-- The next partition, from the one after that last served, whose pop would come to something. -/
def State.nextPlace (s : State) : Option Nat :=
  if s.die.jobs = [] then none
  else ((List.range 12).map fun k => (s.die.popTurn + k) % 12 + 1).find? s.canPlace

/-- Insert by ascending (DEADLINE, handle). -/
def insertDue (e : Nat × Job) : List (Nat × Job) → List (Nat × Job)
  | [] => [e]
  | x :: t => if dueLess e x then e :: x :: t else x :: insertDue e t

/-- One list of a bank in the promotion sweep (R369): its heads with less slack than PROMO move to the urgent tier; the first that finds the tier
full stays and is counted. -/
def Die.sweepList (d : Die) : List (Nat × Job) → Die
  | [] => d
  | e :: t =>
    let p := d.vfPart e.2.vf
    if d.dtime + d.promo p ≤ e.2.deadline then d
    else if d.urgentRoom then (d.modJob (handleOf e) fun j => { j with urgent := true }).sweepList t
    else d.addReg (telemetry p 0x60) 1

/-- The main tier's lists: one a VF in each bank, ordered by DEADLINE (R368). -/
def Die.bankList (d : Die) (b v : Nat) : List (Nat × Job) :=
  (d.jobs.filter fun e => e.2.waits && !e.2.urgent && e.2.bank == b && e.2.vf == v).foldl (fun l e => insertDue e l) []

/-- The promotion sweep of every list of every bank (R369), at a DTIME. -/
def Die.sweep (d : Die) : Die :=
  let vs := (d.jobs.map fun e => e.2.vf).eraseDups
  (List.range 16).foldl (fun d b => vs.foldl (fun d v => d.sweepList (d.bankList b v)) d) d

/-- The sweeps at the `n` multiples of 500 ns of DTIME from the `k`th on. -/
def Die.sweeps (d : Die) : Nat → Nat → Die
  | 0, _ => d
  | n + 1, k => ({ { d with dtime := 500 * k }.sweep with dtime := d.dtime }).sweeps n (k + 1)

/-- A pop that comes to nothing: only the turn and the LFSR move on (R370). -/
def State.idlePop (s : State) : State :=
  match s.nextPart with
  | some p => if s.canPlace p then s else s.modDie fun d => { d with lfsr := (s.pop p).2, popTurn := p }
  | none => s

/-- PROMOTION_SWEEP. -/
def execPromotionSweep (s : State) : Out := ok (s.modDie Die.sweep)

/-- DISPATCH_WITHDRAW: a dispatch that the landing queue has not accepted is withdrawn (R372). -/
def State.withdrawDispatch (s : State) (h : Nat) : State :=
  match s.die.job h with
  | some j => match j.placed with
    | some (core, _) =>
      if j.state = .dispatching ∧ ((s.coreS core).offers.any fun m => !m.cont && m.orig == 2 && m.job == h) then
        (s.withdrawJob h).returnJob core h
      else s
    | none => s
  | none => s
def execDispatchWithdraw (handle : Nat) (s : State) : Out := ok (s.withdrawDispatch handle)

/-! ### Servers -/

/-- SERVER_BUDGET_EXHAUSTED (R367). -/
def State.serverExhausted (s : State) (v : Nat) : State :=
  if !s.die.exhausted v then s
  else if s.die.srvHard v ∧ s.die.dtime < s.die.srvDl v then s.preemptVf v
  else (s.modDie fun d => d.replenish v).preemptVf v
def execServerBudgetExhausted (vf : Nat) (s : State) : Out := ok (s.serverExhausted vf)

/-- SERVER_SUSPENSION_END: DTIME has reached DL (R367). -/
def State.suspensionEnd (s : State) (v : Nat) : State :=
  if s.die.exhausted v && s.die.srvHard v && decide (s.die.srvDl v ≤ s.die.dtime) then s.modDie fun d => d.replenish v else s
def execServerSuspensionEnd (vf : Nat) (s : State) : Out := ok (s.suspensionEnd vf)

/-- A write of `JSRV` (R367): EN with Q = 0 is ignored, T = 0 is stored as 1, EN from 0 to 1 refreshes. -/
def Die.jsrvWrite (d : Die) (v x : Nat) : Die :=
  let x := putBits (x % 2 ^ 52) 15 2 0
  let x := if bits x 51 32 = 0 then putBits x 51 32 1 else x
  if x % 2 = 1 ∧ bits x 31 16 = 0 then d
  else
    let d' := d.setReg (jsrvAddr v) x
    if !d.srvEn v && x % 2 == 1 then d'.refresh v else d'
def execJsrvWrite (vf value : Nat) (s : State) : Out := ok (s.modDie fun d => d.jsrvWrite vf value)

/-! ### Saves (R256, R266) -/

/-- A strand stops for its save: a request on a link is waited for first (R108), and requests of the SFU are cancelled (R266, R278). -/
def State.stopForSave (s : State) (i : Nat) : State :=
  let t := s.strand i
  if t.run.wait = .host ∨ t.run.wait = .saving ∨ t.run.wait = .restoring ∨ t.run.wait = .exit then s
  else (s.modDie fun d => d.sfuCancel i).modStrand i fun t => { t with run := { t.run with wait := .saving } }

/-- PREEMPT_REQUEST (R266): the request of the Timetable or of Clearance reaches the strand's core. -/
def State.preemptRequest (s : State) (i : Nat) : State :=
  let t := s.strand i
  match s.die.job t.id.job.toNat with
  | some j =>
    if t.id.kind = .free ∨ t.id.kind = .column then s
    else if j.preempt ≠ 0 then s.stopForSave i
    else if j.preemptible ∧ s.canSave t.id.job.toNat j then
      (s.modDie fun d => d.modJob t.id.job.toNat fun j => { j with preempt := 1 }).stopForSave i
    else s
  | none => s
def execPreemptRequest (strand : Nat) (s : State) : Out := ok (s.preemptRequest strand)

/-- YIELD (R256): with a pre-emption pending the context is saved here with PC + 4, else it retires. -/
def execYield (s : State) : Out :=
  let p := (s.die.job s.me.id.job.toNat).any fun j => j.preempt != 0
  ok (if p && s.me.id.kind != .column then s.retire.modMe fun t => { t with run := { t.run with wait := .saving } } else s.retire)

/-- The invalidations of a strand for which something is outstanding at some scope: an area holds 20 (Table 12.12). -/
def State.openInvals (s : State) (i : Nat) : List Inval := (s.strand i).run.invals.filter ((s.focus i).invPending 4)

/-- The write-out may begin (R266, R270, R333): the job's deadline has not come, the strand's writes have performed, no more TLBINVs are outstanding
than an area holds, and a slot is free. -/
def State.saveReady (s : State) (i : Nat) : Bool :=
  (s.strand i).run.wait == .saving && (s.focus i).drained && decide ((s.openInvals i).length ≤ 20) &&
    (s.die.job (s.strand i).id.job.toNat).any fun j => j.pend == 0 && decide (s.die.dtime < j.deadline) && s.die.freeSlots (s.die.vfPart j.vf) != []

/-- What a strand leaves with before its save: the elements below each IDX are counted (R355), and TLBINVs with nothing outstanding are done. -/
def State.settleSave (s : State) (i : Nat) : State :=
  let is := if (s.strand i).run.invals.length ≤ 20 then (s.strand i).run.invals else s.openInvals i
  let s := s.modStrand i fun t => { t with run := { t.run with invals := is } }
  let x := s.focus i
  (x.me.ctx.queue.foldl State.slotCount x).focus s.meId

/-- The write-out of a save ends (R266 step 5, R268): the area is written, continuations are in its ring, what the ring has no room for is offered
again (R264), the entry shows SAVED, the lanes and
the strand are free. The job is SAVED, or CHECKPOINTED, once every context of it is. -/
def State.saveComplete (s : State) (i : Nat) : State :=
  let h := (s.strand i).id.job.toNat
  match s.die.job h with
  | none => s
  | some j =>
    if !s.saveReady i then s
    else match (s.die.freeSlots (s.die.vfPart j.vf)).head? with
    | none => s
    | some slot =>
      let area := s.die.slotArea (s.die.vfPart j.vf) slot
      let s := s.settleSave i
      let t := s.strand i
      let late := (s.areaMsgs i).drop 64
      let own := s.barrier (barrierKey i 0 0)
      let s := s.writeArea i area (j.clm && !j.pin)
      let s := s.absentSaved t.id area
      let s := s.releaseLatch i
      let s := s.modCoreS (i / 8) fun c => { c.release i with conts := c.conts.filter fun e => e.1 != i }
      let s := s.modCoreS (t.id.home / 8) fun c => { c with offers := late ++ c.offers }
      let s := (s.setStrand i Strand.empty).setBarrier (barrierKey i 0 0) Barrier.free
      let v : Saved := {
        slot := slot, home := t.id.home, gen := t.id.gen, kind := t.id.kind, minG := t.id.minG, prefG := t.id.prefG
        loopT := t.ctx.loopT, last := i, dom := t.dom, own := own, barPhase := t.run.barPhase, queue := t.ctx.queue, rep := t.ctx.rep
        vl := t.ctx.vl, priv := t.priv, xasid := t.xasid, entering := t.run.entering, causes := t.run.causes, watchdog := t.run.watchdog
        linkData := t.run.linkData, stamps := t.run.invals.map (·.stamp), hostLog := t.run.hostLog, joined := t.joined }
      let s := s.modDie fun d => d.modJob h fun j => { j with
        slots := j.slots ++ [v]
        root := if v.kind = .root then none else j.root }
      if s.strandsOf h = [] then
        let ck := j.preempt == 2
        let s := s.modDie fun d => (d.modJob h fun j => { j with
          root := none, preempt := 0, run := j.run + (d.dtime - j.runSince) }).addReg (telemetry j.owner (if ck then 0x40 else 0x48)) 1
        let s := s.modDie fun d => d.outcome h (if ck then 2 else 6)
        s.modDie fun d => d.intoTier h (if ck then .checkpointed else .saved)
      else s
def execSaveComplete (strand : Nat) (s : State) : Out := ok (s.saveComplete strand)

/-! ### Resumes (R269, R380) -/

/-- Read the contexts of a job back, one strand each; `blocks` are those of the contexts that need one, in order, and `fam` the block of the
family whose child 0 came before. -/
def State.readAll (s : State) (h core : Nat) (j : Job) : List Saved → List (BitVec 4) → Nat × BitVec 4 → State
  | [], _, _ => s
  | v :: t, blocks, fam =>
    match (s.freeStrands core).head? with
    | none => s
    | some i =>
      let area := s.die.slotArea (s.die.vfPart j.vf) v.slot
      let f := s.savedFork j v
      let (gm, blocks, fam, fork) :=
        if f = 0 then (blocks.head?.getD 1, blocks.drop 1, fam, Fork.none)
        else
          let n := 2 ^ (f / 4)
          let (root, block, rest) := if f % 4 = 0 then (i, blocks.head?.getD 1, blocks.drop 1) else (fam.1, fam.2, blocks)
          (groupSlice block (s.savedK j v) (f % 4), rest, (root, block), ⟨n, f % 4, root, block⟩)
      let s := s.modCoreS core fun c => v.joined.foldl (fun c x => c.give i (groupSlice fam.2 (s.savedK j v) x.index)) (c.give i gm)
      let s := (s.readArea i area v j.owner h gm fork).resumeDomains i v
      let s := s.absentResumed (v.ident j.owner h v.kind) i
      let s := if v.kind = .root then s.modDie fun d => d.modJob h fun j => { j with root := some i } else s
      s.readAll h core j t blocks fam

/-- The bare restore of R380 takes the root's scalar part alone. -/
def State.resumeBare (s : State) (h core : Nat) (j : Job) : State :=
  match j.slots.find? (fun v => v.kind == .root), (s.freeStrands core).head? with
  | some v, some i =>
    let s := (s.readArea i (s.die.slotArea (s.die.vfPart j.vf) v.slot) v j.owner h 0 Fork.none).modStrand i fun t => { t with dom := [] }
    let s := (s.dropSaved { j with slots := j.slots.filter (· ≠ v) }).absentResumed (v.ident j.owner h v.kind) i
    s.modDie fun d => d.modJob h fun j => { j with root := some i }
  | _, _ => s.returnJob core h

/-- The contexts of a job are read back into blocks of a core, child 0 of a family before its other children; where no blocks are free a
reservation is made, and where none can be the job returns (R211, R372). -/
def State.resumeOn (s : State) (h core : Nat) (j : Job) : State :=
  match (s.coreS core).takeBlocks (s.resumeSizes j), (s.freeStrands core).head? with
  | some blocks, some _ =>
    let order := j.slots.filter (fun v => s.savedFork j v % 4 == 0) ++ j.slots.filter (fun v => s.savedFork j v % 4 != 0)
    s.readAll h core j order blocks (0, 0)
  | none, some i => (if s.reserveSize j = 0 then none else s.reserve i h (s.reserveSize j) none).getD (s.returnJob core h)
  | _, none => s.returnJob core h

/-- RESUME (R269): a placed job's contexts are read back, at once or when the reservation that it waits for is complete. -/
def State.resume (s : State) (h core : Nat) : State :=
  match s.die.job h with
  | none => s
  | some j =>
    let c := s.coreS core
    if j.state ≠ .dispatching ∨ j.slots = [] ∨ !(j.placed.any fun x => x.1 == core) ∨ s.strandsOf h ≠ [] then s
    else if j.bare then s.resumeBare h core j
    else match c.reservations.find? fun r => r.job == h with
      | some r => if c.ready r then (s.setCoreS core (c.dropReservation r)).resumeOn h core j else s
      | none => s.resumeOn h core j
def execResume (handle core : Nat) (s : State) : Out := ok (s.resume handle core)

/-- RESUME_COMPLETE: the read-back ends (R269); once every context is back the slots are free and the job is RUNNING, or its exit routine may
start (R380). -/
def State.resumeComplete (s : State) (i : Nat) : State :=
  let t := s.strand i
  let h := t.id.job.toNat
  match s.die.job h with
  | none => s
  | some j =>
    if t.run.wait ≠ .restoring then s
    else
      let s := s.modStrand i fun t => { t with run := { t.run with wait := if j.bare then .exit else .ready } }
      if (s.strandsOf h).any fun k => (s.strand k).run.wait == .restoring then s
      else s.modDie fun d => d.modJob h fun j => { j with
        slots := [], state := .running, placed := none, runSince := d.dtime, bare := false }
def execResumeComplete (strand : Nat) (s : State) : Out := ok (s.resumeComplete strand)

end Sys2Proof.Machine
end

