-- ==== Sys2Proof/Machine/Berth.lean ====
section
/-! DEFINITION. The berth rings (R282 to R289): records placed by the ports, and the cursor instructions. -/

namespace Sys2Proof.Machine

/-- The registers of a ring (Table 14.5). -/
def brctlAddr (c r : Nat) : Nat := 0x200001000000 + 0x10000 * c + 0x100 * r
def brcposAddr (c r j : Nat) : Nat := brctlAddr c r + 0x40 + 8 * j

namespace Die

def brOwner (d : Die) (c r : Nat) : Nat := bits (d.reg (brctlAddr c r)) 25 17
/-- S, the ring's size. -/
def brSize (d : Die) (c r : Nat) : Nat := 2 ^ bits (d.reg (brctlAddr c r)) 16 12
def brEn (d : Die) (c r : Nat) : Bool := bits (d.reg (brctlAddr c r)) 8 8 == 1
def brCen (d : Die) (c r j : Nat) : Bool := (d.reg (brctlAddr c r)).testBit j
def brWpos (d : Die) (c r : Nat) : Nat := d.reg (brctlAddr c r + 0x10)
def brCpos (d : Die) (c r j : Nat) : Nat := d.reg (brcposAddr c r j)
/-- The CSP offset of a ring position. -/
def brOff (d : Die) (c r pos : Nat) : Nat := d.reg (brctlAddr c r + 8) + pos % d.brSize c r
/-- The CSP physical address of a ring position. -/
def brPa (d : Die) (c r pos : Nat) : Nat := 0x110000000000 + 0x200000 * c + d.brOff c r pos

/-- The free space (R284). -/
def brFree (d : Die) (c r : Nat) : Nat :=
  let w := d.brWpos c r
  let least := ((List.range 8).filter (d.brCen c r)).foldl (fun m j => Nat.min m (d.brCpos c r j)) w
  d.brSize c r - (w - least)

/-- NSEQ + 1, and DROPS + 1 where a record is dropped. -/
def brCount (d : Die) (c r : Nat) (drop : Bool) : Die :=
  let a := brctlAddr c r + 0x18
  let x := d.reg a
  d.setReg a ((bits x 63 32 + (if drop then 1 else 0)) % 2 ^ 32 * 2 ^ 32 + (bits x 31 0 + 1) % 2 ^ 32)

end Die

/-- A record's header (Table 14.6). -/
def recordHeader (flags dropn prb sym eaxc len seq : Nat) : Nat :=
  flags % 2 ^ 16 * 2 ^ 112 + dropn * 2 ^ 96 + prb % 2 ^ 10 * 2 ^ 84 + sym % 2 ^ 4 * 2 ^ 80 + eaxc % 2 ^ 16 * 2 ^ 64 + len * 2 ^ 32 + seq

/-- The footprint of a record (R283). -/
def footprint (len : Nat) : Nat := 64 + 64 * ((len + 63) / 64)

/-- A port writes a payload from a 64-byte boundary on: whole words, and at its end a part of one, which is not performed at a word in error
(R228, R281). -/
def Die.portWrite (d : Die) (own pa : Nat) (bs : List Byte) : Die :=
  let n := bs.length / 8 * 8
  let d := (d.writeLong own pa (bs.take n) (n + 1)).1
  if n = bs.length then d
  else match d.physWrite own (pa + n) (bs.drop n) with
    | .ok d => d
    | .error e => d.errorRecord e 2048 (pa + n)

/-- A port places a record (R284); a ring whose cluster scratchpad refuses its owner drops it (R406). -/
def Die.berthPlace (d : Die) (c r flags eaxc sym prb : Nat) (payload : List Byte) : Die :=
  let S := d.brSize c r
  let w := d.brWpos c r
  let f := footprint payload.length
  let o := w % S
  let pad := if S < o + f then S - o else 0
  let seq := bits (d.reg (brctlAddr c r + 0x18)) 31 0
  let k := 16 * c + r
  let missed := sget 0 d.missed k
  let own := d.brOwner c r
  if !d.brEn c r || bits (d.reg (brctlAddr c r)) 7 0 == 0 || decide (d.brFree c r < pad + f) || decide (2 ^ 20 ≤ payload.length)
      || !d.admits (0x100 + c) own true then
    { d.brCount c r true with missed := sset 0 d.missed k (missed + 1) }
  else
    let d := if pad = 0 then d else (d.writeLong own (d.brPa c r w) (leBytes 64 (recordHeader 1 0 0 0 0 (pad - 64) seq)) 2).1
    let start := d.brPa c r (w + pad)
    let d := d.portWrite own (start + 64) payload
    let flags := putBits (putBits (flags % 16) 0 0 0) 1 1 (if missed = 0 then 0 else 1)
    let d := (d.writeLong own start (leBytes 64 (recordHeader flags (Nat.min missed 65535) prb sym eaxc payload.length seq)) 2).1
    ({ d.brCount c r false with missed := sset 0 d.missed k 0 }).setReg (brctlAddr c r + 0x10) ((w + pad + f) % 2 ^ 48)

/-- A write of `BRCTL` (R282): OWNER by firmware alone, LOG2S while EN is 0; one that sets EN takes effect only with a legal size and base. -/
def Die.brctlWrite (d : Die) (c r v : Nat) (firmware : Bool) : Die :=
  let a := brctlAddr c r
  let old := d.reg a
  let en := bits old 8 8
  let log := if en = 1 then bits old 16 12 else bits v 16 12
  let legal := decide (16 ≤ log ∧ log ≤ 20) && d.reg (a + 8) % 2 ^ log == 0
  let en' := bits v 8 8
  let own := if firmware then bits v 25 17 else bits old 25 17
  let d' := d.setReg a (own * 2 ^ 17 + log * 2 ^ 12 + en' * 256 + v % 256)
  if en = 0 ∧ en' = 1 ∧ !legal then d
  else if en = 0 ∧ en' = 1 then
    let d' := { (d'.setReg (a + 0x10) 0).setReg (a + 0x18) 0 with missed := sset 0 d'.missed (16 * c + r) 0 }
    (List.range 8).foldl (fun x j => x.setReg (brcposAddr c r j) 0) d'
  else if en = 1 then
    (List.range 8).foldl (fun x j => if v.testBit j && !old.testBit j then x.setReg (brcposAddr c r j) (d.brWpos c r) else x) d'
  else d'

/-- A write of `BRBASE` (R282). -/
def Die.brbaseWrite (d : Die) (c r v : Nat) : Die := if d.brEn c r then d else d.setReg (brctlAddr c r + 8) (v % 2 ^ 21)

/-! ### The cursor instructions -/

/-- The checks of R285: a fault code, or none. -/
def State.cursorFault (s : State) (a : Nat) : Option Nat :=
  let r := bits a 7 4
  if a / 256 ≠ 0 ∨ bits a 3 3 ≠ 0 then some 0x10
  else if s.die.brOwner s.cluster r ≠ s.me.id.owner then some 0x12
  else if !s.die.brEn s.cluster r || !s.die.brCen s.cluster r (bits a 2 0) then some 0x10
  else none

/-- The answer of the search for a record. -/
inductive CursorRes where
  /-- The header of the record at the cursor, with the cursor moved past every PAD before it. -/
  | found (pos header : Nat) (d : Die)
  | empty (d : Die)
  | fault (code va : Nat) (d : Die)
  deriving DecidableEq, Repr

/-- The VA of a ring position in the local window. -/
def Die.brVa (d : Die) (c r pos : Nat) : Nat := 0x003FFF0010000000 + d.brOff c r pos

/-- The header at a position, read under the strand's owner (R296). -/
def Die.brHeader (d : Die) (c r pos : Nat) : CursorRes :=
  match d.physRead (d.brOwner c r) (d.brPa c r pos) 16 with
  | .error e => .fault e (d.brVa c r pos) d
  | .ok (bs, d) => .found pos (leVal bs) d

/-- The search of BRNEXT from a position (R286); a PAD has at least 64 bytes, so a ring holds at most 2^14 of them. -/
def Die.brSearch (d : Die) (c r j : Nat) (skip : Bool) : Nat → Nat → CursorRes
  | 0, _ => .empty d
  | fuel + 1, pos =>
    if pos = d.brWpos c r then .empty (d.setReg (brcposAddr c r j) pos)
    else match d.brHeader c r pos with
      | .found pos h d =>
        if skip && bits h 112 112 == 1 then d.brSearch c r j skip fuel ((pos + 64 + bits h 51 32) % 2 ^ 48)
        else .found pos h (d.setReg (brcposAddr c r j) pos)
      | x => x

/-- BRNEXT (R286). -/
def execBrnext (d a : Fin 32) (s : State) : Out :=
  let x := (s.reg a).toNat
  match s.cursorFault x with
  | some e => ok (s.trap e (s.reg a))
  | none =>
    let r := bits x 7 4
    let j := bits x 2 0
    match s.die.brSearch s.cluster r j true 16384 (s.die.brCpos s.cluster r j) with
    | .empty die => ok ((s.withDie die).waitIn .brnext)
    | .fault e va die => ok ((s.withDie die).trap e (BitVec.ofNat 64 va))
    | .found pos _ die => ok ((s.withDie die).writeRetire d (BitVec.ofNat 64 (die.brVa s.cluster r pos)))

/-- BRDONE (R287): every earlier load of the strand has performed. -/
def execBrdone (a : Fin 32) (s : State) : Out :=
  let x := (s.reg a).toNat
  match s.cursorFault x with
  | some e => ok (s.trap e (s.reg a))
  | none =>
    let r := bits x 7 4
    let j := bits x 2 0
    match s.die.brSearch s.cluster r j false 2 (s.die.brCpos s.cluster r j) with
    | .empty _ => ok s.retire
    | .fault e va die => ok ((s.withDie die).trap e (BitVec.ofNat 64 va))
    | .found pos h die =>
      ok ((s.withDie (die.setReg (brcposAddr s.cluster r j) ((pos + footprint (bits h 51 32)) % 2 ^ 48))).retire)

/-! ### Events -/

/-- BERTH_RECORD_PLACE (R284). -/
def execBerthRecordPlace (cluster ring flags eaxc sym prb : Nat) (payload : List Nat) (s : State) : Out :=
  ok (s.modDie fun d => d.berthPlace (cluster % 64) (ring % 16) flags eaxc sym prb (payload.map (BitVec.ofNat 8)))

/-- BRCTL_ENABLE: firmware writes `BRCTL` (R282). -/
def execBrctlEnable (cluster ring value : Nat) (s : State) : Out :=
  ok (s.modDie fun d => d.brctlWrite (cluster % 64) (ring % 16) value true)

/-- BRCTL_CURSOR_ENABLE: a CEN bit is set (R282). -/
def execBrctlCursorEnable (cluster ring cursor : Nat) (s : State) : Out :=
  ok (s.modDie fun d =>
    let v := d.reg (brctlAddr (cluster % 64) (ring % 16))
    d.brctlWrite (cluster % 64) (ring % 16) (putBits v (cursor % 8) (cursor % 8) 1) true)

end Sys2Proof.Machine
end

