-- ==== Sys2Proof/Machine/Branch.lean ====
section
/-! DEFINITION. Branches and jumps (R98, R99, R83). -/

namespace Sys2Proof.Machine

/-- The target of a word offset of `n` bits (R54). -/
def State.target (s : State) (n off : Nat) : Word := s.me.pc + BitVec.ofInt 64 (4 * toSigned n off)

/-- Go to a target: bits [63:54] that are not all zero fault with code 0x10 (R83). `f` is what else the instruction writes. -/
def State.goTo (s : State) (t : Word) (f : State → State) : State :=
  if t.toNat / 2 ^ 54 ≠ 0 then s.trap 0x10 t else (f s).retireAt t

/-- A conditional branch (R98). -/
def State.branch (s : State) (c : Bool) (n off : Nat) : Out := ok (if c then s.goTo (s.target n off) id else s.retire)

def execBeqz (a : Fin 32) (o : Fin 262144) (s : State) : Out := s.branch (s.reg a == 0) 18 o.val
def execBnez (a : Fin 32) (o : Fin 262144) (s : State) : Out := s.branch (s.reg a != 0) 18 o.val
def execBltz (a : Fin 32) (o : Fin 262144) (s : State) : Out := s.branch ((s.reg a).slt 0) 18 o.val
def execBgez (a : Fin 32) (o : Fin 262144) (s : State) : Out := s.branch (!(s.reg a).slt 0) 18 o.val
def execBgtz (a : Fin 32) (o : Fin 262144) (s : State) : Out := s.branch ((0 : Word).slt (s.reg a)) 18 o.val
def execBlez (a : Fin 32) (o : Fin 262144) (s : State) : Out := s.branch (!(0 : Word).slt (s.reg a)) 18 o.val
def execBeq (a b : Fin 32) (o : Fin 8192) (s : State) : Out := s.branch (s.reg a == s.reg b) 13 o.val
def execBne (a b : Fin 32) (o : Fin 8192) (s : State) : Out := s.branch (s.reg a != s.reg b) 13 o.val
def execBlt (a b : Fin 32) (o : Fin 8192) (s : State) : Out := s.branch ((s.reg a).slt (s.reg b)) 13 o.val
def execBge (a b : Fin 32) (o : Fin 8192) (s : State) : Out := s.branch (!(s.reg a).slt (s.reg b)) 13 o.val
def execBltu (a b : Fin 32) (o : Fin 8192) (s : State) : Out := s.branch ((s.reg a).ult (s.reg b)) 13 o.val
def execBgeu (a b : Fin 32) (o : Fin 8192) (s : State) : Out := s.branch (!(s.reg a).ult (s.reg b)) 13 o.val
def execJ (o : Fin 67108864) (s : State) : Out := ok (s.goTo (s.target 26 o.val) id)
/-- JAL links in `s1` (R65, R98). -/
def execJal (o : Fin 67108864) (s : State) : Out := ok (s.goTo (s.target 26 o.val) fun s => s.setReg 1 (s.me.pc + 4))
/-- JALR: the range check of R83, then alignment with code 0x03 (R99). -/
def execJalr (d a : Fin 32) (i : Fin 65536) (s : State) : Out :=
  let t := s.reg a + sext16 i
  ok (if t.toNat / 2 ^ 54 ≠ 0 then s.trap 0x10 t
      else if t.toNat % 4 ≠ 0 then s.trap 0x03 t
      else (s.setReg d (s.me.pc + 4)).retireAt t)

end Sys2Proof.Machine
end

