-- ==== Sys2Proof/Machine/Clearance.lean ====
section
/-! DEFINITION. Partitions, Clearance orders and retirement (R403 to R419). -/

namespace Sys2Proof.Machine

/-! ### Partitions (R404) -/

/-- The five engine classes: the low bit of their count in `PRES` (Table 21.2), instances, the first access-table target (Table 21.3) and
the low bit of their instances in `CLRRES` (Table 21.4). The instances of the transmit class are the ports of the mode (R384). -/
structure EngineClass where
  pres : Nat
  count : Nat
  target : Nat
  res : Nat
  deriving DecidableEq, Repr

/-- The transmit ports of the fronthaul mode (R384). -/
def Die.txPorts (d : Die) : Nat :=
  match bits (d.reg 0x200005010000) 5 4 with
  | 0 => 8
  | 1 => 16
  | _ => 4

/-- The classes in order: ferry, LDPC decode, LDPC encode, polar, transmit (R384). -/
def Die.engineClasses (d : Die) : List EngineClass :=
  [⟨24, 16, 0x410, 0⟩, ⟨30, 16, 0x420, 16⟩, ⟨36, 8, 0x430, 32⟩, ⟨42, 4, 0x438, 40⟩, ⟨48, d.txPorts, 0x440, 44⟩]

/-- The slots of a partition on each engine of a class. -/
def Die.slotsOf (d : Die) (p : Nat) (e : EngineClass) : Nat := bits (d.reg (presAddr p)) (e.pres + 5) e.pres

/-- The partitions. -/
def partitions : List Nat := (List.range 12).map (· + 1)

/-- A partition is the source or the receiver of an active order. -/
def Die.inOrder (d : Die) (p : Nat) : Bool :=
  partitions.any fun q => d.clrActive q && (q == p || bits (d.reg (clrAddr q + 0x18)) 27 24 == p)

/-- The partitions' registers are legal: no shared cluster or colour, no class above 32 slots. -/
def Die.partitionsLegal (d : Die) : Bool :=
  (partitions.all fun p => partitions.all fun q => p == q ||
    (d.reg (pcluAddr p) &&& d.reg (pcluAddr q) == 0 && bits (d.reg (presAddr p)) 15 0 &&& bits (d.reg (presAddr q)) 15 0 == 0)) &&
  d.engineClasses.all fun e => decide (partitions.foldl (fun n p => n + d.slotsOf p e) 0 ≤ 32)

/-- A write of `PCLU`, `PRES` or `VFP`, applied or ignored as a whole (R404). -/
def Die.partitionWrite (d : Die) (pa v : Nat) : Die :=
  let a := pa / 8 * 8
  if 0x200006110000 ≤ a ∧ a < 0x200006110800 then
    let part := bits v 3 0
    d.setReg a (bits v 6 5 * 32 + (if 13 ≤ part then 0 else part))
  else
    let p := (a - 0x200006100000) / 64
    if 0x200006100000 ≤ a ∧ 1 ≤ p ∧ p ≤ 12 ∧ a % 64 ≤ 8 then
      let d' := d.setReg a (if a % 64 = 0 then v % 2 ^ 64 else v % 2 ^ 54)
      if d.inOrder p || !d'.partitionsLegal then d else d'
    else d

/-- PARTITION_REGISTER_WRITE (R404). -/
def execPartitionRegisterWrite (addr value : Nat) (s : State) : Out := ok (s.modDie fun d => d.partitionWrite addr value)

/-- A firmware write of an access table (R405): the bits of the IDs that are never held stay zero (R403). -/
def Die.accessWrite (d : Die) (pa v : Nat) : Die :=
  let a := pa / 8 * 8
  let t := (a - 0x200006000000) / 128
  let w := a / 8 % 16
  let v := if w = 0 then v % 2 ^ 26 else if w < 8 then 0 else v % 2 ^ 64
  if 0x200006000000 ≤ a ∧ t ≤ 0x4C7 then d.setReg a v else d

/-- ACCESS_TABLE_WRITE (R405). -/
def execAccessTableWrite (addr value : Nat) (s : State) : Out := ok (s.modDie fun d => d.accessWrite addr value)

/-- A write of a ring control register as `XHLOG` is laid out (Table 18.10): LOG2N is ignored while EN is 1; EN from 0 to 1 zeroes the write
pointer. -/
def Die.ringControlWrite (d : Die) (a wp v : Nat) : Die :=
  let old := d.reg a
  let log := if old % 2 = 1 then bits old 11 8 else bits v 11 8
  let d' := d.setReg a (bits v 47 12 * 2 ^ 12 + log * 256 + v % 2)
  if old % 2 = 0 ∧ v % 2 = 1 then d'.setReg wp 0 else d'

/-- CLRLOG_WRITE (R418). -/
def execClrlogWrite (value : Nat) (s : State) : Out :=
  ok (s.modDie fun d => d.ringControlWrite 0x200007001000 0x200007001008 value)

/-! ### Posting an order (R408 to R410) -/

namespace Die

/-- Fields of a slot. -/
def clrClusters (d : Die) (p : Nat) : Nat := d.reg (clrAddr p)
def clrDeadline (d : Die) (p : Nat) : Nat := d.reg (clrAddr p + 0x10)
def clrCtl (d : Die) (p : Nat) : Nat := d.reg (clrAddr p + 0x18)
def clrColours (d : Die) (p : Nat) : Nat := bits (d.clrCtl p) 63 48
def clrDst (d : Die) (p : Nat) : Nat := bits (d.clrCtl p) 27 24
/-- MARGIN, in ns. -/
def clrMargin (d : Die) (p : Nat) : Nat := let m := bits (d.clrCtl p) 39 34; 1000 * (if m = 0 then 2 else m)
/-- S, in bytes per ns. -/
def clrSaveBw (d : Die) (p : Nat) : Nat := let b := bits (d.clrCtl p) 47 40; if b = 0 then 32 else b
/-- The instances of a class that the order names, a bit each. -/
def clrInstances (d : Die) (p : Nat) (e : EngineClass) : Nat :=
  let r := d.reg (clrAddr p + 8)
  match e.res with
  | 0 => bits r 15 0
  | 16 => bits r 31 16
  | 32 => bits r 39 32
  | 40 => bits r 43 40
  | _ => bits r 59 44

/-- W (R409). -/
def clrW (d : Die) (p : Nat) : Nat :=
  let l := (List.range 16).countP (d.clrColours p).testBit
  2000 + (l * (12 - d.csmWays) * 2 ^ 20 + 689) / 690

/-- B (R409). -/
def clrB (d : Die) (p : Nat) : Nat := 1500 + d.exitCap p

/-- The horizon H. -/
def clrH (d : Die) (p : Nat) : Nat := d.clrDeadline p - d.clrW p

/-- The order names some but not all instances of a class on which the source has slots. -/
def clrPartial (d : Die) (p : Nat) : Bool :=
  d.engineClasses.any fun e =>
    d.slotsOf p e != 0 && d.clrInstances p e != 0 && !(List.range e.count).all (d.clrInstances p e).testBit

/-- A named resource is not held by the source. -/
def clrNotHeld (d : Die) (p : Nat) : Bool :=
  d.clrClusters p &&& d.reg (pcluAddr p) != d.clrClusters p ||
  d.clrColours p &&& bits (d.reg (presAddr p)) 15 0 != d.clrColours p ||
  d.engineClasses.any fun e => d.clrInstances p e != 0 && (d.slotsOf p e == 0 || 2 ^ e.count ≤ d.clrInstances p e)

/-- Another active order names a resource of this one: a cluster, a colour, an engine instance or a port. -/
def clrClash (d : Die) (p : Nat) : Bool :=
  partitions.any fun q => q != p && d.clrActive q &&
    (d.clrClusters p &&& d.clrClusters q != 0 || d.clrColours p &&& d.clrColours q != 0
      || bits (d.reg (clrAddr p + 8)) 59 0 &&& bits (d.reg (clrAddr q + 8)) 59 0 != 0)

/-- WHY an order is rejected (R409), or none. -/
def clrReject (d : Die) (p : Nat) : Option Nat :=
  let dst := d.clrDst p
  if 50 < bits (d.clrCtl p) 33 28 ∨ dst = 0 ∨ 12 < dst ∨ dst = p ∨ d.clrPartial p then some 1
  else if d.clrNotHeld p then some 2
  else if d.clrClash p then some 3
  else if d.clrDeadline p < d.dtime + d.clrW p + d.clrB p + 1000 then some 4
  else none

/-- Set STATE, WHY and SEQ of a slot. -/
def setClr (d : Die) (p state why seq : Nat) : Die :=
  d.setReg (clrAddr p + 0x18) (putBits (putBits (putBits (d.clrCtl p) 23 16 seq) 11 8 state) 7 4 why)

/-- SEQ. -/
def clrSeq (d : Die) (p : Nat) : Nat := bits (d.clrCtl p) 23 16

/-- The order names the cluster of a core. -/
def clrNames (d : Die) (p core : Nat) : Bool := (d.clrClusters p).testBit (core / 4)

end Die

/-- A job holds a strand on a core that the order names. -/
def State.onNamed (s : State) (p h : Nat) : Bool := (s.strandsOf h).any fun i => s.die.clrNames p (i / 8)

/-- Dispatches to a named core are withdrawn (R410). -/
def State.clrWithdraw (s : State) (p : Nat) : State :=
  (s.die.jobs.filter fun e => e.2.state == .dispatching && (e.2.placed.any fun x => s.die.clrNames p x.1)).foldl
    (fun s e =>
      let h := handleOf e
      if s.strandsOf h = [] then (s.withdrawJob h).returnJob ((e.2.placed.map (·.1)).getD 0) h else s) s

/-- The exit budgets of the jobs that run on a named core are capped (R410). -/
def State.clrCapBudgets (s : State) (p : Nat) : State :=
  (s.die.jobs.filter fun e => e.2.live).foldl (fun s e =>
    if s.onNamed p (handleOf e) then
      s.modDie fun d => d.modJob (handleOf e) fun j => { j with budget := Nat.min j.budget (d.exitCap p) }
    else s) s

/-- Waiting jobs pinned to a named cluster are abandoned with status CLEARED, each with a record (R410, Table 21.7). -/
def State.clrPinned (s : State) (p : Nat) : State :=
  (s.die.jobs.filter fun e => (e.2.state == .ready || e.2.state == .pending || e.2.state == .saved)
      && e.2.pin && s.die.vfPart e.2.vf == p && s.die.clrNames p e.2.pcore).foldl
    (fun s e => (s.modDie fun d => d.reportRecord 3 3 (handleOf e) 0 0 d.dtime d.dtime (d.clrSeq p) 0).abandon (handleOf e) 4 4) s

/-- CLEARANCE_GO: the order is accepted or rejected (R409, R410). -/
def State.clearanceGo (s : State) (p : Nat) : State :=
  if s.die.clrActive p ∨ p = 0 ∨ 12 < p then s
  else match s.die.clrReject p with
    | some why => s.modDie fun d => d.setClr p 3 why (d.clrSeq p)
    | none =>
      let s := s.modDie fun d => { d with orders := sset ⟨0, 0, []⟩ d.orders p ⟨d.dtime, 1, []⟩ }
      let s := s.modDie fun d => (d.setClr p 1 0 ((d.clrSeq p + 1) % 256)).setReg (clrAddr p + 0x20) (d.clrB p * 2 ^ 32 + d.clrW p)
      let s := s.modDie fun d => d.reportRecord 4 0 0 (d.clrW p) (d.clrB p) d.dtime 0 (d.clrSeq p) 0
      ((s.clrWithdraw p).clrCapBudgets p).clrPinned p

def execClearanceGo (part : Nat) (s : State) : Out := ok (s.clearanceGo part)

/-- A write of an order slot (R408): ignored while STATE is 1. -/
def State.clrWrite (s : State) (pa v : Nat) : State :=
  let a := pa / 8 * 8
  let p := (a - 0x200007000000) / 64
  if p = 0 ∨ 12 < p ∨ s.die.clrActive p then s
  else match a % 64 with
    | 0x00 => s.modDie fun d => d.setReg a (v % 2 ^ 64)
    | 0x08 => s.modDie fun d => d.setReg a (v % 2 ^ 60)
    | 0x10 => s.modDie fun d => d.setReg a (v % 2 ^ 64)
    | 0x18 =>
      let s := s.modDie fun d => d.setReg a (putBits (d.reg a) 63 24 (bits v 63 24))
      if v % 2 = 1 then s.clearanceGo p else s
    | _ => s

/-! ### The decision (R412 to R414) -/

/-- E (R412); none is infinity. -/
def State.estimate (s : State) (j : Job) (m : Manifest) (gv : Nat) : Option Nat :=
  let x := s.die.reg (0x200009100000 + 0x800 * j.vf + 8 * j.cls)
  if bits x 63 48 = 0 then none
  else
    let left := s.die.dtime - m.loopT
    let str := if m.stripn = 0 then 0 else ((left + m.strip) / (m.strip + 1)) * ((m.stripn + gv - 1) / gv)
    some (Nat.max (bits x 47 0 - m.run) str)

/-- What the decisions of an order have used so far: Sum_c by cluster. -/
abbrev Sums := List (Nat × Nat)

/-- The clusters that hold a context of a job. -/
def State.clustersOf (s : State) (h : Nat) : List Nat := ((s.strandsOf h).map (· / 32)).eraseDups

/-- Decide one job (R413, R414). -/
def State.decide1 (s : State) (p : Nat) (e : Nat × Job) (sums : Sums) : State × Sums :=
  let h := handleOf e
  let m := s.manifest h e.2
  let c := match e.2.root with
    | some i => (s.strand i).ctx
    | none => VCtx.absent
  let est := s.estimate e.2 m (Nat.max 1 (c.g * c.vlmax))
  let d := s.die
  let lim : Int := (d.clrH p : Int) - d.dtime - d.clrB p
  let n := (s.strandsOf h).length
  let bw := d.clrSaveBw p
  let run := match est with
    | none => false
    | some x => decide (((x + d.clrMargin p : Nat) : Int) ≤ lim)
  let save := !e.2.pin && !m.latch && !m.host && decide (n + s.setAside p ≤ (d.freeSlots p).length) && e.2.state == .running &&
    (s.clustersOf h).all fun k => decide (((sget 0 sums k + m.dplus + 2000 * bw : Nat) : Int) ≤ lim * bw)
  let kind := if run then 0 else if save then 1 else 2
  let pick : Pick := ⟨h, kind, d.dtime, est.getD (2 ^ 32 - 1), m.dplus, m.k, 0, false⟩
  let s := s.modDie fun d =>
    let o := sget ⟨0, 0, []⟩ d.orders p
    { d with orders := sset ⟨0, 0, []⟩ d.orders p { o with picks := o.picks ++ [pick] } }
  let s := s.modDie fun d => d.reportRecord kind 0 h pick.est m.dplus d.dtime 0 (d.clrSeq p) m.k
  if kind = 0 then (s, sums)
  else if kind = 1 then
    (s.modDie fun d => d.modJob h fun j => { j with preempt := 2 },
      (s.clustersOf h).foldl (fun t k => sset 0 t k (sget 0 t k + m.dplus)) sums)
  else (s.abandon h 4 4, sums)

/-- Set the stage of an order. -/
def State.setStage (s : State) (p n : Nat) : State :=
  s.modDie fun d => { d with orders := sset ⟨0, 0, []⟩ d.orders p { sget ⟨0, 0, []⟩ d.orders p with stage := n } }

/-- The stage of an order. -/
def Die.stage (d : Die) (p : Nat) : Nat := (sget ⟨0, 0, []⟩ d.orders p).stage

/-- CLEARANCE_DECISION: every job with a strand on a named core is decided, in order (R413). -/
def State.clearanceDecide (s : State) (p : Nat) : State :=
  if s.die.stage p ≠ 1 then s
  else
    let l := (s.die.jobs.filter fun e => e.2.live && s.onNamed p (handleOf e)).foldl (fun t e => insertDue e t) []
    ((l.foldl (fun (x : State × Sums) e =>
      match x.1.die.job (handleOf e) with
      | some j => if j.live && x.1.onNamed p (handleOf e) then x.1.decide1 p (e.1, j) x.2 else x
      | none => x) (s, [])).1).setStage p 2

def execClearanceDecision (part : Nat) (s : State) : Out := ok (s.clearanceDecide part)

/-- Mark how a decided job ends when it is discarded late. -/
def Die.setOver (d : Die) (p h n : Nat) : Die :=
  let o := sget ⟨0, 0, []⟩ d.orders p
  let picks := o.picks.map fun x => if x.job = h ∧ !x.closed then { x with overran := n } else x
  { d with orders := sset ⟨0, 0, []⟩ d.orders p { o with picks := picks } }

/-- CLEARANCE_STOP_POINT: at H − B the RUN jobs still on a named core and the checkpoints not complete are discarded (R414). -/
def State.clearanceStop (s : State) (p : Nat) : State :=
  if s.die.stage p ≠ 2 ∨ s.die.dtime < s.die.clrH p - s.die.clrB p then s
  else
    let late (s : State) (x : Pick) : Bool := !x.closed && (match s.die.job x.job with
      | some j => j.live && (if x.kind = 1 then j.preempt == 2 else s.onNamed p x.job)
      | none => false)
    ((sget ⟨0, 0, []⟩ s.die.orders p).picks.foldl (fun s x =>
      if late s x then (s.modDie fun d => d.setOver p x.job (if x.kind = 1 then 5 else if x.kind = 0 then 4 else 0)).abandon x.job 4 4
      else s) s).setStage p 3

def execClearanceStopPoint (part : Nat) (s : State) : Out := ok (s.clearanceStop part)

/-! ### Vacancy (R415) -/

/-- The targets that the source's owners lose (R415). -/
def Die.clrTargets (d : Die) (p : Nat) : List Nat :=
  let cs := (List.range 64).filter (d.clrClusters p).testBit
  (cs.flatMap fun c => [0x100 + c, 0x480 + c] ++ (List.range 4).flatMap fun i => [0x200 + 4 * c + i, 0x300 + 4 * c + i])
    ++ (((List.range 16).filter (d.clrColours p).testBit).flatMap fun c => (List.range 8).map (8 * c + ·))
    ++ d.engineClasses.flatMap fun e => ((List.range e.count).filter (d.clrInstances p e).testBit).map (e.target + ·)

/-- Remove RD and WR of an owner at a target. -/
def Die.dropAccess (d : Die) (t o : Nat) : Die :=
  let a := 0x200006000000 + 128 * t + 8 * (2 * o / 64)
  d.setReg a (putBits (d.reg a) (2 * o % 64 + 1) (2 * o % 64) 0)

/-- The owners of a partition: itself and its VFs. -/
def Die.ownersOf (d : Die) (p : Nat) : List Nat := p :: ((List.range 256).filter fun v => d.vfPart v == p).map (0x100 + ·)

/-- The class and instance of an engine number. -/
def engClass (e : Nat) : Nat := e / 32
def engInst (e : Nat) : Nat := e % 32

/-- The order names the slot that a command holds. -/
def Die.clrHolds (d : Die) (p : Nat) (c : Cmd) : Bool :=
  c.part == p && match d.engineClasses[engClass c.engine]? with
    | some e => (d.clrInstances p e).testBit (engInst c.engine)
    | none => false

/-- CLEARANCE_HORIZON: at H the commands in named slots end DENIED at their offsets, with the VA of doubleword 3 as the failing one (R389 gives
none for such an end; log 54), the rings of named clusters are disabled, the source's access bits are
dropped and the leaving colours are written back (R415). -/
def Die.clearanceHorizon (d : Die) (p : Nat) : Die :=
  let cmds := d.cmds.map fun c =>
    if d.clrHolds p c && c.done.isNone then { c with done := some (6, c.prog, 0, c.words.getD 3 0) } else c
  let d := { d with cmds := cmds }
  let d := ((List.range 64).filter (d.clrClusters p).testBit).foldl (fun d c =>
    (List.range 16).foldl (fun d r => d.setReg (brctlAddr c r) (putBits (d.reg (brctlAddr c r)) 8 8 0)) d) d
  let owners := d.ownersOf p
  let d := (d.clrTargets p).foldl (fun d t => owners.foldl (fun d o => d.dropAccess t o) d) d
  ((d.mem.lines.map (·.1)).filter fun l => (d.clrColours p).testBit (l2Colour (512 * l))).foldl Die.evict d

def State.clearanceHorizon (s : State) (p : Nat) : State :=
  if s.die.stage p ≠ 3 ∨ s.die.dtime < s.die.clrH p then s
  else (s.modDie fun d => d.clearanceHorizon p).setStage p 4

def execClearanceHorizon (part : Nat) (s : State) : Out := ok (s.clearanceHorizon part)

/-- CLEARANCE_VACANCY: at DL the masks and the slot counts move to DST, STATE is 2 and the completion record is written (R415, R421). -/
def Die.clearanceVacancy (d : Die) (p : Nat) : Die :=
  let dst := d.clrDst p
  let cl := d.clrClusters p
  let col := d.clrColours p
  let moved := d.engineClasses.filter fun e => d.clrInstances p e != 0
  let o := sget ⟨0, 0, []⟩ d.orders p
  let d := (d.setReg (pcluAddr dst) (d.reg (pcluAddr dst) ||| cl)).setReg (pcluAddr p) (d.reg (pcluAddr p) &&& (2 ^ 64 - 1 - cl))
  let d := (d.setReg (presAddr dst) (d.reg (presAddr dst) ||| col)).setReg (presAddr p)
    (putBits (d.reg (presAddr p)) 15 0 (bits (d.reg (presAddr p)) 15 0 &&& (2 ^ 16 - 1 - col)))
  let d := moved.foldl (fun d e =>
    (d.setReg (presAddr dst) (putBits (d.reg (presAddr dst)) (e.pres + 5) e.pres (d.slotsOf dst e + d.slotsOf p e))).setReg
      (presAddr p) (putBits (d.reg (presAddr p)) (e.pres + 5) e.pres 0)) d
  let d := d.setClr p 2 0 (d.clrSeq p)
  let d := d.reportRecord 4 1 0 (d.clrW p) (d.clrB p) o.since (d.clrDeadline p) (d.clrSeq p) 0
  { d with orders := sdel d.orders p }

def State.clearanceVacancy (s : State) (p : Nat) : State :=
  if s.die.stage p ≠ 4 ∨ s.die.dtime < s.die.clrDeadline p then s else s.modDie fun d => d.clearanceVacancy p

def execClearanceVacancy (part : Nat) (s : State) : Out := ok (s.clearanceVacancy part)

/-! ### Retirement (R417, R419, R428) -/

/-- The rescaling of R419: each rate `q / t` with its guarantee class; the capacity is `cap / den`. The answer is the new list of `q`. -/
def rescale (cap den : Nat) (us : List (Nat × Nat × Nat)) : Option (List Nat × Nat) :=
  let common := us.foldl (fun n u => n * u.2.1) 1
  let rate (u : Nat × Nat × Nat) : Nat := u.1 * (common / u.2.1) * den
  let u0 := (us.filter fun u => u.2.2 == 0).foldl (fun n u => n + rate u) 0
  let ur := (us.filter fun u => u.2.2 != 0).foldl (fun n u => n + rate u) 0
  let c := cap * common
  if u0 + ur ≤ c then none
  else some (us.map fun u =>
    if u0 ≤ c then (if u.2.2 = 0 then u.1 else u.1 * (c - u0) / ur)
    else if u.2.2 = 0 then u.1 * c / u0 else 0, 1000 * (u0 + ur) / (common * den))

/-- The cores of a partition that have not retired. -/
def Die.liveCores (d : Die) (p : Nat) : List Nat := (d.coresOf p).filter fun c => !d.retired.contains (c / 4)

/-- The servers of a partition are rescaled where their rates exceed its lane groups (R419). -/
def Die.rescaleServers (d : Die) (p : Nat) : Die :=
  let vs := (List.range 256).filter fun v => d.vfPart v == p && d.srvEn v
  let cap := 4 * (d.liveCores p).length
  let gcls (v : Nat) : Nat := bits (d.reg (0x200006110000 + 8 * v)) 6 5
  match rescale cap 1 (vs.map fun v => (d.srvQ v, Nat.max 1 (d.srvT v), gcls v)) with
  | none => d
  | some (qs, old) =>
    let d := (vs.zip qs).foldl (fun d x => d.setReg (jsrvAddr x.1) (putBits (d.reg (jsrvAddr x.1)) 31 16 x.2)) d
    d.reportRecord 5 0 0 cap old d.dtime d.dtime 0 0

/-- CLUSTER_RETIREMENT: the cluster's partition is rescaled; under an order that names the cluster its jobs are discarded at once (R417, R419). -/
def State.clusterRetire (s : State) (c : Nat) : State :=
  let s := s.modDie fun d => { d with retired := c :: d.retired }
  let s := (partitions.filter fun p => s.die.clrActive p && (s.die.clrClusters p).testBit c).foldl (fun s _ =>
    (s.die.jobs.filter fun e => e.2.live && (s.strandsOf (handleOf e)).any fun i => i / 32 == c).foldl
      (fun s e => s.abandon (handleOf e) 4 4) s) s
  match partitions.find? fun p => (s.die.reg (pcluAddr p)).testBit c with
  | some p => s.modDie fun d => d.rescaleServers p
  | none => s

def execClusterRetirement (cluster : Nat) (s : State) : Out := ok (s.clusterRetire (cluster % 64))

/-- `MREG`[c][o] (Table 23.2). -/
def mregAddr (c o : Nat) : Nat := 0x200008000000 + 0x1000 * c + 8 * o

/-- CHANNEL_RETIREMENT: the floors of the controller are rescaled to 0.9 × 337.5 sectors per µs for each remaining channel (R428). Owners that
are no VF have no guarantee class; they take class 0. -/
def Die.channelRetire (d : Die) (c : Nat) : Die :=
  let n := Nat.min 4 (sget 0 d.lost c + 1)
  let d := { d with lost := sset 0 d.lost c n }
  let cap := 30375 * (4 - n)
  let os := (List.range 512).filter fun o => bits (d.reg (mregAddr c o)) 15 0 != 0
  let gcls (o : Nat) : Nat := if 0x100 ≤ o then bits (d.reg (0x200006110000 + 8 * (o - 0x100))) 6 5 else 0
  match rescale cap 100 (os.map fun o => (bits (d.reg (mregAddr c o)) 15 0, 1, gcls o)) with
  | none => d
  | some (ms, old) =>
    let d := (os.zip ms).foldl (fun d x => d.setReg (mregAddr c x.1) (putBits (d.reg (mregAddr c x.1)) 15 0 x.2)) d
    d.reportRecord 5 0 0 (cap / 100) old d.dtime d.dtime 0 0

def execChannelRetirement (controller : Nat) (s : State) : Out := ok (s.modDie fun d => d.channelRetire (controller % 8))

end Sys2Proof.Machine
end

