-- ==== Sys2Proof/Machine/Engine.lean ====
section
/-! DEFINITION. Commands of the engines (R384 to R390): ENQ and ENQR, acceptance, translation, completion. -/

namespace Sys2Proof.Machine

/-! ### Command blocks (R385, R388) -/

/-- Doubleword `i` of a command. -/
def dw (ws : List Nat) (i : Nat) : Nat := ws.getD i 0

/-- OP. -/
def Cmd.op (c : Cmd) : Nat := bits (dw c.words 1) 7 0

/-- A check of a command: the lowest bit of the field, and whether the field offends. -/
abbrev Check := Nat × Bool

/-- Bit `lo` of doubleword `i`, counted from the block's start. -/
def at_ (i lo : Nat) : Nat := 64 * i + lo

/-- A reserved field. -/
def rsv (ws : List Nat) (i hi lo : Nat) : Check := (at_ i lo, bits (dw ws i) hi lo != 0)

/-- The byte offset of the lowest offending field. -/
def offending (cs : List Check) : Option Nat :=
  (cs.filter (·.2)).foldl (fun (m : Option Nat) c => match m with
    | none => some (c.1 / 8)
    | some x => some (Nat.min x (c.1 / 8))) none

/-- log2 of a page size by its code (Table 18.11). -/
def pageLog (c : Nat) : Nat := match c with | 0 => 12 | 1 => 16 | 2 => 21 | 3 => 25 | 4 => 30 | _ => 34

/-- The checks of a ferry command (R391, Table 20.4). -/
def ferryChecks (ws : List Nat) : List Check :=
  let hi := bits (dw ws 1) 63 32
  let src := dw ws 2
  let dst := dw ws 3
  let len := bits (dw ws 4) 31 0
  let none567 := [rsv ws 5 63 0, rsv ws 6 63 0, rsv ws 7 63 0]
  rsv ws 1 15 8 :: match bits (dw ws 1) 7 0 with
  | 0 => [rsv ws 1 63 32, rsv ws 4 63 32, (at_ 3 0, decide (src < dst ∧ dst < src + len))] ++ none567
  | 1 => [rsv ws 1 63 32, rsv ws 7 63 0]
  | 2 | 3 => [(at_ 1 32, decide (6 < hi)), (at_ 4 0, dw ws 4 % 4 != 0), rsv ws 5 63 32, rsv ws 6 63 0, rsv ws 7 63 0]
  | 4 => [rsv ws 1 63 32, rsv ws 4 63 32] ++ none567
  | 5 =>
    let sz := 2 ^ pageLog hi
    let bad (a : Nat) : Bool := a % sz != 0 || decide (Config.lpddrBytes < a + sz)
    [(at_ 1 32, decide (5 < hi)), (at_ 2 0, bad src), (at_ 3 0, bad dst), rsv ws 4 63 0] ++ none567
  | 6 => [(at_ 1 32, decide (8 < hi)), (at_ 2 0, src % 4 != 0), (at_ 3 0, dst % 4 != 0), (at_ 4 0, len % 4 != 0), rsv ws 4 63 32] ++ none567
  | _ => [(at_ 1 0, true)]

/-- The lifting sizes of TS 38.212 Table 5.3.2-1: a·2^j up to 384. -/
def liftingSize (z : Nat) : Bool :=
  [2, 3, 5, 7, 9, 11, 13, 15].any fun a => (List.range 8).any fun j => z == a * 2 ^ j && decide (z ≤ 384)

/-- The checks of an LDPC command (R392, Table 20.6). -/
def ldpcChecks (ws : List Nat) (decode : Bool) : List Check :=
  let d1 := dw ws 1
  let bg2 := bits d1 8 8 == 1
  let z := bits d1 40 32
  let k := (if bg2 then 10 else 22) * z
  let n := (if bg2 then 50 else 66) * z
  let qm := bits d1 51 48
  let e := bits (dw ws 5) 31 0
  let ncb := bits (dw ws 5) 63 32
  let it := bits d1 46 41
  [(at_ 1 0, bits d1 7 0 != 0),
    (at_ 1 9, if decode then bits d1 10 9 == 3 else bits d1 10 9 != 0),
    (at_ 1 11, !decode && bits d1 12 11 != 0),
    rsv ws 1 15 13,
    (at_ 1 32, !liftingSize z),
    (at_ 1 41, decode && decide (it = 0 ∨ 32 < it)),
    rsv ws 1 47 47,
    (at_ 1 48, !([1, 2, 4, 6, 8].contains qm)),
    rsv ws 1 63 54,
    (at_ 4 0, !decode && dw ws 4 != 0),
    (at_ 5 0, decide (e = 0 ∨ 2 ^ 20 < e) || e % Nat.max 1 qm != 0),
    (at_ 5 32, ncb != 0 && decide (ncb < k ∨ n < ncb)),
    (at_ 6 0, decide (k ≤ bits (dw ws 6) 15 0)),
    rsv ws 6 63 16, rsv ws 7 63 0]

/-- The checks of a polar command (R395). -/
def polarChecks (ws : List Nat) : List Check :=
  let k := bits (dw ws 1) 41 32
  let e := bits (dw ws 5) 31 0
  [(at_ 1 0, decide (1 < bits (dw ws 1) 7 0)), rsv ws 1 15 11, (at_ 1 32, decide (k < 12)), rsv ws 1 63 42, rsv ws 4 63 0,
    (at_ 5 0, decide (e ≤ k ∨ 8192 < e)), rsv ws 5 63 32, rsv ws 6 63 0, rsv ws 7 63 0]

/-- The checks of a transmit command (R396). -/
def txChecks (ws : List Nat) : List Check :=
  let op := bits (dw ws 1) 7 0
  let d5 := dw ws 5
  let prb := bits d5 51 44
  [(at_ 1 0, decide (2 < op)), rsv ws 1 15 9, rsv ws 1 63 56, rsv ws 4 63 48, rsv ws 6 63 0, rsv ws 7 63 0] ++
  if op = 0 then
    [(at_ 4 0, bits (dw ws 4) 31 0 != 48 * prb), (at_ 5 44, prb == 0), (at_ 5 52, !([8, 9, 12, 14, 16].contains (bits d5 56 52))),
      rsv ws 5 63 57]
  else [rsv ws 5 63 0]

/-- The check of the completion target (R388, R455). -/
def State.targetCheck (s : State) (ws : List Nat) (part : Nat) : Check :=
  let t := dw ws 0
  let fw := s.me.id.kind == .column
  (0, if bits t 63 63 = 1 then
      fw || bits t 62 62 != 0 || bits t 1 0 != 0 || !s.die.inPart part (bits t 61 54)
    else
      bits t 62 32 != 0 || decide (idReg t = 0 ∨ 26 < idReg t) ||
        (fw && !(idHome t == s.me.id.home && idGen t == s.me.id.gen)))

/-- The byte offset at which a command is malformed (R385). -/
def State.malformedOffset (s : State) (cls : Nat) (ws : List Nat) (part : Nat) : Option Nat :=
  offending (s.targetCheck ws part :: match cls with
    | 0 => ferryChecks ws
    | 1 => ldpcChecks ws true
    | 2 => ldpcChecks ws false
    | 3 => polarChecks ws
    | _ => txChecks ws)

/-- The operation needs VF-supervisor privilege (Table 20.4, Table 20.10). -/
def supervisorOp (cls op : Nat) : Bool := (cls == 0 && op == 5) || (cls == 4 && op == 2)

/-! ### Acceptance (R384, R387, R455) -/

/-- The partition of the issuing strand's commands; 0, firmware's share, for a strand of no job. -/
def State.cmdPart (s : State) : Nat :=
  if s.me.id.kind = .column then 0
  else s.die.vfPart (((s.die.job s.me.id.job.toNat).map (·.vf)).getD (ownerVf s.me.id.owner))

/-- Slots of a partition on each engine of a class; firmware's share is what the partitions leave (R455). -/
def Die.share (d : Die) (p : Nat) (e : EngineClass) : Nat :=
  if p = 0 then 32 - partitions.foldl (fun n q => n + d.slotsOf q e) 0 else d.slotsOf p e

/-- Free slots of a partition on an engine; none where an active order of the partition names the slot (R410). -/
def Die.freeSlotsOn (d : Die) (p cls inst : Nat) : Nat :=
  match d.engineClasses[cls]? with
  | none => 0
  | some e =>
    if p ≠ 0 ∧ d.clrActive p ∧ (d.clrInstances p e).testBit inst then 0
    else d.share p e - d.cmds.countP fun c => c.engine == 32 * cls + inst && c.part == p

/-- The instances that a select names and whose table admits the owner. -/
def Die.admitted (d : Die) (sel o : Nat) : List Nat :=
  match d.engineClasses[bits sel 7 5]? with
  | none => []
  | some e => (if bits sel 8 8 = 1 then List.range e.count else [bits sel 4 0]).filter fun i => d.admits (e.target + i) o true

/-- The engine that accepts: the most free slots, then the lowest number. -/
def Die.accepting (d : Die) (sel o p : Nat) : Option Nat :=
  ((d.admitted sel o).foldl (fun (best : Option (Nat × Nat)) i =>
    let n := d.freeSlotsOn p (bits sel 7 5) i
    match best with
    | none => if n = 0 then none else some (i, n)
    | some b => if b.2 < n then some (i, n) else best) none).map (·.1)

/-- A select is legal: the class and the instance are present (R384, R385). -/
def Die.selectOk (d : Die) (sel : Nat) : Bool :=
  sel / 512 == 0 && match d.engineClasses[bits sel 7 5]? with
    | none => false
    | some e => if bits sel 8 8 = 1 then bits sel 4 0 == 0 else decide (bits sel 4 0 < e.count)

/-- A command whose select, admission and block have passed: privilege, form, acceptance (R385). -/
def State.enqueue (s : State) (rel : Bool) (word sel block : Nat) (ws : List Nat) : State :=
  let cls := bits sel 7 5
  let part := s.cmdPart
  if supervisorOp cls (bits (dw ws 1) 7 0) && s.me.priv == .user then s.illegal 0x02 word
  else match s.malformedOffset cls ws part with
    | some off => s.trap 0x40 (BitVec.ofNat 64 (block + off))
    | none => if rel && !s.drained then s.waitIn .fence else match s.die.accepting sel s.me.id.owner part with
      | none => s.waitIn .enq
      | some i =>
        let c : Cmd := {
          engine := 32 * cls + i
          part := part
          owner := s.me.id.owner
          asid := s.me.xasid.toNat
          job := s.me.id.job.toNat
          core := s.core
          strand := s.meId
          home := s.me.id.home
          gen := s.me.id.gen
          noJob := s.me.id.kind == .column
          words := ws
          block := block
          done := none
          frame := []
          since := 0
          prog := 0
          accepted := s.die.dtime
          stale := if rel then [] else s.me.run.unfenced }
        (s.modDie fun d => { d with cmds := d.cmds ++ [c] }).retire

/-- The checks of the select (R385): a fault code, or none. -/
def State.selectFault (s : State) (sel : Nat) : Option Nat :=
  if !s.die.selectOk sel then some 0x40
  else if s.die.admitted sel s.me.id.owner = [] then some 0x12
  else none

/-- ENQ (R385): the command block is a load of the strand (R327). With REL every earlier store and AMO of the strand has performed (R106). -/
def execEnq (a b : Fin 32) (r : Bool) (s : State) : Out :=
  let sel := (s.reg a).toNat
  let va := (s.reg b).toNat
  match s.selectFault sel with
  | some c => ok (s.trap c (s.reg a))
  | none => match s.resolveScalar va 64 .read with
    | .inr s => ok (s.waitIn .migrating)
    | .inl (.error (c, s)) => ok (s.trap c (BitVec.ofNat 64 va))
    | .inl (.ok (pa, _, s)) => match s.loadLinked va pa 64 with
      | .trap c _ s => ok (s.trap c (BitVec.ofNat 64 va))
      | .wait _ pa s => ok (s.linkRequest (linkRead va pa 64))
      | .ok bs s =>
        ok (s.enqueue r (encode (.enq a b r)) sel va ((List.range 8).map fun i => leVal ((bs.drop (8 * i)).take 8)))

/-- ENQR (R385): the command is read from eight registers. -/
def execEnqr (n a : Fin 32) (r : Bool) (s : State) : Out :=
  let sel := (s.reg a).toNat
  match s.selectFault sel with
  | some c => ok (s.trap c (s.reg a))
  | none => ok (s.enqueue r (encode (.enqr n a r)) sel 0 ((List.range 8).map fun i => (s.reg (Fin.ofNat 32 (n + i))).toNat))

/-- A strand waits in ENQ or ENQR. -/
def State.enqWaiter (s : State) : Option Nat :=
  (((s.meId, s.me) :: s.others).find? fun e => e.2.run.wait == .enq).map (·.1)

/-- COMMAND_ACCEPT: the lowest strand that waits executes its ENQ or ENQR again, with a slot free on the engine (R387). -/
def execCommandAccept (engine : Nat) (s : State) : Out :=
  ok (match s.enqWaiter with
    | some i => if (partitions ++ [0]).any fun p => decide (0 < s.die.freeSlotsOn p (engClass engine) (engInst engine))
        then s.leave (.issue i) else s
    | none => s)

/-! ### Accesses of a command (R389) -/

/-- The answer of one access of an engine. -/
inductive EngRes where
  | ok (pa : Nat) (d : Die)
  /-- A status of Table 20.3. -/
  | stop (status : Nat) (d : Die)
  | wait (d : Die)
  deriving DecidableEq, Repr

/-- The status of a fault code (R300, R390). -/
def engStatus (code : Nat) : Nat := if code = 0x12 then 6 else if code = 0x70 then 5 else 1

/-- A command has no TLB: the number of no core. -/
def noTlb : Nat := 1024

/-- Translate a VA in the command's context, a page at a time, and set its A and D bits (R343, R351, R389). The local window belongs to strands
(R167). -/
def Die.engTranslate (d : Die) (c : Cmd) (va : Nat) (a : Acc) : Nat → EngRes
  | 0 => .stop 1 d
  | fuel + 1 =>
    if va / 2 ^ 54 ≠ 0 ∨ inWindow va ∨ d.reg (xdirAddr c.owner) % 2 = 0 then .stop 1 d
    else match d.walk (engineWalker c.engine) c.owner c.asid va with
      | .fault e d => .stop (engStatus e) d
      | .migrating _ d => if c.since ≠ 0 ∧ c.since + 100000 ≤ d.dtime + 1 then .stop 1 d else .wait d
      | .leaf l d =>
        match d.leafFault l (l.pa va) a with
        | some e => .stop (engStatus e) d
        | none => match d.setAD noTlb c.owner l a.writes with
          | .error (e, d) => .stop (engStatus e) d
          | .ok (true, d) => .ok (l.pa va) d
          | .ok (false, d) => d.engTranslate c va a fuel

/-- The place of an access: its physical address, or what stops the command there. MMIO registers take scalar accesses alone (R11). -/
def Die.engPlace (d : Die) (c : Cmd) (va : Nat) (a : Acc) : EngRes :=
  match d.engTranslate c va a 2 with
  | .ok pa d => match d.target pa with
    | .mmio => .stop 6 d
    | .twinWindow => if d.twinUp then .ok pa d else .stop 1 d
    | .hostWindow => .ok pa d
    | t => if d.admitsRW (tableOf pa t) c.owner a.reads a.writes then .ok pa d else .stop 6 d
  | r => r

/-- The bytes of a read as a command may obtain them (R327): a word that the issuing strand stored to, with no XPFENCE and no REL between, comes
as it is or as it was before one of those stores, each word on its own (log 80). -/
def Cmd.staleBytes (c : Cmd) (clock pa : Nat) (bs : List Byte) : List Byte :=
  if c.stale = [] then bs
  else bs.mapIdx fun i b =>
    let a := (pa + i) / 4 * 4
    let olds := c.stale.filter fun e => e.1 == a
    match olds[Config.engineWord clock a % (olds.length + 1)]? with
    | some e => BitVec.ofNat 8 (e.2 / 2 ^ (8 * ((pa + i) % 4)))
    | none => b

/-- Read bytes within a 128-byte sector at a physical address; an uncorrectable error is a status, with a record (R6). -/
def Die.engRead (d : Die) (c : Cmd) (pa n : Nat) : Except (Nat × Die) (List Byte × Die) :=
  match d.target pa with
  | .hostWindow | .twinWindow =>
    let twin := decide (0xC00000000000 ≤ pa)
    let a := d.linkAddr twin c.owner pa
    .ok ((List.range n).map fun i => Config.linkByte twin (a + i) d.clock,
      d.send ⟨twin, c.owner, .read, a, n, 0, 0, d.pasidOf twin c.owner, !twin⟩)
  | _ => match d.physRead c.owner pa n with
    | .error e => .error (engStatus e, d.readError e 2048 pa)
    | .ok (bs, d) => .ok (c.staleBytes d.clock pa bs, d)

/-- Write bytes within a sector; an error on the way to memory is a record (R426). A write to the twin performs when the twin accepts it
(R319). -/
def Die.engWrite (d : Die) (c : Cmd) (pa : Nat) (bs : List Byte) : Die :=
  match d.target pa with
  | .hostWindow | .twinWindow =>
    let twin := decide (0xC00000000000 ≤ pa)
    let m : LinkMsg := ⟨twin, c.owner, .write, d.linkAddr twin c.owner pa, bs.length, leVal bs, 0, d.pasidOf twin c.owner, !twin⟩
    if twin then d.postTwin (2048 + c.engine) c.owner pa Copy.window m else d.postHost (2048 + c.engine) c.owner pa Copy.window m
  | _ => match d.physWrite c.owner pa bs with
    | .error e => d.errorRecord e 2048 pa
    | .ok d => d

/-! ### The end of a command (R387, R389) -/

/-- The first unfinished command of an engine whose OP is `op`. -/
def Die.nextCmd (d : Die) (engine op : Nat) : Option Cmd :=
  (d.cmds.find? fun c => c.engine == engine && c.done.isNone).bind fun c => if c.op = op then some c else none

/-- One of the four commands that a ferry engine runs at once (R387). -/
def Die.runningFerry (d : Die) (engine op : Nat) : Option Cmd :=
  ((d.cmds.filter fun c => c.engine == engine && c.done.isNone).take 4).find? fun c => c.op == op

/-- Replace the first command equal to `c`. -/
def Die.setCmd (d : Die) (c c' : Cmd) : Die :=
  { d with cmds := match d.cmds.span (· != c) with
      | (pre, _ :: post) => pre ++ c' :: post
      | (pre, []) => pre }

/-- A command finishes with a status, its progress, doubleword 2 of the payload and the failing VA. -/
def Die.finishCmd (d : Die) (c : Cmd) (status prog info va : Nat) : Die := d.setCmd c { c with done := some (status, prog, info, va) }

/-- The command met MG = 1 and waits (R352). -/
def Die.stallCmd (d : Die) (c : Cmd) (prog : Nat) : Die :=
  d.setCmd c { c with since := if c.since = 0 then d.dtime + 1 else c.since, prog := prog }

/-- The completion message (Table 20.2). -/
def Cmd.completion (c : Cmd) (r : Nat × Nat × Nat × Nat) (now : Nat) : Msg where
  owner := c.owner
  asid := c.asid
  score := c.engine
  sstr := 0
  twin := false
  lmin := 0
  lpref := 0
  orig := 1
  cont := bits (dw c.words 0) 63 63 == 0
  target := if bits (dw c.words 0) 63 63 = 1 then 4 * bits (dw c.words 0) 53 2 else bits (dw c.words 0) 31 0
  payload := [BitVec.ofNat 64 (r.1 + 256 * c.op + 65536 * bits (dw c.words 1) 31 16 + 2 ^ 32 * c.engine),
    BitVec.ofNat 64 r.2.1, BitVec.ofNat 64 r.2.2.1, BitVec.ofNat 64 r.2.2.2, BitVec.ofNat 64 now, BitVec.ofNat 64 c.block]
  job := c.job
  noJob := c.noJob

/-- The core that a completion goes to. -/
def Cmd.destCore (c : Cmd) : Nat :=
  if bits (dw c.words 0) 63 63 = 1 then bits (dw c.words 0) 61 54 else bits (dw c.words 0) 31 24

/-- A finished command of an engine sends its completion and frees its slot; the entry of an ended context goes with its last command
(R262, R389), once the twin has accepted what it wrote there (R319, R328). A handler is an auxiliary strand of its job (R388), so none starts for a job that has ended. -/
def State.complete (s : State) (engine : Nat) : State :=
  match (if s.die.posted.any fun p => p.source == 2048 + engine then none
      else s.die.cmds.find? fun c => c.engine == engine && c.done.isSome) with
  | none => s
  | some c => match c.done with
    | none => s
    | some r =>
      let s := s.modDie fun d => { d with cmds := d.cmds.erase c }
      let m := c.completion r s.die.dtime
      let s := if m.cont || (s.die.job c.job).any Job.live then s.post c.destCore m else s
      if s.die.cmdsOf c.home c.gen = 0 then
        s.modCoreS (c.home / 8) fun x =>
          if x.absent.any fun a => a.strand == c.home % 8 && a.gen == c.gen && a.at_ == .ended then x.freeAbsent (c.home % 8) c.gen else x
      else s

def execCommandCompletion (engine : Nat) (s : State) : Out := ok (s.complete engine)

end Sys2Proof.Machine
end

