-- ==== Sys2Proof/Machine/Sha.lean ====
section
/-! DEFINITION. SHA-384 of FIPS 180-4 (R4), which the boot ROM measures with (R432). -/

namespace Sys2Proof.Machine

/-- The largest r below 2^n + `r` with r^k ≤ x, a bit at a time. -/
def rootBits (k x : Nat) : Nat → Nat → Nat
  | 0, r => r
  | n + 1, r => rootBits k x n (if (r + 2 ^ n) ^ k ≤ x then r + 2 ^ n else r)

/-- The first 80 primes. -/
def shaPrimes : List Nat := (List.range 410).filter fun n => decide (2 ≤ n) && (List.range n).all fun d => decide (d < 2) || n % d != 0

/-- The round constants (FIPS 180-4, 4.2.3): 64 bits of the fraction of the cube root of each prime. -/
def shaRound : List Word := shaPrimes.map fun p => BitVec.ofNat 64 (rootBits 3 (p * 2 ^ 192) 68 0)

/-- The eight working variables. -/
structure ShaState where
  a : Word
  b : Word
  c : Word
  d : Word
  e : Word
  f : Word
  g : Word
  h : Word
  deriving DecidableEq, Repr

/-- The initial hash value of SHA-384 (5.3.4): the same of the square roots of the ninth to the sixteenth prime. -/
def sha384Init : ShaState :=
  let r (i : Nat) : Word := BitVec.ofNat 64 (rootBits 2 ((shaPrimes.getD (8 + i) 0) * 2 ^ 128) 70 0)
  ⟨r 0, r 1, r 2, r 3, r 4, r 5, r 6, r 7⟩

/-- The message schedule (6.4.2): `w` holds its words so far, newest first. -/
def shaSchedule : Nat → List Word → List Word
  | 0, w => w.reverse
  | n + 1, w =>
    let x := w.getD 1 0
    let y := w.getD 14 0
    let s1 := x.rotateRight 19 ^^^ x.rotateRight 61 ^^^ x.ushiftRight 6
    let s0 := y.rotateRight 1 ^^^ y.rotateRight 8 ^^^ y.ushiftRight 7
    shaSchedule n ((s1 + w.getD 6 0 + s0 + w.getD 15 0) :: w)

/-- One round with its constant and its schedule word. -/
def ShaState.round (s : ShaState) (k w : Word) : ShaState :=
  let ch := (s.e &&& s.f) ^^^ (~~~s.e &&& s.g)
  let maj := (s.a &&& s.b) ^^^ (s.a &&& s.c) ^^^ (s.b &&& s.c)
  let t1 := s.h + (s.e.rotateRight 14 ^^^ s.e.rotateRight 18 ^^^ s.e.rotateRight 41) + ch + k + w
  let t2 := (s.a.rotateRight 28 ^^^ s.a.rotateRight 34 ^^^ s.a.rotateRight 39) + maj
  ⟨t1 + t2, s.a, s.b, s.c, s.d + t1, s.e, s.f, s.g⟩

/-- One block of 16 words. -/
def ShaState.block (s : ShaState) (ws : List Word) : ShaState :=
  let t := (shaRound.zip (shaSchedule 64 ws.reverse)).foldl (fun s p => s.round p.1 p.2) s
  ⟨s.a + t.a, s.b + t.b, s.c + t.c, s.d + t.d, s.e + t.e, s.f + t.f, s.g + t.g, s.h + t.h⟩

/-- A number from big-endian bytes. -/
def beVal (bs : List Nat) : Nat := bs.foldl (fun x b => 256 * x + b % 256) 0

/-- The bytes of a message, padded to whole blocks of 128 (5.1.2). -/
def shaPad (bs : List Nat) : List Nat :=
  bs ++ 0x80 :: List.replicate ((239 - bs.length % 128) % 128) 0 ++ (List.range 16).map fun i => 8 * bs.length / 256 ^ (15 - i) % 256

/-- The blocks of a padded message. -/
def shaBlocks : Nat → List Nat → List (List Word)
  | 0, _ => []
  | n + 1, bs => ((List.range 16).map fun i => BitVec.ofNat 64 (beVal ((bs.drop (8 * i)).take 8))) :: shaBlocks n (bs.drop 128)

/-- SHA-384: its 48 bytes as a number, the first byte most significant. -/
def sha384 (bs : List Nat) : Nat :=
  let p := shaPad bs
  let s := (shaBlocks (p.length / 128) p).foldl ShaState.block sha384Init
  [s.a, s.b, s.c, s.d, s.e, s.f].foldl (fun x w => 2 ^ 64 * x + w.toNat) 0

end Sys2Proof.Machine
end

