-- ==== Sys2Proof/Machine/Package.lean ====
section
/-! DEFINITION. The package (R423 to R436): keys, regulators, boot, attestation, hand-over, power and temperature. -/

namespace Sys2Proof.Machine

/-! ### Keys (R425) -/

/-- `MKEY`[o]. -/
def mkeyAddr (o : Nat) : Nat := 0x200008008000 + 8 * o

/-- Invalidate a line without write-back: its dirty sectors are lost. -/
def Die.dropLine (d : Die) (line : Nat) : Die :=
  let l := sget Line.none d.mem.lines line
  let m := (List.range 4).foldl (fun m k => if l.dirty.getLsbD k then m.restore (4 * line + k) else m) d.mem
  { d with mem := { m with lines := sdel m.lines line } }

/-- MKEY_REGEN: BUSY, every line of the owner is dropped, and a fresh key is loaded. -/
def Die.keyRegen (d : Die) (o : Nat) : Die :=
  if bits (d.reg (mkeyAddr o)) 1 1 = 1 then d
  else
    let d := d.setReg (mkeyAddr o) 2
    let d := ((d.mem.lines.filter fun e => e.2.owner == o).map (·.1)).foldl Die.dropLine d
    { d with mem := { d.mem with gens := sset 0 d.mem.gens o (sget 0 d.mem.gens o + 1) } }

def execMkeyRegen (owner : Nat) (s : State) : Out := ok (s.modDie fun d => d.keyRegen (owner % 512))

/-- KEY_REGEN_COMPLETE: BUSY clears. -/
def execKeyRegenComplete (owner : Nat) (s : State) : Out := ok (s.modDie fun d => d.setReg (mkeyAddr (owner % 512)) 0)

/-- An owner whose key is being replaced. -/
def Die.keyBusy (d : Die) : Option Nat :=
  (d.mmio.find? fun e => decide (mkeyAddr 0 ≤ e.1 ∧ e.1 < mkeyAddr 512) && bits e.2.toNat 1 1 == 1).map fun e => (e.1 - mkeyAddr 0) / 8

/-! ### Bandwidth regulators (R427) -/

/-- MREG_WRITE: ignored as a whole where the floors of the controller would pass 1,215. -/
def Die.mregWrite (d : Die) (c o v : Nat) : Die :=
  let d' := d.setReg (mregAddr c o) (v % 2 ^ 48)
  let sum := (List.range 512).foldl (fun n x => n + bits (d'.reg (mregAddr c x)) 15 0) 0
  if 1215 < sum then d else d'

def execMregWrite (controller owner value : Nat) (s : State) : Out :=
  ok (s.modDie fun d => d.mregWrite (controller % 8) (owner % 512) value)

/-- The key of an owner's buckets at a controller. -/
def bucket (c o : Nat) : Nat := 512 * c + o

/-- REGULATOR_TOKEN_FILL: one µs of filling, to the depth BURST, in which 0 means 64. -/
def Die.fillTokens (d : Die) (c o : Nat) : Die :=
  let r := d.reg (mregAddr c o)
  let depth := if bits r 47 32 = 0 then 64 else bits r 47 32
  let t := sget (0, 0) d.tokens (bucket c o)
  let filled := (Nat.min depth (t.1 + bits r 15 0), Nat.min depth (t.2 + bits r 31 16))
  { d with tokens := sset (0, 0) d.tokens (bucket c o) filled }

def execRegulatorTokenFill (controller owner : Nat) (s : State) : Out :=
  ok (s.modDie fun d => d.fillTokens (controller % 8) (owner % 512))

/-- LPDDR_SECTOR_SERVICE: a sector takes a ceiling token, and a floor token where there is one; with the ceiling bucket empty it is delayed. -/
def Die.serveSector (d : Die) (c o : Nat) : Die :=
  let capped := bits (d.reg (mregAddr c o)) 31 16 != 0
  let t := sget (0, 0) d.tokens (bucket c o)
  if capped && t.2 == 0 then d.addReg (telemetry o 0x58) 1
  else { d with tokens := sset (0, 0) d.tokens (bucket c o) (t.1 - 1, if capped then t.2 - 1 else t.2) }

def execLpddrSectorService (controller owner : Nat) (s : State) : Out :=
  ok (s.modDie fun d => d.serveSector (controller % 8) (owner % 512))

/-- LPDDR_PATROL_SCRUB: correctable errors are corrected in place; the contents stay (R426). -/
def execLpddrPatrolScrub (_sector : Nat) (s : State) : Out := ok s

/-! ### Boot (R430 to R432) -/

/-- `BOOTST`. -/
def bootst : Nat := 0x20000A000000
def Die.bootStep (d : Die) : Nat := d.reg bootst % 16
def Die.setBoot (d : Die) (n : Nat) : Die := d.setReg bootst n

/-- A little-endian field of a table. -/
def tableField (t : List Nat) (off n : Nat) : Nat := leVal (((t.drop off).take n).map (BitVec.ofNat 8))

/-- The role map breaks R430: bit 5 stands alone, each of bits 0 to 4 is in exactly one core. -/
def rolesLegal (rs : List Nat) : Bool :=
  (rs.all fun r => decide (r < 64) && (!r.testBit 5 || r == 32)) &&
    (List.range 5).all fun b => (rs.countP fun r => r.testBit b) == 1

/-- WIDTH and the role map of a table. -/
def tableWidth (t : List Nat) : Nat := t.getD 6 0
def tableRoles (t : List Nat) : List Nat := (t.drop 8).take (tableWidth t)

/-- The boot ROM accepts a configuration table (R431); that a wrong magic number or version is a rejection too is the model's reading (log 7). -/
def tableOk (t : List Nat) : Bool :=
  t.length == 1780 && tableField t 0 4 == 0x54434D59 && tableField t 4 2 == 1 && decide (2 ≤ tableWidth t ∧ tableWidth t ≤ 8)
    && rolesLegal (tableRoles t) && (((t.drop 8).take 8).drop (tableWidth t)).all (· == 0)
    && decide (t.getD 22 0 < 3) && ((t.drop 23).take 41).all (· == 0) && Config.signatureOk t

/-- The cores of the Tollhouse column. -/
def columnCores (width : Nat) : List Nat := (List.range width).map (32 * ·)

/-- Firmware begins on strand 0 of a Tollhouse core: firmware privilege, owner 0, no job (R430, R454). -/
def State.startColumn (s : State) (core : Nat) : State :=
  let m := s.die.pkg.meas.getD 2 0
  let g := (s.coreS core).nextGen 0
  let s := s.modCoreS core fun c => { c with gens := sset 0 c.gens 0 g }
  s.setStrand (8 * core) { Strand.empty with
    pc := Config.firmwareEntry m core
    priv := .firmware
    id := ⟨.column, 0, 0, g, 8 * core, 1, 1⟩
    run := { Strand.empty.run with since := s.die.dtime, retired := s.die.clock } }

/-- Change the package's state. -/
def State.modPkg (s : State) (f : Pkg → Pkg) : State := s.modDie fun d => { d with pkg := f d.pkg }

/-- A failure at a step: `BOOTST` = 15, and the reason in the host recovery mailbox. -/
def State.bootFail (s : State) (n : Nat) : State := (s.modPkg fun p => { p with mailbox := n }).modDie fun d => d.setBoot 15

/-- Step 8: the column's cores are released. -/
def State.bootRelease (s : State) : State :=
  let t := s.die.pkg.table
  let s := s.modDie fun d => { d with width := tableWidth t, pkg := { d.pkg with roles := tableRoles t } }
  let s := s.modDie fun d => ((d.setReg 0x20000B000000 (tableField t 20 2)).setReg 0x200005010000
    (putBits (d.reg 0x200005010000) 5 4 (t.getD 22 0))).setBoot 8
  (columnCores (tableWidth t)).foldl State.startColumn s

/-- POWER_ON_BOOT: the next of the steps of the boot ROM. -/
def State.boot (s : State) : State :=
  let p := s.die.pkg
  match s.die.bootStep with
  | 0 => s.modDie fun d => d.setBoot 1
  | 1 =>
    let t := if p.table = [] then Config.flashTable else p.table
    if tableOk t then (s.modPkg fun p => { p with table := t }).modDie fun d => d.setBoot 2 else s.bootFail 2
  | 2 => s.modDie fun d => d.setBoot (if Config.trained then 3 else 14)
  | 3 =>
    let i := if p.image = [] ∧ p.table.getD 7 0 = 0 then Config.flashImage else p.image
    if i = [] then s.bootFail 4 else (s.modPkg fun p => { p with image := i }).modDie fun d => d.setBoot 4
  | 4 =>
    if Config.signatureOk p.image && decide (Config.fuseVersion ≤ Config.imageVersion p.image) then s.modDie fun d => d.setBoot 5
    else s.bootFail 5
  | 5 =>
    let measured (p : Pkg) : Pkg := { p with
      meas := [Config.romMeasure, sha384 p.table, sha384 p.image]
      version := Config.imageVersion p.image }
    (s.modPkg measured).modDie fun d => d.setBoot 6
  | 6 => (s.modPkg fun p => { p with leaves := p.leaves + 1, signed := 0 }).modDie fun d => d.setBoot 7
  | 7 => s.bootRelease
  | _ => s

def execPowerOnBoot (s : State) : Out := ok s.boot

/-- HOST_RECOVERY_SUPPLY: the waiting ROM resumes at step 2 with the host's table and image. -/
def execHostRecoverySupply (table image : List Nat) (s : State) : Out :=
  ok (if s.die.bootStep = 15 then (s.modPkg fun p => { p with table := table, image := image }).modDie fun d => d.setBoot 1 else s)

/-! ### Attestation and hand-over (R433, R434) -/

/-- `FWHO`. -/
def fwho : Nat := 0x20000A000100
def Die.phase (d : Die) : Nat := d.reg fwho % 4

/-- SPDM_REQUEST: evidence from one snapshot; without an LMS leaf left it carries the ECDSA signature alone. -/
def Pkg.answer (p : Pkg) (phase : Nat) : Pkg :=
  let spent := decide (4096 < p.leaves ∨ 32768 ≤ p.signed)
  { p with
    evidence := ⟨phase, p.meas.getD 2 0, p.version, if phase = 2 then p.incoming else 0, if phase = 2 then p.incomingVersion else 0, spent⟩
      :: p.evidence
    signed := if spent then p.signed else p.signed + 1 }

def execSpdmRequest (s : State) : Out := ok (s.modPkg fun p => p.answer s.die.phase)

/-- The cores that hold a role, and the standby cores, in ascending order. -/
def Pkg.active (p : Pkg) : List Nat := (List.range p.roles.length).filter fun i => p.roles.getD i 0 % 32 != 0
def Pkg.standby (p : Pkg) : List Nat := (List.range p.roles.length).filter fun i => p.roles.getD i 0 == 32

/-- FWHO_START: a write of `FWHO`: IMG while PHASE is 0, and START (Table 23.6); a START with too few standby cores is ignored (R434). -/
def Die.fwhoWrite (d : Die) (v : Nat) : Die :=
  if d.phase ≠ 0 ∨ (v % 4 = 1 ∧ d.pkg.standby.length < d.pkg.active.length) then d
  else d.setReg fwho (4 * bits v 49 2 + (if v % 4 = 1 then 1 else 0))

def execFwhoStart (value : Nat) (s : State) : Out := ok (s.modDie fun d => d.fwhoWrite value)

/-- HANDOVER_VERIFIED: measured, or aborted with an error record. -/
def State.handoverVerified (s : State) (good : Bool) : State :=
  if s.die.phase ≠ 1 then s
  else if good then
    let img := 4 * bits (s.die.reg fwho) 49 2
    let measured (p : Pkg) : Pkg := { p with
      incoming := Config.incomingMeasure img s.die.clock
      incomingVersion := Config.incomingVersion img s.die.clock }
    (s.modPkg measured).modDie fun d => d.setReg fwho (putBits (d.reg fwho) 1 0 2)
  else s.modDie fun d => (d.setReg fwho (putBits (d.reg fwho) 1 0 0)).errorRecord 0x7F 2048 0

def execHandoverVerified (ok' : Bool) (s : State) : Out := ok (s.handoverVerified ok')

/-- Every strand of a core ends: the core is reset. -/
def State.resetCore (s : State) (core : Nat) : State :=
  ((List.range 8).map (8 * core + ·)).foldl (fun s i => if (s.strand i).id.kind = .free then s else s.endStrand i) s

/-- HANDOVER_COMMIT: the roles pass to the standby cores, which begin with the new image; the outgoing cores become standby. It waits while an order
is active. -/
def State.handoverCommit (s : State) : State :=
  if s.die.phase ≠ 2 ∨ (partitions.any s.die.clrActive) then s
  else
    let p := s.die.pkg
    let moves := p.active.zip p.standby
    let roles := (List.range p.roles.length).map fun i =>
      match moves.find? (fun m => m.1 == i), moves.find? (fun m => m.2 == i) with
      | some _, _ => 32
      | none, some m => p.roles.getD m.1 0
      | none, none => p.roles.getD i 0
    let s := s.modPkg fun p => { p with roles := roles, meas := p.meas.set 2 p.incoming, version := p.incomingVersion, incoming := 0, incomingVersion := 0 }
    let s := s.modDie fun d => d.setReg fwho (putBits (d.reg fwho) 1 0 0)
    moves.foldl (fun s m => ((s.resetCore (32 * m.1)).resetCore (32 * m.2)).startColumn (32 * m.2)) s

def execHandoverCommit (s : State) : Out := ok s.handoverCommit

/-! ### Power and temperature (R435, R436) -/

/-- PWRCAP_WRITE: outside 300 to 600 W the write is ignored. -/
def Die.pwrcapWrite (d : Die) (v : Nat) : Die :=
  let w := v % 65536
  if 300 ≤ w ∧ w ≤ 600 then d.setReg 0x20000B000000 w else d

def execPwrcapWrite (value : Nat) (s : State) : Out := ok (s.modDie fun d => d.pwrcapWrite value)

/-- POWER_CAP_EXCEEDED: both clocks are lowered by a step; no result, cycle count or `DTIME` changes. -/
def execPowerCapExceeded (s : State) : Out := ok (s.modPkg fun p => { p with steps := p.steps + 1 })

/-- PARTITION_CAP_EXCEEDED: the issue of the partition's clusters is throttled, where it has a cap. -/
def execPartitionCapExceeded (part : Nat) (s : State) : Out :=
  ok (if s.die.reg (0x20000B000000 + 8 * part) % 65536 = 0 ∨ part = 0 ∨ 12 < part ∨ s.die.pkg.throttled.contains part then s
    else s.modPkg fun p => { p with throttled := part :: p.throttled })

/-- THERMAL_THROTTLE: at 105 °C. -/
def execThermalThrottle (s : State) : Out := ok (s.modPkg fun p => { p with steps := p.steps + 1 })

/-- THERMAL_STOP: at 115 °C an error record is written, no core issues and every RUNNING job is abandoned. -/
def State.thermalStop (s : State) : State :=
  let s := (s.modPkg fun p => { p with hot := true }).modDie fun d => d.errorRecord 0x7F 2048 0
  (s.die.jobs.filter fun e => e.2.state == .running).foldl (fun s e => s.abandon (handleOf e) 2 3) s

def execThermalStop (s : State) : Out := ok s.thermalStop

/-- THERMAL_SUPPLY_REMOVAL: at 125 °C the package loses its supply and boots again; the fuses keep the identity counter (R401, R432). -/
def State.supplyRemoval (s : State) : State :=
  let r := State.reset
  { r with
    die := { r.die with clock := s.die.clock, pkg := { r.die.pkg with leaves := s.die.pkg.leaves } }
    agenda := s.agenda }

def execThermalSupplyRemoval (s : State) : Out := ok s.supplyRemoval

end Sys2Proof.Machine
end

