-- ==== Sys2Proof/Machine/SfuQueue.lean ====
section
/-! DEFINITION. The request queue of the special-function unit (R275 to R278). A VSFU instruction in flight sends its active elements in
requests of up to 16; each result that returns lets the instruction write those elements, as a beat of its own. -/

namespace Sys2Proof.Machine

/-- The VSFU instruction that a strand has in flight: one of a class runs at a time (R219). -/
def Strand.sfuSlot (t : Strand) : Option Slot := t.ctx.queue.find? fun q => q.started && stepsOf q.word == .sfu

/-- The operands of a VSFU instruction: its sources, and its destination. -/
def Slot.sfuSources (q : Slot) : List Nat :=
  if bits q.word 10 5 = 7 then [bits q.word 20 16, bits q.word 15 11] else [bits q.word 20 16]

/-- Elements in a word of its narrow layout (R113). -/
def Slot.sfuPer (q : Slot) : Nat :=
  (bits q.word 25 21 :: q.sfuSources).foldl (fun n r => Nat.max n (sget .raw q.tags r).per) 1

/-- The context as the instruction took it at issue, from its progress on. -/
def Strand.slotCtx (t : Strand) (q : Slot) : VCtx := { t.ctx with vl := q.vl, vmc := q.vmc, vstart := q.idx, tags := q.tags }

/-- The active words that it has still to write, the lowest word with an argument fault and all above it left out where SE = 0: their requests
are not sent (R274). -/
def Strand.sfuWords (t : Strand) (q : Slot) : List Nat :=
  let c := t.slotCtx q
  let fails (n : Nat) : Bool := !c.se && (List.range q.sfuPer).any fun j => q.sfuSources.any fun r =>
    (sfuArg (c.tag r) (c.elem r (c.tag r) (q.sfuPer * n + j))).isNone
  (((List.range q.vl).filter c.active).takeWhile fun n => !fails n)

/-- The words that it has not yet sent. -/
def State.sfuLeft (s : State) (i : Nat) (q : Slot) : List Nat :=
  let sent := (s.die.sfu.filter fun r => r.strand == i && r.num == q.num).foldl (fun n r => Nat.max n r.upTo) q.idx
  ((s.strand i).sfuWords q).filter fun n => decide (sent ≤ n)

/-- The oldest instruction of a core with a request to send (R275, R276). -/
def State.sfuSender (s : State) (core : Nat) : Option (Nat × Slot) :=
  (((List.range 8).map (8 * core + ·)).filterMap fun i => ((s.strand i).sfuSlot.filter fun q => s.sfuLeft i q != []).map fun q => (i, q)).foldl
    (fun best x => match best with
      | none => some x
      | some b => if x.2.entered < b.2.entered then some x else some b) none

/-- The end of a request: past its last element, or, where nothing is left to send after it, the end of the instruction up to the element
that faults. -/
def sfuEnd (left : List Nat) (per : Nat) : Nat := ((left.take (16 / per)).getLast?.map (· + 1)).getD 0

/-- SFU_REQUEST_SEND: with one of the core's eight tokens free, the oldest instruction sends its next request (R275). -/
def State.sfuSend (s : State) (core : Nat) : State :=
  match s.sfuSender core with
  | none => s
  | some (i, q) =>
    if 8 ≤ s.die.sfu.countP fun r => r.strand / 8 == core then s
    else s.modDie fun d => { d with sfu := d.sfu ++ [⟨i, q.num, sfuEnd (s.sfuLeft i q) q.sfuPer, q.entered, false⟩] }

def execSfuRequestSend (core : Nat) (s : State) : Out := ok (s.sfuSend core)

/-- SFU_SERVICE_START: the oldest request in the cluster's queue is begun (R276, R277). -/
def State.sfuServe (s : State) (cluster : Nat) : State :=
  let q := s.die.sfu.filter fun r => r.strand / 32 == cluster && !r.served
  match q.foldl (fun (best : Option SfuReq) r => match best with
    | none => some r
    | some b => if r.age < b.age then some r else some b) none with
  | none => s
  | some r => s.modDie fun d => { d with sfu := d.sfu.map fun x => if x = r then { x with served := true } else x }

def execSfuServiceStart (cluster : Nat) (s : State) : Out := ok (s.sfuServe cluster)

/-! ### Beats -/

/-- The slots whose next beat can be processed (R220): started, nothing older holds it back, and of a VSFU instruction no request is left to
send or to return. -/
def State.beatSlots (s : State) (i : Nat) : List Slot :=
  let c := (s.strand i).ctx
  c.queue.filter fun q => q.started && c.chained q (c.beatEnd q) &&
    !(s.die.sfu.any fun r => r.strand == i && r.num == q.num) && (stepsOf q.word != .sfu || s.sfuLeft i q == [])

/-- VECTOR_BEAT: one of the instructions whose next beat can be processed, by a free value (log 9), processes it in the next step
(R220). -/
def execVectorBeat (strand : Nat) (s : State) : Out :=
  ok (let l := s.beatSlots strand
    match l[Config.nextBeat s.die.clock % l.length]? with
    | some q => s.leave (.beat strand q.num ((s.strand strand).ctx.beatEnd q))
    | none => s)

end Sys2Proof.Machine
end

