-- ==== Sys2Proof/Machine/MemEvents.lean ====
section
/-! DEFINITION. Events of the memories, of translation, and of a strand's accesses and failures. -/

namespace Sys2Proof.Machine

/-! ### Banks (R227, R280, R302, R307, R310) -/

/-- A request at a memory: a read where no data is given, else a write. A refusal or an error is a record (R89). -/
def Die.bankRequest (d : Die) (o pa : Nat) (data : List Nat) : Die :=
  match (if data = [] then (d.physRead o pa 8).map (·.2) else d.physWrite o pa ((data.take (128 - pa % 128)).map (BitVec.ofNat 8))) with
  | .error e => d.errorRecord e 2048 pa
  | .ok d => d

/-- CLM_BANK_ACCESS. -/
def execClmBankAccess (core off owner : Nat) (data : List Nat) (s : State) : Out :=
  ok (s.modDie fun d => d.bankRequest (owner % 512) (0x120000000000 + core % 256 * 0x40000 + off % 0x40000) data)

/-- CSP_BANK_ACCESS. -/
def execCspBankAccess (cluster off owner : Nat) (data : List Nat) (s : State) : Out :=
  ok (s.modDie fun d => d.bankRequest (owner % 512) (0x110000000000 + cluster % 64 * 0x200000 + off % 0x200000) data)

/-- CSM_ACCESS: an offset beyond the ways in use is a hole (R307). -/
def execCsmAccess (off owner : Nat) (data : List Nat) (s : State) : Out :=
  ok (s.modDie fun d => d.bankRequest (owner % 512) (0x100000000000 + off % 0x8000000) data)

/-- A sector comes into the L2 for an owner, or becomes dirty under it (R302, R303). -/
def Die.l2Request (d : Die) (o pa : Nat) (write : Bool) : Die :=
  if d.target pa ≠ .lpddr then d
  else if !d.admits (l2Bank pa) o write then d.errorRecord 0x12 2048 pa
  else match d.l2Access o pa true write with
    | .error e => d.errorRecord e 2048 pa
    | .ok d => if write then { d with mem := d.mem.rekeyAll o (pa / 128 * 8) 8 } else d

/-- L2_BANK_ACCESS. -/
def execL2BankAccess (pa owner : Nat) (write : Bool) (s : State) : Out := ok (s.modDie fun d => d.l2Request (owner % 512) pa write)

/-- L2_FILL_RETURN. -/
def execL2FillReturn (pa owner : Nat) (s : State) : Out := ok (s.modDie fun d => d.l2Request (owner % 512) pa false)

/-- NEAR_BANK_OPERATION: an atomic or update of R71 on its 4-byte word in LPDDR 6 or CSM, indivisibly (R310). -/
def Die.nearBank (d : Die) (o pa op operand : Nat) : Die :=
  let pa := pa / 4 * 4
  match d.target pa with
  | .lpddr | .csm _ => match d.amoAt o pa 4 (Amo.ofVector op) (operand % 2 ^ 32) 0 with
    | .error e => d.errorRecord e 2048 pa
    | .ok (_, d) => d
  | _ => d

def execNearBankOperation (pa owner op operand : Nat) (s : State) : Out := ok (s.modDie fun d => d.nearBank (owner % 512) pa op operand)

/-- OWNER_SCRUB: a granule whose clean bit is 0 is zeroed (R309). -/
def execOwnerScrub (granule : Nat) (s : State) : Out := ok (s.modDie fun d => { d with mem := d.mem.cleanGranule granule })

/-! ### CSM size (R308) -/

/-- `L2CFG`. -/
def l2cfg : Nat := 0x200002000000

/-- Growth: the lines of the ways from `ways` up are written back and invalidated; an error-held sector, which is never written back, is lost
with its way (R312; log 77). -/
def Die.shrinkCache (d : Die) (ways : Nat) : Die :=
  (d.mem.lines.filter fun e => decide (ways ≤ e.2.way)).foldl (fun d e =>
    let d := d.evict e.1
    { d with mem := (List.range 4).foldl (fun m k => m.restore (4 * e.1 + k)) { d.mem with lines := sdel d.mem.lines e.1 } }) d

/-- CSM offsets from `lo` to `hi` lose their data and their tags. -/
def Mem.clearCsm (m : Mem) (lo hi : Nat) : Mem :=
  let a := 0x100000000000 + lo
  let b := 0x100000000000 + hi
  let out (unit : Nat) (k : Nat) : Bool := !decide (a ≤ k * unit ∧ k * unit < b)
  { m with
    bytes := sfilter (out 1) m.bytes
    otags := sfilter (out 4096) m.otags
    unclean := sfilter (out 4096) m.unclean
    errs := m.errs.filter fun e => !decide (errSector a ≤ e.1 ∧ e.1 < errSector b) }

/-- L2CFG_CSMW_WRITE: 9 to 15 and any write while CHG is 1 are ignored; a change sets CHG and moves the ways. -/
def Die.csmWrite (d : Die) (v : Nat) : Die :=
  let w := v % 16
  let old := d.csmWays
  if 8 < w ∨ bits (d.reg l2cfg) 8 8 = 1 ∨ w = old then d
  else
    let d := if old < w then d.shrinkCache (12 - w) else d
    let d := { d with mem := d.mem.clearCsm (0x1000000 * Nat.min w old) (0x1000000 * Nat.max w old) }
    d.setReg l2cfg (256 + w)

def execL2cfgCsmwWrite (value : Nat) (s : State) : Out := ok (s.modDie fun d => d.csmWrite value)

/-- CSM_RESIZE_COMPLETE. -/
def execCsmResizeComplete (s : State) : Out := ok (s.modDie fun d => d.setReg l2cfg (putBits (d.reg l2cfg) 8 8 0))

/-! ### Errors in the L2 (R312, R313) -/

/-- `L2ERR`[b]. -/
def l2errAddr (b : Nat) : Nat := 0x200002001000 + 8 * b

/-- Record the first uncorrectable error of a bank; every one but a clean sector's is an error record too. -/
def Die.l2Record (d : Die) (b kind held owner sect : Nat) : Die :=
  let a := l2errAddr b
  let d := if kind = 0 then d else d.errorRecord 0x70 2048 (128 * sect)
  if bits (d.reg a) 63 63 = 1 then d
  else d.setReg a (2 ^ 63 + held * 2 ^ 62 + kind * 2 ^ 60 + owner * 2 ^ 51 + sect % 2 ^ 41 * 128 + d.reg a % 128)

/-- An uncorrectable error that the patrol of a bank finds: at an address of the L2's range in its sector, at one of the CSM in its block, and at
any other in both tags of the set pa[7:0]. -/
def Die.l2Uncorrectable (d : Die) (b pa : Nat) : Die :=
  match d.target pa with
  | .lpddr =>
    let line := pa / 512
    let k := pa / 128 % 4
    let bit : BitVec 4 := BitVec.ofNat 4 (2 ^ k)
    let l := sget Line.none d.mem.lines line
    let put (l : Line) : Die := { d with mem := { d.mem with lines := sset Line.none d.mem.lines line (if l.valid = 0 then Line.none else l) } }
    if !l.valid.getLsbD k then d
    else if l.dirty.getLsbD k then (put { l with held := l.held ||| bit }).l2Record (l2Bank pa) 1 1 l.owner (pa / 128)
    else (put { l with valid := l.valid &&& ~~~bit }).l2Record (l2Bank pa) 0 0 l.owner (pa / 128)
  | .csm off =>
    ({ d with mem := { d.mem with errs := sset false d.mem.errs (errSector pa) true } }).l2Record (off / 512 % 128) 2 1
      (sget 0 d.mem.otags (pa / 4096) - 1) (pa / 128)
  | _ => ({ d with mem := { d.mem with errs := sset false d.mem.errs (errSet (b % 128) (pa % 256)) true } }).l2Record (b % 128) 3 1 0 (pa % 256)

/-- A correctable error is corrected in place and counted in CORR of the bank, which saturates (Table 16.4). -/
def Die.l2Correctable (d : Die) (b : Nat) : Die :=
  let a := l2errAddr (b % 128)
  d.setReg a (putBits (d.reg a) 6 0 (Nat.min 127 (bits (d.reg a) 6 0 + 1)))

/-- L2_PATROL_SCRUB: the bank reads one line, and corrects and counts, or handles, the error it finds there, if any. -/
def execL2PatrolScrub (bank pa found : Nat) (s : State) : Out :=
  ok (match found with
    | 0 => s
    | 1 => s.modDie fun d => d.l2Correctable bank
    | _ => s.modDie fun d => d.l2Uncorrectable bank pa)

/-- L2ERR_DISCARD: V clears; the held sector is discarded, so LPDDR 6 or zero shows, or the held set released. -/
def Die.l2Discard (d : Die) (b : Nat) : Die :=
  let a := l2errAddr b
  let x := d.reg a
  let sect := bits x 47 7
  if bits x 63 63 = 0 then d
  else
    let d := d.setReg a (x % 128)
    match bits x 61 60 with
    | 1 =>
      let bit : BitVec 4 := BitVec.ofNat 4 (2 ^ (sect % 4))
      let l := sget Line.none d.mem.lines (sect / 4)
      if l.held.getLsbD (sect % 4) then
        let m := d.mem.restore sect
        let l := { l with valid := l.valid &&& ~~~bit, dirty := l.dirty &&& ~~~bit, held := l.held &&& ~~~bit }
        { d with mem := { m with lines := sset Line.none m.lines (sect / 4) (if l.valid = 0 then Line.none else l) } }
      else d
    | 2 =>
      let m := d.mem
      if !sget false m.errs (errSector (128 * sect)) then d
      else { d with mem := { m with
        bytes := ssetAll 0 m.bytes (128 * sect) (List.replicate 128 0)
        errs := sset false m.errs (errSector (128 * sect)) false } }
    | 3 => { d with mem := { d.mem with errs := sset false d.mem.errs (errSet b (sect % 256)) false } }
    | _ => d

def execL2errDiscard (bank : Nat) (s : State) : Out := ok (s.modDie fun d => d.l2Discard (bank % 128))

/-! ### Translation (R337, R339, R344, R352, R355) -/

/-- XDIR_WRITE: DIR is kept while EN is 1; clearing EN drops every translation of the owner. -/
def Die.xdirWrite (d : Die) (o v : Nat) : Die :=
  let a := xdirAddr o
  let old := d.reg a
  let dir := if old % 2 = 1 then bits old 47 19 else bits v 47 19
  if old % 2 = 1 ∧ bits v 47 19 ≠ bits old 47 19 then d
  else
    let d' := d.setReg a (dir * 2 ^ 19 + v % 2)
    if old % 2 = 1 ∧ v % 2 = 0 then d'.dropOwner o else d'

/-- Descriptors drop the translations of an owner too; a write that clears EN completes when nothing translated for the owner is outstanding.
`source` is the strand that made it, 4096 for none. -/
def State.xdirWrite (s : State) (source o v : Nat) : State :=
  let on := s.die.reg (xdirAddr o) % 2 == 1
  let s := s.modDie fun d => d.xdirWrite o v
  if s.die.reg (xdirAddr o) % 2 = 1 then s
  else
    let f (c : Copy) : Bool := c.owner == o
    let s := { s with me := s.me.dropHeld f, others := s.others.map fun e => (e.1, e.2.dropHeld f) }
    if on then s.modDie fun d => { d with posted := d.posted ++ [⟨source, o, false, Copy.window, 0, d.clock, none⟩] } else s

def execXdirWrite (owner value : Nat) (s : State) : Out := ok (s.xdirWrite 4096 (owner % 512) value)

/-- A write of `XHLOG` (R355, R356): clearing EN writes out the owner's hotness entries. -/
def Die.xhlogWrite (d : Die) (o v : Nat) : Die :=
  let d := if d.reg (xhlogAddr o) % 2 = 1 ∧ v % 2 = 0 then d.hotFlush o else d
  d.ringControlWrite (xhlogAddr o) (xhwpAddr o) v

/-- XHLOG_DISABLE. -/
def execXhlogDisable (owner : Nat) (s : State) : Out :=
  ok (s.modDie fun d => d.xhlogWrite (owner % 512) (putBits (d.reg (xhlogAddr (owner % 512))) 0 0 0))

/-- A table that a walk has reached is kept, unless an invalidation has reached the walk: any for a table-cache entry, one of every page for a
context-cache entry (R346). -/
def Die.keepWalked (d : Die) (k : Nat) (w : Walk) (t : TableCopy) : Die :=
  if w.marks.any fun i => t.level != 4 || i.all then d else d.keepTable k t

/-- A walk after its read of entry `p` at `e`: at its leaf the translation is kept, but not where an invalidation that covers it has reached
the walk (R346); at a fault it ends, and the access that needs it faults. -/
def Die.walkOn (d : Die) (core : Nat) (w : Walk) (e p : Nat) : Option Walk × Die :=
  match readEntry w.owner w.asid w.va w.level e p with
  | .fault | .migrating _ => (none, d)
  | .leaf c => (none, if w.marks.any fun i => i.hits c then d else d.keepCopy core c)
  | .table t =>
    if w.level = 0 then (none, d)
    else
      let l := w.level - 1
      (some { w with level := l, table := t },
        d.keepWalked (walkerOf core) w ⟨w.owner, w.asid, l, w.va / 2 ^ (9 * l + 21), t⟩)

/-- The walks of a level go on by the reads that have returned; the others stand. -/
def Die.walksOn (d : Die) (core lv : Nat) (rs : List (Nat × Except Nat Nat)) : List Walk → List Walk × Die
  | [] => ([], d)
  | w :: t =>
    let e := entryAt w.asid w.va w.level w.table
    let (r, d) := if w.level ≠ lv then (some w, d)
      else match rs.find? fun r => r.1 == e with
        | some (_, .ok p) => d.walkOn core w e p
        | _ => (none, d)
    let (ws, d) := d.walksOn core lv rs t
    (r.toList ++ ws, d)

/-- The highest level that a read of these walks is at. -/
def topLevel (ws : List Walk) : Nat := ws.foldl (fun n w => Nat.max n w.level) 0

/-- The reads of a strand's walks at their highest level, one of each distinct entry, and what they give (R339, R344, R354). -/
def State.walkStep (s : State) (i : Nat) (ws : List Walk) : State :=
  let lv := topLevel ws
  let o := ((ws.head?).map (·.owner)).getD 0
  let es := ((ws.filter fun w => w.level == lv).map fun w => entryAt w.asid w.va lv w.table).eraseDups
  let (rs, d) := s.die.readEntries o es
  let (ws, d) := d.walksOn (i / 8) lv rs ws
  s.withDie { d with walks := sset [] d.walks i ws }

/-- A walk for a VA of a strand's context, from the deepest table cached (R342). -/
def State.newWalk (s : State) (i va : Nat) : Walk :=
  let t := s.strand i
  let at_ := s.die.walkStart (walkerOf (i / 8)) t.id.owner t.xasid.toNat va
  ⟨t.id.owner, t.xasid.toNat, va, at_.1, at_.2, []⟩

/-- PAGE_WALK: walks begin together for VAs of the strand's context, with their first reads. Walks that it has in progress go on first (R354). -/
def State.pageWalk (s : State) (i : Nat) (vas : List Nat) : State :=
  let t := s.strand i
  let vas := vas.filter fun va => decide (va / 2 ^ 54 = 0) && !inWindow va
  if s.die.reg (xdirAddr t.id.owner) % 2 = 0 ∨ vas = [] ∨ sget [] s.die.walks i ≠ [] then s
  else s.walkStep i (vas.map (s.newWalk i))

def execPageWalk (strand : Nat) (vas : List Nat) (s : State) : Out := ok (s.pageWalk strand vas)

/-- WALKER_READ_RETURN: the strand's walks go on to their next level. -/
def State.walkReturn (s : State) (i : Nat) : State :=
  match sget [] s.die.walks i with
  | [] => s
  | ws => s.walkStep i ws

def execWalkerReadReturn (strand : Nat) (s : State) : Out := ok (s.walkReturn strand)

/-- MG_WAIT_POLL: the waiting access reads the leaf again, which is the strand's next issue (R352). -/
def execMgWaitPoll (strand : Nat) (s : State) : Out :=
  ok (if (s.strand strand).run.wait = .migrating then s.leave (.issue strand) else s)

/-- MG_WAIT_TIMEOUT: 100 µs have passed; the next issue faults with code 0x13 (R352). -/
def execMgWaitTimeout (strand : Nat) (s : State) : Out :=
  ok (let t := s.strand strand
    if t.run.wait = .migrating ∧ t.run.since + 100000 ≤ s.die.dtime then s.leave (.issue strand) else s)

/-! ### Traps and failures of a strand -/

/-- The strand holds a context that can take a trap. -/
def Strand.alive (t : Strand) : Bool := t.id.kind != .free && t.run.wait != .stopped && t.run.wait != .exit

/-- SYNC_TRAP_ENTRY: the strand enters its handler (R199). -/
def execSyncTrapEntry (strand code tval telem : Nat) (s : State) : Out :=
  ok (if (s.strand strand).alive then
    s.trapStrand strand { code := code % 256, tval := BitVec.ofNat 64 tval, telem := telem } else s)

/-- ASYNC_TRAP_ENTRY: a held cause is taken at the boundary with HOLD = 0 (R200). -/
def execAsyncTrapEntry (strand : Nat) (s : State) : Out := ok (if (s.strand strand).alive then s.asyncTrap strand else s)

/-- POSTED_STORE_ERROR (R89). -/
def execPostedStoreError (strand code addr : Nat) (s : State) : Out :=
  ok (if (s.strand strand).alive then s.postError strand (code % 256) addr else s)

/-- The waits that do not count toward the watchdog, and a strand that holds none (R230). -/
def Strand.watched (t : Strand) : Bool :=
  t.alive && t.run.wait != .park && t.run.wait != .jwait && t.run.wait != .brnext

/-- An asynchronous cause 0x7F is due (R230). -/
def Strand.watchdogDue (clock : Nat) (t : Strand) : Strand :=
  if t.watched && !t.run.watchdog then
    { t with run := { t.run with causes := t.run.causes ++ [⟨0x7F, 0⟩], watchdog := true, watchdogAt := clock } }
  else t

/-- WATCHDOG_EXPIRY. -/
def execWatchdogExpiry (strand : Nat) (s : State) : Out := ok (s.modStrand strand (Strand.watchdogDue s.die.clock))

/-- WATCHDOG_RESET: no boundary within the second interval: an error record, and the job is abandoned (R230). -/
def execWatchdogReset (strand : Nat) (s : State) : Out :=
  ok (if (s.strand strand).watched && (s.strand strand).run.watchdog then s.strandFailed strand 0x7F else s)

/-- Every vector register, tile and mask of a context reads zero (R229). -/
def VCtx.zeroed (c : VCtx) : VCtx := { c with v := [], tiles := [], dirty := 0, masks := [], mf := 0, mfc := [] }

/-- REGISTER_FILE_ERROR: an error record; the job is abandoned, or the strand reset where a scalar register failed (R229, R381). -/
def State.registerError (s : State) (i : Nat) (scalar : Bool) (reg word : Nat) : State :=
  let t := s.strand i
  if !t.alive then s
  else
    let s := s.modDie fun d => d.errorRecord 0x70 i ((if scalar then 2 ^ 32 else 0) + 65536 * reg + word)
    if scalar then s.failStrand i 2
    else (s.modStrand i fun t => { t with ctx := t.ctx.zeroed }).abandon t.id.job.toNat 2 2

def execRegisterFileError (strand : Nat) (scalarReg : Bool) (reg word : Nat) (s : State) : Out :=
  ok (s.registerError strand scalarReg reg word)

/-! ### Data that returns -/

/-- The LD at the PC of the issuing strand, where it can issue: its destination, size code and VA. -/
def State.loadAtPc (s : State) : Option (Fin 32 × Fin 8 × Nat × State) :=
  if s.me.run.wait ≠ .ready then none
  else match s.fetch with
    | .word w t => if t.me.ctx.busy && t.me.ctx.held w then none
      else match decodeWord w with
        | .ok (.ld d a z i) => some (d, z, (t.reg a + sext13 i).toNat, t)
        | _ => none
    | _ => none

/-- LOAD_DATA_RETURN: the data of the strand's LD of `size` bytes at `va` returns; the LD executes, or faults with code 0x70 and leaves rd unchanged
(R88, R6). A load that is not the strand's next instruction has nothing outstanding. -/
def execLoadDataReturn (strand reg size va : Nat) (uncorrectable : Bool) (s : State) : Out :=
  ok (if !(s.strand strand).alive then s
    else s.at strand fun s => match s.loadAtPc with
      | some (d, z, x, t) =>
        if d.val ≠ reg ∨ (ldSize z.val).1 ≠ size ∨ x ≠ va then s
        else
          let t := t.modMe fun m => { m with run := { m.run with entering := false, lastIssue := s.die.clock } }
          if uncorrectable then (t.modDie fun d => d.errorRecord 0x70 s.meId va).trap 0x70 (BitVec.ofNat 64 va)
          else t.load d x size (ldSize z.val).2
      | none => s)

/-- Mark an uncorrectable error at a physical address. -/
def Mem.markError (m : Mem) (t : Target) (pa : Nat) : Mem :=
  match t with
  | .lpddr | .csm _ => { m with errs := sset false m.errs (errSector pa) true }
  | .csp _ _ | .clm _ _ => { m with errs := sset false m.errs (pa / 8) true }
  | _ => m

/-- VECTOR_LOAD_DATA_RETURN: data returns for the elements up to `elem` of the load in the strand's vector queue, or at its PC, which goes on in
the next step; with a physical address given, that word has an uncorrectable error and the load traps at its lowest failing element
(R175). -/
def execVectorLoadDataReturn (strand _elem addr : Nat) (s : State) : Out :=
  ok (if (s.strand strand).alive then
    (if addr = 0 then s else s.modDie fun d => { d with mem := d.mem.markError (d.target addr) addr }).leave
      (if (s.strand strand).ctx.queue = [] then .issue strand else .vector strand) else s)

/-! ### Results of the special-function unit (R275, R277, R296) -/

/-- An uncorrectable error inside the unit (R296): with SE = 0 the instruction traps, and its other requests are cancelled; with SE = 1 an
error record is written and the job is abandoned. -/
def State.sfuError (s : State) (r : SfuReq) : State :=
  let t := s.strand r.strand
  let s := s.modDie fun d => { d with sfu := d.sfu.filter fun x => !(x.strand == r.strand && x.num == r.num) }
  match t.ctx.slot r.num with
  | none => s
  | some q =>
    if q.vmc.getLsbD 6 then (s.modDie fun d => d.errorRecord 0x70 r.strand 0).abandon t.id.job.toNat 2 2
    else (s.modStrand r.strand fun t => { t with ctx := t.ctx.setSlot { q with error := true } }).leave (.beat r.strand r.num q.vl)

/-- SFU_RESULT_RETURN: the first served request returns; its words are written in the next step and its token is free (R275, R277). Results of
one instruction come back in the order of its requests. -/
def State.sfuReturn (s : State) (cluster : Nat) (error : Bool) : State :=
  match s.die.sfu.find? fun r => r.strand / 32 == cluster && r.served &&
      (s.die.sfu.find? fun x => x.strand == r.strand) == some r with
  | none => s
  | some r =>
    if error then s.sfuError r else (s.modDie fun d => { d with sfu := d.sfu.erase r }).leave (.beat r.strand r.num r.upTo)

def execSfuResultReturn (cluster : Nat × Bool) (s : State) : Out := ok (s.sfuReturn cluster.1 cluster.2)

end Sys2Proof.Machine
end

