-- ==== Sys2Proof/Machine/Fabric.lean ====
section
/-! DEFINITION. The host and twin links (R437 to R451): completions, ATS, submission queues, function-level reset, migration. -/

namespace Sys2Proof.Machine

/-! ### Completions (R108, R445, R447) -/

/-- Forget the request of a strand. -/
def Strand.noReq (t : Strand) : Strand := { t with run := { t.run with hostReq := none } }

/-- The strand may go on. -/
def Strand.wake (t : Strand) : Strand := { t with run := { t.run with wait := .ready } }

/-- A request of a strand failed with a code (R108): a cancelled one is discarded; data for an instruction that executes again carries the
code. -/
def State.reqFault (s : State) (i code : Nat) : State :=
  match (s.strand i).run.hostReq with
  | none => s
  | some q =>
    let s := s.modStrand i Strand.noReq
    if q.cancelled then s
    else if q.reg = 33 then
      s.modStrand i fun t => { t.wake with run := { t.wake.run with linkData := t.run.linkData ++ [⟨q.va, code, 0⟩] } }
    else s.trapStrand i { code := code, tval := q.va }

/-- A request of a strand completed with data. -/
def State.reqDone (s : State) (i data : Nat) : State :=
  match (s.strand i).run.hostReq with
  | none => s
  | some q =>
    if q.phase ≠ .sent then s
    else
      let s := s.modStrand i Strand.noReq
      if q.cancelled then s
      else if q.reg = 33 then
        s.modStrand i fun t =>
          { t.wake with run := { t.wake.run with linkData := t.run.linkData ++ [⟨q.va, 0, data % 2 ^ (8 * q.size)⟩] } }
      else if q.reg = 32 then s.at i State.retire
      else s.at i fun s => s.writeRetire (Fin.ofNat 32 q.reg) (extend q.size q.signed (data % 2 ^ (8 * q.size)))

/-- The code of a failed completion: 0x2C (R445); a message that the twin refuses, 0x12 (R447). -/
def HostReq.failure (q : HostReq) : Nat := match q.op with | .message => 0x12 | _ => 0x2C

/-- The completion of a request whose strand was abandoned is discarded (R108). -/
def State.orphaned (s : State) (i : Nat) : Option State :=
  (s.die.orphans.find? fun x => x.strand == i).map fun x => s.modDie fun d => { d with orphans := d.orphans.erase x }

/-- HOST_REQUEST_COMPLETION. -/
def State.reqCompletion (s : State) (i : Nat) (good : Bool) (data : Nat) : State :=
  match s.orphaned i with
  | some s => s
  | none => match (s.strand i).run.hostReq with
  | none => s
  | some q => if q.phase ≠ .sent then s else if good then s.reqDone i data else s.reqFault i q.failure

def execHostRequestCompletion (strand : Nat) (ok' : Bool) (data : Nat) (s : State) : Out := ok (s.reqCompletion strand ok' data)

/-- HOST_COMPLETION_TIMEOUT. -/
def execHostCompletionTimeout (strand : Nat) (s : State) : Out :=
  ok (match s.orphaned strand with
    | some s => s
    | none => match (s.strand strand).run.hostReq with
      | some q => if q.phase = .sent then s.reqFault strand 0x2C else s
      | none => s)

/-! ### Address translation services (R439) -/

/-- A posted write is discarded: an error record, which reaches a strand asynchronously (R89, R448). -/
def State.postedFault (s : State) (p : Posted) (code : Nat) : State :=
  let s := s.modDie fun d => { d with posted := d.posted.erase p }
  if p.source < 2048 then s.postError p.source code p.va else s.modDie fun d => d.errorRecord code 2048 p.va

/-- A posted write that waits for its translation waits on, for a page or for the translation again, from this time. -/
def Die.holdOn (d : Die) (p : Posted) (h : Held) (paging : Bool) : Die :=
  { d with posted := d.posted.map fun x => if x = p then { p with held := some { h with paging := paging, since := d.dtime } } else x }

/-- The answer to the translation of a posted write: allowed, it is sent. -/
def State.heldResponse (s : State) (p : Posted) (h : Held) (found allowed : Bool) : State :=
  if h.paging then s
  else if !found then
    if bits (s.die.hvf p.owner) 23 23 = 1 then s.modDie fun d => d.holdOn p h true else s.postedFault p 0x10
  else if !allowed then s.postedFault p 0x11
  else s.modDie fun d => { d with posted := d.posted.erase p }.send h.msg

/-- A wait of a posted write has lasted its time: 64 µs for a translation, 1 ms for a page. -/
def Held.over (h : Held) (paging : Bool) (now : Nat) : Bool :=
  h.paging == paging && decide (h.since + (if paging then 1000000 else 64000) ≤ now)

/-- The end of such a wait. -/
def State.heldTimeout (s : State) (p : Posted) (h : Held) (paging : Bool) : State :=
  if h.over paging s.die.dtime then s.postedFault p 0x10 else s

/-- The oldest posted write of a source that waits for its translation, and what it waits for. -/
def Die.heldMsg (d : Die) (source : Nat) : Option (Posted × Held) := (d.heldBy source).bind fun p => p.held.map fun h => (p, h)

/-- The next posted write that performs or times out. -/
def State.settlePosted (s : State) : Option State :=
  s.die.posted.findSome? fun p => match p.held with
    | some h => if h.over h.paging s.die.dtime then some (s.postedFault p 0x10) else none
    | none => if s.performs p then some (s.modDie fun d => { d with posted := d.posted.erase p }) else none

/-- Set the phase of a strand's request, at this time. -/
def State.setPhase (s : State) (i : Nat) (p : LinkPhase) : State :=
  s.modStrand i fun t => { t with run := { t.run with since := s.die.dtime, hostReq := t.run.hostReq.map fun q => { q with phase := p } } }

/-- The phase of a strand's request. -/
def State.inPhase (s : State) (i : Nat) (p : LinkPhase) : Bool := (s.strand i).run.hostReq.any fun q => q.phase == p

/-- ATS_TRANSLATION_RESPONSE: allowed, the translated request is sent; denied, code 0x11; no page, a Page Request or code 0x10. Posted writes of a
strand, or of engine `i` − 2048, come first: they left before the request that waits. -/
def State.atsResponse (s : State) (i : Nat) (found allowed : Bool) : State :=
  match s.die.heldMsg i with
  | some x => s.heldResponse x.1 x.2 found allowed
  | none =>
  if !s.inPhase i .translating then s
  else if !found then
    if bits (s.die.hvf (s.strand i).id.owner) 23 23 = 1 then s.setPhase i .paging else s.reqFault i 0x10
  else if !allowed then s.reqFault i 0x11
  else match (s.strand i).run.hostReq with
    | some q => (s.modDie fun d => d.sendReq (s.strand i).id.owner q).setPhase i .sent
    | none => s

def execAtsTranslationResponse (strand : Nat) (found allowed : Bool) (s : State) : Out := ok (s.atsResponse strand found allowed)

/-- ATS_TIMEOUT: 64 µs. -/
def execAtsTimeout (strand : Nat) (s : State) : Out :=
  ok (match s.die.heldMsg strand with
    | some x => s.heldTimeout x.1 x.2 false
    | none => if s.inPhase strand .translating && decide ((s.strand strand).run.since + 64000 ≤ s.die.dtime) then s.reqFault strand 0x10 else s)

/-- PRI_RESPONSE: on Success the access translates again. -/
def execPriResponse (strand : Nat) (success : Bool) (s : State) : Out :=
  ok (match s.die.heldMsg strand with
    | some x => if !x.2.paging then s else if success then s.modDie fun d => d.holdOn x.1 x.2 false else s.postedFault x.1 0x10
    | none => if !s.inPhase strand .paging then s else if success then s.setPhase strand .translating else s.reqFault strand 0x10)

/-- PRI_TIMEOUT: 1 ms. -/
def execPriTimeout (strand : Nat) (s : State) : Out :=
  ok (match s.die.heldMsg strand with
    | some x => s.heldTimeout x.1 x.2 true
    | none => if s.inPhase strand .paging && decide ((s.strand strand).run.since + 1000000 ≤ s.die.dtime) then s.reqFault strand 0x10 else s)

/-- Answer the other side. -/
def Die.reply (d : Die) (twin : Bool) (o : Nat) (good : Bool) (addr size a : Nat) : Die := d.send ⟨twin, o, .reply good, addr, size, a, 0, 0, false⟩

/-- ATS_INVALIDATION: a translated request is sent in the step of its translation, so the acknowledgement follows every one (R439). -/
def execAtsInvalidation (vf : Nat) (s : State) : Out := ok (s.modDie fun d => d.reply false (0x100 + vf % 256) true 0 0 0)

/-- PTM_REQUEST: answered with `DTIME` (R449). -/
def execPtmRequest (s : State) : Out := ok (s.modDie fun d => d.reply false 0 true 0 8 d.dtime)

/-! ### Submission queues (R440 to R443) -/

/-- Queue q of VF v. -/
def Die.sq (d : Die) (v q : Nat) : Sq := sget Sq.reset d.sqs (16 * v + q)
def Die.setSq (d : Die) (v q : Nat) (x : Sq) : Die := { d with sqs := sset Sq.reset d.sqs (16 * v + q) x }

/-- Queue sizes. -/
def Sq.size (x : Sq) : Nat := 2 ^ (6 + x.sqLog)
def Sq.cqSize (x : Sq) : Nat := 2 ^ (6 + x.cqLog)

/-- A write of `SQCTL`. Size codes above 6 are ignored. -/
def Sq.ctlWrite (x : Sq) (v : Nat) : Sq :=
  let en := bits v 10 10 == 1
  let x := { x with asid := bits v 63 48, pasid := bits v 47 28, pv := bits v 27 27 == 1 }
  let x := if x.en then x
    else { x with
      sqLog := if bits v 3 0 ≤ 6 then bits v 3 0 else x.sqLog
      cqLog := if bits v 7 4 ≤ 6 then bits v 7 4 else x.cqLog }
  let x := if !x.en && en then
      { x with en := true, stop := false, stopped := false, head := 0, tail := 0, cqHead := 0, cqTail := 0, used := 0, phase := true }
    else { x with en := en }
  if bits v 11 11 = 1 ∧ !x.stopped then { x with stop := true } else x

/-- SQ_ENABLE: a write of `SQCTL`. -/
def execSqEnable (vf queue value : Nat) (s : State) : Out :=
  ok (s.modDie fun d => d.setSq (vf % 256) (queue % 16) ((d.sq (vf % 256) (queue % 16)).ctlWrite value))

/-- A write of `SQDB`: the notify. -/
def Sq.doorbell (x : Sq) (v : Nat) : Sq :=
  if x.stop then x
  else
    let h := bits v 47 32 % x.cqSize
    { x with
      tail := bits v 15 0 % x.size
      used := x.used - (h + x.cqSize - x.cqHead) % x.cqSize
      cqHead := h }

/-- SQ_DOORBELL: ignored while the VF is being exported (R451). -/
def Die.sqDoorbell (d : Die) (v q x : Nat) : Die := if d.frozen v 1 then d else d.setSq v q ((d.sq v q).doorbell x)

def execSqDoorbell (vf queue value : Nat) (s : State) : Out := ok (s.modDie fun d => d.sqDoorbell (vf % 256) (queue % 16) value)

/-- The value of `SQCTL` and of `SQDB`. -/
def Sq.ctl (x : Sq) : Nat :=
  x.asid * 2 ^ 48 + x.pasid * 2 ^ 28 + (if x.pv then 2 ^ 27 else 0) + (if x.stopped then 2 ^ 12 else 0)
    + (if x.en then 2 ^ 10 else 0) + x.cqLog * 16 + x.sqLog
def Sq.db (x : Sq) : Nat := x.cqHead * 2 ^ 32 + x.head * 2 ^ 16 + x.tail

/-- Write a completion entry (R441, R442, Table 24.4). -/
def Die.sqEntry (d : Die) (v q slot handle status word time : Nat) : Die :=
  let x := d.sq v q
  let e := time % 2 ^ 64 * 2 ^ 128 + (if x.phase then 2 ^ 127 else 0) + slot * 2 ^ 92 + q * 2 ^ 72 + status * 2 ^ 64 + word * 2 ^ 32 + handle
  let next := (x.cqTail + 1) % x.cqSize
  (d.send ⟨false, 0x100 + v, .write, x.cqBase + 32 * x.cqTail, 32, e, 0, if x.pv then x.pasid + 1 else 0, false⟩).setSq v q
    { x with cqTail := next, used := x.used + 1, phase := if next = 0 then !x.phase else x.phase }

/-- The VF and the queue of a completion entry that is due. -/
def Due.queue : Due → Option (Nat × Nat)
  | .report v q _ _ _ _ _ => some (v, q)
  | _ => none

/-- Jobs of a queue that have not reported. -/
def Die.unreported (d : Die) (v q : Nat) : Nat :=
  (d.jobs.countP fun e => e.2.live && e.2.vf == v && (e.2.queue.any fun x => x.1 == q))
    + (d.due ++ d.reports.map (·.2)).countP fun x => x.queue == some (v, q)

/-- A posted write of a VF made at or before a step has not performed (R442). -/
def Die.writesBefore (d : Die) (v clock : Nat) : Bool := d.posted.any fun p => p.owner == 0x100 + v && decide (p.made ≤ clock)

/-- A completion entry: it is sent once the writes of the VF that were posted before it have performed. -/
def Die.report (d : Die) (v q n h st w t : Nat) : Die :=
  if d.writesBefore v d.clock then { d with reports := d.reports ++ [(d.clock, .report v q n h st w t)] } else d.sqEntry v q n h st w t

/-- The next completion entry that need not wait any longer. -/
def Die.settleReport (d : Die) : Option Die :=
  d.reports.findSome? fun e => match e.2 with
    | .report v q n h st w t =>
      if d.writesBefore v e.1 then none else some ({ d with reports := d.reports.erase e }.sqEntry v q n h st w t)
    | _ => none

/-- SQ_DESCRIPTOR_FETCH: the descriptor at SQHEAD comes from the host and is entered or refused (R441). -/
def Die.sqFetch (d : Die) (v q desc : Nat) : Die :=
  let x := d.sq v q
  if !x.en || x.stop || x.head == x.tail || decide (x.cqSize ≤ d.unreported v q + x.used) then d
  else
    let slot := x.head
    let d := d.setSq v q { x with head := (x.head + 1) % x.size }
    match d.enterFault v (desc % 2 ^ 512) with
    | some e => d.sqEntry v q slot 0 (0x80 + e) 0 d.dtime
    | none => (d.enterJob (desc % 2 ^ 512) v (0x100 + v) x.asid (some (q, slot))).2

def execSqDescriptorFetch (vf queue desc : Nat) (s : State) : Out := ok (s.modDie fun d => d.sqFetch (vf % 256) (queue % 16) desc)

/-- SQ_STOP: fetching stops and notifies are ignored (R443). -/
def execSqStop (vf queue : Nat) (s : State) : Out :=
  ok (s.modDie fun d =>
    let x := d.sq (vf % 256) (queue % 16)
    d.setSq (vf % 256) (queue % 16) (if x.stopped then x else { x with stop := true }))

/-- SQ_STOP_COMPLETE: a fetched descriptor is entered in the step that fetches it, so none is dropped (R443). -/
def execSqStopComplete (vf queue : Nat) (s : State) : Out :=
  ok (s.modDie fun d =>
    let x := d.sq (vf % 256) (queue % 16)
    d.setSq (vf % 256) (queue % 16) (if x.stop then { x with stopped := true } else x))

/-! ### Function-level reset (R444) -/

/-- Every job of a VF ends with a status and no completion entry; its commands are cancelled, its queues reset and its telemetry zeroed. -/
def State.freeVf (s : State) (v : Nat) : State :=
  let hs := (s.die.jobs.filter fun e => e.2.live && e.2.vf == v).map handleOf
  let s := hs.foldl (fun s h =>
    let s := s.modDie fun d => (d.modJob h fun j => { j with queue := none }).cancelCmds h
    s.endJob h 2 0) s
  s.modDie fun d =>
    let d := { d with
      sqs := d.sqs.filter fun e => e.1 / 16 != v
      due := d.due.filter fun x => x.queue.map (·.1) != some v
      reports := d.reports.filter fun x => x.2.queue.map (·.1) != some v }
    (List.range 32).foldl (fun d i => d.setReg (telemetry (0x100 + v) (8 * i)) 0) d

/-- VF_FLR. -/
def execVfFlr (vf : Nat) (s : State) : Out := ok (s.freeVf (vf % 256))

/-! ### The twin link (R446 to R448) -/

/-- `TWCTL`. -/
def twctl : Nat := 0x20000C010000

/-- TWIN_LINK_UP. -/
def execTwinLinkUp (s : State) : Out := ok (s.modDie fun d => d.setReg twctl (putBits (d.reg twctl) 1 1 1))

/-- TWIN_LINK_DOWN: outstanding twin requests fault with code 0x10, posted writes are discarded, a migration in progress fails with WHY 1. -/
def State.twinDown (s : State) : State :=
  let s := s.modDie fun d => d.setReg twctl (putBits (d.reg twctl) 1 1 0)
  let s := (s.die.posted.filter (·.twin)).foldl (fun s p => s.postedFault p 0x10) s
  let is := (((s.meId, s.me) :: s.others).filter fun e => e.2.run.hostReq.any fun q => q.twin).map (·.1)
  let s := is.foldl (fun s i => s.reqFault i 0x10) s
  s.modDie fun d => if 1 ≤ d.mig.state ∧ d.mig.state ≤ 2 then { d with mig := { d.mig with state := 5, why := 1 } } else d

def execTwinLinkDown (s : State) : Out := ok s.twinDown

/-- A request from outside into device memory: a read of 8 bytes where no data is given, else a write; refused, Unsupported Request. -/
def Die.outside (d : Die) (twin : Bool) (o pa : Nat) (data : List Nat) : Die :=
  if data = [] then
    match d.physRead o pa (Nat.min 8 (128 - pa % 128)) with
    | .ok (bs, d) => d.reply twin o true pa bs.length (leVal bs)
    | .error _ => d.reply twin o false pa 0 0
  else match d.writeLong o pa (data.map (BitVec.ofNat 8)) (data.length + 1) with
    | (d, none) => d
    | (d, some _) => d.reply twin o false pa 0 0

/-- An AMO from outside at its performing point (R92, R315, R331): the bytes of its operand, then of its compare value. Refused, Unsupported
Request. -/
def Die.outsideAmo (d : Die) (twin : Bool) (o pa : Nat) (op : Amo) (data : List Nat) : Die :=
  let n := if op = .cas then data.length / 2 else data.length
  let bs := data.map (BitVec.ofNat 8)
  let refuse : Die := d.reply twin o false pa 0 0
  if (n ≠ 4 ∧ n ≠ 8) ∨ pa % n ≠ 0 ∨ (op = .faddf ∧ (n ≠ 4 ∨ 0x110000000000 ≤ pa)) then refuse
  else match d.amoAt o pa n op (leVal (bs.take n)) (leVal (bs.drop n)) with
    | .error _ => refuse
    | .ok (old, d) => d.reply twin o true pa n old

/-- The AMO of a code of R63. -/
def Amo.ofCode (n : Nat) : Option Amo :=
  [Amo.lda, .sta, .swap, .cas, .fadd, .fand, .for, .fxor, .fmin, .fmax, .fminu, .fmaxu, .faddf].find? fun a => a.code == n

/-- TWIN_REQUEST: in link order, under the owner that it names (R331, R446): a read or a write, or an AMO. -/
def execTwinRequest (owner pa : Nat) (data : Nat × List Nat) (s : State) : Out :=
  ok (s.modDie fun d =>
    if 0x200000000000 ≤ pa then d.reply true (owner % 512) false pa 0 0
    else if data.1 = 0 then d.outside true (owner % 512) pa data.2
    else match Amo.ofCode (data.1 - 1) with
      | some a => d.outsideAmo true (owner % 512) pa a data.2
      | none => d.reply true (owner % 512) false pa 0 0)

/-! ### Migration (R450, R451) -/

/-- What the twin streams for a ticket: job-table entries by handle index, frames, and queue state (R450; log 19). -/
opaque importedJobs (vf ticket : Nat) : List (Nat × Job)
opaque importedFrames (vf ticket : Nat) : List (Nat × List Byte)
opaque importedQueues (vf ticket : Nat) : List (Nat × Sq)

/-- Change the migration engine. -/
def Die.modMig (d : Die) (f : Mig → Mig) : Die := { d with mig := f d.mig }

/-- The engine can start: IDLE, DONE or FAILED. -/
def Mig.startable (m : Mig) : Bool := m.state == 0 || m.state == 4 || m.state == 5

/-- Stop the enabled queues of the VF, or let those that the export stopped go on. -/
def Die.migStop (d : Die) (v : Nat) : Die :=
  let qs := (List.range 16).filter fun q => (d.sq v q).en && !(d.sq v q).stop
  (qs.foldl (fun d q => d.setSq v q { d.sq v q with stop := true }) d).modMig fun m => { m with queues := qs }
def Die.migResume (d : Die) : Die :=
  d.mig.queues.foldl (fun d q => d.setSq d.mig.vf q { d.sq d.mig.vf q with stop := false, stopped := false }) d

/-- MIGRATION_EXPORT: the quiesce starts. -/
def State.migExport (s : State) (v : Nat) : State :=
  if !s.die.mig.startable then s
  else if !s.die.twinUp then s.modDie fun d => d.modMig fun m => { m with vf := v, dir := false, state := 5, why := 1 }
  else
    let s := s.modDie fun d => (d.modMig fun m => { m with vf := v, dir := false, state := 1, why := 0, since := d.dtime }).migStop v
    s.preemptVf v

def execMigrationExport (vf : Nat) (s : State) : Out := ok (s.migExport (vf % 256))

/-- The VF is quiet: no strand, no command and no request of it. -/
def State.migQuiet (s : State) (v : Nat) : Bool :=
  !(((s.meId, s.me) :: s.others).any fun e => e.2.id.kind != .free && e.2.id.owner == 0x100 + v) &&
    !(s.die.cmds.any fun c => c.owner == 0x100 + v) && !(s.die.posted.any fun p => p.owner == 0x100 + v) &&
    !(s.die.jobs.any fun e => e.2.vf == v && (e.2.state == .running || e.2.state == .exiting || e.2.state == .dispatching))

/-- MIGRATION_QUIESCED. -/
def execMigrationQuiesced (s : State) : Out :=
  ok (if s.die.mig.state = 1 ∧ s.migQuiet s.die.mig.vf then s.modDie fun d => d.modMig fun m => { m with state := 2 } else s)

/-- MIGRATION_QUIESCE_TIMEOUT: 100 ms. -/
def execMigrationQuiesceTimeout (s : State) : Out :=
  ok (if s.die.mig.state = 1 ∧ s.die.mig.since + 100000000 ≤ s.die.dtime then
    s.modDie fun d => d.migResume.modMig fun m => { m with state := 5, why := 4 } else s)

/-- MIGRATION_STREAMED: the ticket is in `MIGTKT`. -/
def execMigrationStreamed (s : State) : Out :=
  ok (if s.die.mig.state = 2 then
    s.modDie fun d => d.modMig fun m => { m with state := 3, ticket := Config.ticket m.vf d.clock % 2 ^ 128 } else s)

/-- MIGRATION_CANCEL. -/
def execMigrationCancel (s : State) : Out :=
  ok (if s.die.mig.state = 3 then s.modDie fun d => d.migResume.modMig fun m => { m with state := 0 } else s)

/-- MIGRATION_SOURCE_DONE: the VF is freed with no status reported. -/
def execMigrationSourceDone (s : State) : Out :=
  ok (if s.die.mig.state = 3 then (s.freeVf s.die.mig.vf).modDie fun d => d.modMig fun m => { m with state := 4 } else s)

/-- A job as it is restored on the target: under its handle, SAVED, READY or PENDING. -/
def Job.restored (j : Job) (v : Nat) : Job := { j with vf := v, owner := 0x100 + v, root := none, placed := none, preempt := 0 }

/-- The jobs that can be restored. -/
def restorable (e : Nat × Job) : Bool :=
  decide (e.1 < 65536) && e.2.gen != 0 && (e.2.state == .saved || e.2.state == .ready || e.2.state == .pending)

/-- MIGRATION_IMPORT: the ticket, the placement and the handles are checked; frames, jobs and queues are restored (R451). -/
def Die.migImport (d : Die) (v tkt : Nat) : Die :=
  if !d.mig.startable then d
  else
    let fail (why : Nat) : Die := d.modMig fun m => { m with vf := v, dir := true, state := 5, why := why }
    let js := (importedJobs v tkt).filter restorable
    if !d.twinUp then fail 1
    else if !Config.ticketOk v tkt || d.mig.spent.contains tkt then fail 5
    else if js.any fun e => (sget Job.unused d.jobs e.1).live then fail 2
    else if !Config.placementOk v tkt then fail 3
    else
      let d := (importedFrames v tkt).foldl (fun d f => (d.writeLong (0x100 + v) f.1 f.2 (f.2.length + 1)).1) d
      let d := js.foldl (fun d e =>
        let d := { d with jobs := sset Job.unused d.jobs e.1 (e.2.restored v) }
        if e.2.state = .pending then d else d.intoTier (e.2.gen * 65536 + e.1) e.2.state) d
      let d := (importedQueues v tkt).foldl (fun d q => d.setSq v (q.1 % 16) q.2) d
      d.modMig fun m => { m with vf := v, dir := true, state := 4, why := 0, ticket := tkt, spent := tkt :: m.spent }

def execMigrationImport (vf ticket : Nat) (s : State) : Out := ok (s.modDie fun d => d.migImport (vf % 256) (ticket % 2 ^ 128))

/-- The value of `MIGCTL` (Table 24.6). -/
def Mig.ctl (m : Mig) : Nat := m.why * 2 ^ 36 + m.state * 2 ^ 32 + (if m.nextDir then 256 else 0) + m.nextVf

/-- A write of `MIGCTL`: VF and DIR are stored whatever the state (R11); GO acts by the state. -/
def State.migWrite (s : State) (v : Nat) : State :=
  let m := s.die.mig
  let imports := bits v 8 8 == 1
  let s := s.modDie fun d => d.modMig fun m => { m with nextVf := v % 256, nextDir := imports }
  if bits v 9 9 = 0 then s
  else if m.startable then
    (if imports then s.modDie fun d => d.migImport (v % 256) m.ticket else s.migExport (v % 256))
  else if m.state = 3 then s.modDie fun d => d.migResume.modMig fun m => { m with state := 0 }
  else s

/-! ### Host requests (R330, R438, R440) -/

/-- Bytes `lo` to `lo + n` of a register replaced by data (R11). -/
def mergeBytes (old lo : Nat) (data : List Byte) : Nat := putBits old (8 * (lo + data.length) - 1) (8 * lo) (leVal data)

/-- The registers of BAR 0 of a VF at offsets 0x1000 + 0x20·q (Table 24.3), in its order. -/
def Die.sqReg (d : Die) (v q i : Nat) : Nat :=
  let x := d.sq v q
  match i with
  | 0 => x.base
  | 1 => x.ctl
  | 2 => x.db
  | _ => x.cqBase

def Die.sqRegWrite (d : Die) (v q i x : Nat) : Die :=
  let y := d.sq v q
  match i with
  | 0 => if y.en then d else d.setSq v q { y with base := x / 4096 * 4096 % 2 ^ 64 }
  | 1 => d.setSq v q (y.ctlWrite x)
  | 2 => d.sqDoorbell v q x
  | _ => if y.en then d else d.setSq v q { y with cqBase := x / 4096 * 4096 % 2 ^ 64 }

/-- HOST_MEMORY_REQUEST: function 0 to 255 is a VF, 256 the PF; `op` 0 for a read or a write, 1 to 3 for a FetchAdd, Swap or CAS, which memory
alone performs (R315). -/
def State.hostRequest (s : State) (vf bar off op : Nat) (data : List Nat) : State :=
  let bs := data.map (BitVec.ofNat 8)
  let refuse : State := s.modDie fun d => d.reply false 0 false off 0 0
  let answer (v : Nat) : State := s.modDie fun d => d.reply false 0 true off 8 v
  let atomic : Option Amo := match op with
    | 1 => some .fadd | 2 => some .swap | 3 => some .cas | _ => none
  if op ≠ 0 ∧ (256 ≤ vf ∨ bar ≠ 2 ∨ atomic.isNone) then refuse
  else if vf < 256 ∧ bar = 0 then
    if 0x1000 ≤ off ∧ off < 0x1200 ∧ off % 8 + bs.length ≤ 8 then
      let q := (off - 0x1000) / 0x20
      let i := off / 8 % 4
      let old := s.die.sqReg vf q i
      if bs = [] then answer old else s.modDie fun d => d.sqRegWrite vf q i (mergeBytes old (off % 8) bs)
    else refuse
  else if vf < 256 ∧ bar = 2 then
    let h := s.die.hvf (0x100 + vf)
    if bits h 22 22 = 0 ∨ 0x1000000 < off + bs.length then refuse
    else s.modDie fun d =>
      let pa := 0x100000000000 + 0x1000000 * bits h 21 19 + off
      match atomic with
      | some a => d.outsideAmo false (0x100 + vf) pa a data
      | none => d.outside false (0x100 + vf) pa data
  else if vf = 256 ∧ bar = 0 ∧ off % 8 + bs.length ≤ 8 then
    match off / 8 with
    | 0x20 => if bs = [] then answer s.die.mig.ctl else s.migWrite (mergeBytes (s.die.mig.ctl % 2 ^ 9) (off % 8) bs)
    | 0x21 => if bs = [] then answer (bits s.die.mig.ticket 63 0)
      else s.modDie fun d => d.modMig fun m => { m with ticket := putBits m.ticket 63 0 (mergeBytes (bits m.ticket 63 0) (off % 8) bs) }
    | 0x22 => if bs = [] then answer (bits s.die.mig.ticket 127 64)
      else s.modDie fun d => d.modMig fun m => { m with ticket := putBits m.ticket 127 64 (mergeBytes (bits m.ticket 127 64) (off % 8) bs) }
    | _ => refuse
  else refuse

/-- Writes perform in the order in which the link receives them; one that carries Relaxed Ordering may, and performs when it comes (R330). -/
def execHostMemoryRequest (vf bar off : Nat) (data : Nat × Bool × List Nat) (s : State) : Out := ok (s.hostRequest vf bar off data.1 data.2.2)

end Sys2Proof.Machine
end

