-- ==== Sys2Proof/Machine/Ferry.lean ====
section
/-! DEFINITION. The ferry engines (R390, R391, R351): each command moves its destination sequence in order, a piece at a time. A piece lies
within one 128-byte sector of its source and of its destination. -/

namespace Sys2Proof.Machine

/-! ### The addresses of a command (Table 20.4) -/

/-- A length field in which 0 acts as 1. -/
def orOne (n : Nat) : Nat := if n = 0 then 1 else n

/-- A VA from a signed displacement, modulo 2^64. -/
def vaAdd (va : Nat) (x : Int) : Nat := wrapBits 64 (va + x)

/-- The signed strides of COPY3: doubleword `i`, stride1 and stride2. -/
def Cmd.strides (c : Cmd) (i : Nat) : Int × Int := (toSigned 32 (bits (dw c.words i) 31 0), toSigned 32 (bits (dw c.words i) 63 32))

/-- The bytes of one contiguous run of a command. -/
def Cmd.runLen (c : Cmd) : Nat :=
  match c.op with
  | 2 | 3 => 2 ^ bits (dw c.words 1) 35 32
  | 5 => 2 ^ pageLog (bits (dw c.words 1) 34 32)
  | _ => bits (dw c.words 4) 31 0

/-- The runs of a command. -/
def Cmd.runs (c : Cmd) : Nat :=
  match c.op with
  | 1 => orOne (bits (dw c.words 4) 47 32) * orOne (bits (dw c.words 4) 63 48)
  | 2 | 3 => bits (dw c.words 5) 31 0
  | _ => 1

/-- The source and destination of byte `off` of run `i` of COPY and COPY3. -/
def Cmd.copyAt (c : Cmd) (i off : Nat) : Nat × Nat :=
  let len1 := orOne (bits (dw c.words 4) 47 32)
  let x : Int := (i % len1 : Nat)
  let y : Int := (i / len1 : Nat)
  let s := c.strides 5
  let t := c.strides 6
  if c.op = 1 then
    (vaAdd (dw c.words 2) (x * s.1 + y * s.2 + off), vaAdd (dw c.words 3) (x * t.1 + y * t.2 + off))
  else (vaAdd (dw c.words 2) off, vaAdd (dw c.words 3) off)

/-! ### Pieces -/

/-- What became of the next piece. -/
inductive Piece where
  | moved (n : Nat) (d : Die)
  | stop (status va : Nat) (d : Die)
  | wait (d : Die)
  deriving DecidableEq, Repr

/-- Bytes to the end of a 128-byte sector. -/
def toSector (a : Nat) : Nat := 128 - a % 128

/-- Copy `n` bytes, at most to the end of either sector. -/
def Die.copyPiece (d : Die) (c : Cmd) (src dst n : Nat) : Piece :=
  let n := Nat.min n (Nat.min (toSector src) (toSector dst))
  match d.engPlace c src .read with
  | .stop st d => .stop st src d
  | .wait d => .wait d
  | .ok spa d => match d.engPlace c dst .write with
    | .stop st d => .stop st dst d
    | .wait d => .wait d
    | .ok dpa d => match d.engRead c spa n with
      | .error (st, d) => .stop st src d
      | .ok (bs, d) => .moved n (d.engWrite c dpa bs)

/-- Write pattern bytes. -/
def Die.fillPiece (d : Die) (c : Cmd) (off dst n : Nat) : Piece :=
  let n := Nat.min n (toSector dst)
  match d.engPlace c dst .write with
  | .stop st d => .stop st dst d
  | .wait d => .wait d
  | .ok dpa d => .moved n (d.engWrite c dpa ((List.range n).map fun i => BitVec.ofNat 8 (dw c.words 2 / 2 ^ (8 * ((off + i) % 8)))))

/-- Read index `k` of GATHER or SCATTER, an i32. -/
def Die.ferryIndex (d : Die) (c : Cmd) (k : Nat) : Piece ⊕ (Int × Die) :=
  let va := vaAdd (dw c.words 4) (4 * k : Nat)
  match d.engPlace c va .read with
  | .stop st d => .inl (.stop st va d)
  | .wait d => .inl (.wait d)
  | .ok pa d => match d.engRead c pa 4 with
    | .error (st, d) => .inl (.stop st va d)
    | .ok (bs, d) => .inr (toSigned 32 (leVal bs), d)

/-- One 4-byte word of UPDATE, indivisible at the destination's near-bank unit (R310). -/
def Die.updatePiece (d : Die) (c : Cmd) (src dst : Nat) : Piece :=
  match d.engPlace c src .read with
  | .stop st d => .stop st src d
  | .wait d => .wait d
  | .ok spa d => match d.engPlace c dst .rmw with
    | .stop st d => .stop st dst d
    | .wait d => .wait d
    | .ok dpa d => match d.engRead c spa 4 with
      | .error (st, d) => .stop st src d
      | .ok (bs, d) => match d.target dpa with
        | .lpddr | .csm _ => match d.amoAt c.owner dpa 4 (Amo.ofVector (bits (dw c.words 1) 35 32)) (leVal bs) 0 with
          | .error e => .stop (engStatus e) dst (d.readError e 2048 dpa)
          | .ok (_, d) => .moved 4 d
        | _ => .stop 1 dst d

/-- One piece of MIGRATE: physical frames under the owner's key. -/
def Die.migratePiece (d : Die) (c : Cmd) (off n : Nat) : Piece :=
  let n := Nat.min n 128
  let src := dw c.words 2 + off
  let dst := dw c.words 3 + off
  if !d.admits (tableOf src .lpddr) c.owner false then .stop 6 src d
  else if !d.admits (tableOf dst .lpddr) c.owner true then .stop 6 dst d
  else match d.engRead c src n with
    | .error (st, d) => .stop st src d
    | .ok (bs, d) => .moved n (d.engWrite c dst bs)

/-- The piece at offset `b` of the destination sequence. -/
def Die.ferryPiece (d : Die) (c : Cmd) (b : Nat) : Piece :=
  let i := b / c.runLen
  let off := b % c.runLen
  let left := c.runLen - off
  match c.op with
  | 2 => match d.ferryIndex c i with
    | .inl p => p
    | .inr (x, d) => d.copyPiece c (vaAdd (dw c.words 2) (x * c.runLen + off)) (vaAdd (dw c.words 3) b) left
  | 3 => match d.ferryIndex c i with
    | .inl p => p
    | .inr (x, d) => d.copyPiece c (vaAdd (dw c.words 2) b) (vaAdd (dw c.words 3) (x * c.runLen + off)) left
  | 4 => d.fillPiece c off (vaAdd (dw c.words 3) off) left
  | 5 => d.migratePiece c off left
  | 6 => d.updatePiece c (vaAdd (dw c.words 2) off) (vaAdd (dw c.words 3) off)
  | _ => d.copyPiece c (c.copyAt i off).1 (c.copyAt i off).2 left

/-- Move pieces from offset `b` on until the command ends or meets MG = 1: the status, the offset reached and the failing VA; no status where
it waits. -/
def Die.ferryRun (c : Cmd) : Nat → Nat → Die → Die × Option (Nat × Nat) × Nat
  | 0, b, d => (d, some (0, 0), b)
  | fuel + 1, b, d =>
    if c.runLen * c.runs ≤ b then (d, some (0, 0), b)
    else match d.ferryPiece c b with
      | .moved n d => Die.ferryRun c fuel (b + n) d
      | .stop st va d => (d, some (st, va), b)
      | .wait d => (d, none, b)

/-- Run a ferry command (R390, R391). -/
def Die.ferry (d : Die) (c : Cmd) : Die :=
  match Die.ferryRun c (c.runLen * c.runs) c.prog d with
  | (d, some (st, va), b) => d.finishCmd c st b 0 va
  | (d, none, b) => d.stallCmd c b

/-- The running command of an engine with an OP does its work. -/
def State.ferryOp (s : State) (engine op : Nat) : State :=
  if engClass engine ≠ 0 then s
  else match s.die.runningFerry engine op with
    | some c => s.modDie fun d => d.ferry c
    | none => s

/-- FERRY_COPY: ascending order. -/
def execFerryCopy (engine : Nat) (s : State) : Out := ok (s.ferryOp engine 0)
/-- FERRY_COPY3: sweep order. -/
def execFerryCopy3 (engine : Nat) (s : State) : Out := ok (s.ferryOp engine 1)
/-- FERRY_GATHER. -/
def execFerryGather (engine : Nat) (s : State) : Out := ok (s.ferryOp engine 2)
/-- FERRY_SCATTER: ascending k, so the highest index gives a byte's final value. -/
def execFerryScatter (engine : Nat) (s : State) : Out := ok (s.ferryOp engine 3)
/-- FERRY_FILL. -/
def execFerryFill (engine : Nat) (s : State) : Out := ok (s.ferryOp engine 4)
/-- FERRY_MIGRATE. -/
def execFerryMigrate (engine : Nat) (s : State) : Out := ok (s.ferryOp engine 5)
/-- FERRY_UPDATE. -/
def execFerryUpdate (engine : Nat) (s : State) : Out := ok (s.ferryOp engine 6)

end Sys2Proof.Machine
end

