-- ==== Sys2Proof/Machine/Fp.lean ====
section
/-! DEFINITION. Scalar floating point (R94 to R97). -/

namespace Sys2Proof.Machine

/-- The fmt codes of R64. -/
def fmtOf : Nat → Fmt
  | 0 => .f32
  | 1 => .f64
  | 2 => .f16
  | _ => .bf16

/-- The bits of a scalar FP operand: the low bits of the register (R94). -/
def fpBits (f : Fmt) (x : Word) : Nat := x.toNat % 2 ^ (f.signPos + 1)

/-- A scalar FP operand. -/
def State.fp (s : State) (f : Fmt) (r : Fin 32) : FV := FV.ofBits f (fpBits f (s.reg r))

/-- Write bits zero-extended, set flags, retire (R94, R24). -/
def State.fpWrite (s : State) (d : Fin 32) (b : Nat) (fl : Flags) : Out := ok ((s.raise fl).writeRetire d (BitVec.ofNat 64 b))

/-- Round an exact value once into a format and write it (R94). -/
def State.fpRound (s : State) (d : Fin 32) (f : Fmt) (rz : Bool) (r : FV × Flags) : Out :=
  let q := r.1.round f (s.me.scalarMode rz) false
  s.fpWrite d q.1 (q.2 ||| r.2)

def execFadd (d a b : Fin 32) (f : Fin 4) (z : Bool) (s : State) : Out :=
  let k := fmtOf f.val
  s.fpRound d k z (sumFV [s.fp k a, s.fp k b])
def execFsub (d a b : Fin 32) (f : Fin 4) (z : Bool) (s : State) : Out :=
  let k := fmtOf f.val
  s.fpRound d k z (sumFV [s.fp k a, (s.fp k b).neg])
def execFmul (d a b : Fin 32) (f : Fin 4) (z : Bool) (s : State) : Out :=
  let k := fmtOf f.val
  s.fpRound d k z ((s.fp k a).mul (s.fp k b))
def execFdiv (d a b : Fin 32) (f : Fin 4) (z : Bool) (s : State) : Out :=
  let k := fmtOf f.val
  s.fpRound d k z ((s.fp k a).div (s.fp k b))
def execFsqrt (d a : Fin 32) (f : Fin 4) (z : Bool) (s : State) : Out :=
  let k := fmtOf f.val
  s.fpRound d k z (s.fp k a).sqrt
/-- FMADD: round(a·b + c) once, c the old rd (R95). -/
def execFmadd (d a b : Fin 32) (f : Fin 4) (z : Bool) (s : State) : Out :=
  let k := fmtOf f.val
  s.fpRound d k z (dotFV [s.fp k d] [(s.fp k a, s.fp k b)])

/-- FMIN and FMAX (R37): the result is an operand or the canonical NaN, exactly. -/
def State.fpMinMax (s : State) (d a b : Fin 32) (f : Fin 4) (g : Bool) : Out :=
  let k := fmtOf f.val
  let r := (s.fp k a).minMax g (s.fp k b)
  s.fpWrite d (r.1.round k .rne false).1 r.2
def execFmin (d a b : Fin 32) (f : Fin 4) (s : State) : Out := s.fpMinMax d a b f false
def execFmax (d a b : Fin 32) (f : Fin 4) (s : State) : Out := s.fpMinMax d a b f true

def execFeq (d a b : Fin 32) (f : Fin 4) (s : State) : Out :=
  let x := s.fp (fmtOf f.val) a
  let y := s.fp (fmtOf f.val) b
  s.fpWrite d (if x.eq y then 1 else 0) (x.sigFlag ||| y.sigFlag)
def execFlt (d a b : Fin 32) (f : Fin 4) (s : State) : Out :=
  let x := s.fp (fmtOf f.val) a
  let y := s.fp (fmtOf f.val) b
  s.fpWrite d (if x.lt y then 1 else 0) (flagIf (x.isNan || y.isNan) fNV)
def execFle (d a b : Fin 32) (f : Fin 4) (s : State) : Out :=
  let x := s.fp (fmtOf f.val) a
  let y := s.fp (fmtOf f.val) b
  s.fpWrite d (if x.lt y || x.eq y then 1 else 0) (flagIf (x.isNan || y.isNan) fNV)
def execFclass (d a : Fin 32) (f : Fin 4) (s : State) : Out :=
  s.fpWrite d (fclass (fmtOf f.val) (fpBits (fmtOf f.val) (s.reg a))) 0

/-- The range of an integer type code: 0 i32, 1 ui32, 2 i64, 3 ui64 (Table 3.4). -/
def intRange : Nat → Int × Int
  | 0 => (-2147483648, 2147483647)
  | 1 => (0, 4294967295)
  | 2 => (-9223372036854775808, 9223372036854775807)
  | _ => (0, 18446744073709551615)

/-- FCVT.I: an i32 result is sign-extended, a ui32 result zero-extended (R97). -/
def execFcvtI (d a : Fin 32) (f : Fin 4) (z : Bool) (t : Fin 4) (s : State) : Out :=
  let r := (s.fp (fmtOf f.val) a).toInt (s.me.scalarMode z) (intRange t.val).1 (intRange t.val).2
  s.fpWrite d (wrapBits 64 r.1) r.2

/-- FCVT.F: i32 and ui32 sources are read from ra[31:0] (R97). -/
def execFcvtF (d a : Fin 32) (f : Fin 4) (z : Bool) (t : Fin 4) (s : State) : Out :=
  let x := (s.reg a).toNat
  let v : Int := match t.val with
    | 0 => toSigned 32 x
    | 1 => (x % 2 ^ 32 : Nat)
    | 2 => toSigned 64 x
    | _ => (x : Nat)
  s.fpRound d (fmtOf f.val) z (FV.ofInt v, 0)

/-- FCVT between formats: `g` is the source (R97, R40). -/
def execFcvt (d a : Fin 32) (f : Fin 4) (z : Bool) (g : Fin 4) (s : State) : Out :=
  let x := s.fp (fmtOf g.val) a
  s.fpRound d (fmtOf f.val) z (x, x.sigFlag)

end Sys2Proof.Machine
end

