-- ==== Sys2Proof/Machine/Ldpc.lean ====
section
/-! DEFINITION. The coding engines' operands, and LDPC encoding and decoding (R390, R392 to R394) by 3GPP TS 38.212 clauses 5.3.2 and 5.4.2. -/

namespace Sys2Proof.Machine

/-! ### Operands of a coding command (R390) -/

/-- The answer of reading or probing an operand. -/
inductive Operand where
  | ok (bs : List Byte) (d : Die)
  | stop (status va : Nat) (d : Die)
  | wait (d : Die)
  deriving DecidableEq, Repr

/-- Read `n` bytes at a VA, sector by sector. -/
def Die.operand (c : Cmd) : Nat → Nat → Nat → Die → Operand
  | 0, _, _, d => .ok [] d
  | fuel + 1, va, n, d =>
    if n = 0 then .ok [] d
    else
      let k := Nat.min n (128 - va % 128)
      match d.engPlace c va .read with
      | .stop st d => .stop st va d
      | .wait d => .wait d
      | .ok pa d => match d.engRead c pa k with
        | .error (st, d) => .stop st va d
        | .ok (bs, d) => match Die.operand c fuel (va + k) (n - k) d with
          | .ok rest d => .ok (bs ++ rest) d
          | r => r

/-- What probing operands has met: the lowest failing VA with its status, and a leaf with MG = 1. -/
structure Probe where
  fail : Option (Nat × Nat)
  wait : Bool
  die : Die
  deriving DecidableEq, Repr

/-- One more failure: the lower VA stays. -/
def Probe.failed (p : Probe) (va st : Nat) (d : Die) : Probe :=
  { p with die := d, fail := match p.fail with
    | some f => if va < f.1 then some (va, st) else some f
    | none => some (va, st) }

/-- Probe `n` bytes at a VA: nothing is written. -/
def Probe.operand (c : Cmd) (a : Acc) : Nat → Nat → Nat → Probe → Probe
  | 0, _, _, p => p
  | fuel + 1, va, n, p =>
    if n = 0 then p
    else
      let k := Nat.min n (128 - va % 128)
      match p.die.engPlace c va a with
      | .stop st d => p.failed va st d
      | .wait d => Probe.operand c a fuel (va + k) (n - k) { p with die := d, wait := true }
      | .ok _ d => Probe.operand c a fuel (va + k) (n - k) { p with die := d }

/-- Write an operand that has been probed. -/
def Die.writeOut (c : Cmd) : Nat → Nat → List Byte → Die → Die
  | 0, _, _, d => d
  | fuel + 1, va, bs, d =>
    if bs = [] then d
    else
      let k := Nat.min bs.length (128 - va % 128)
      match d.engPlace c va .write with
      | .ok pa d => Die.writeOut c fuel (va + k) (bs.drop k) (d.engWrite c pa (bs.take k))
      | .stop _ d => d
      | .wait d => d

/-- Bytes of a bit string: bit j in byte j div 8, bit j mod 8 (R392). -/
def packBits : Nat → List Bool → List Byte
  | 0, _ => []
  | n + 1, bs => BitVec.ofNat 8 (((bs.take 8).foldr (fun b x => 2 * x + (if b then 1 else 0)) 0)) :: packBits n (bs.drop 8)

/-- A bit string as whole bytes. -/
def bitBytes (bs : List Bool) : List Byte := packBits ((bs.length + 7) / 8) bs

/-- The first `n` bits of bytes. -/
def unpackBits (n : Nat) (bs : List Byte) : List Bool :=
  (bs.flatMap fun b => (List.range 8).map b.getLsbD).take n

/-- The remainder of a CRC over bits, most significant first: 0 where it holds. `w` is the width, `poly` the polynomial without its top bit. -/
def crc (w poly : Nat) (bs : List Bool) : Nat :=
  bs.foldl (fun r b =>
    let top := r.testBit (w - 1)
    let r := 2 * r % 2 ^ w + (if b then 1 else 0)
    if top then r ^^^ poly else r) 0

/-! ### The code (R392) -/

/-- An LDPC command's parameters. -/
structure Ldpc where
  bg2 : Bool
  z : Nat
  qm : Nat
  rv : Nat
  e : Nat
  ncb : Nat
  f : Nat
  deriving DecidableEq, Repr

namespace Ldpc

/-- The parameters of a command (Table 20.6). -/
def ofCmd (ws : List Nat) : Ldpc :=
  let bg2 := bits (dw ws 1) 8 8 == 1
  let z := bits (dw ws 1) 40 32
  let n := (if bg2 then 50 else 66) * z
  let ncb := bits (dw ws 5) 63 32
  ⟨bg2, z, bits (dw ws 1) 51 48, bits (dw ws 1) 53 52, bits (dw ws 5) 31 0, if ncb = 0 then n else ncb, bits (dw ws 6) 15 0⟩

/-- K, N and the base graph's rows. -/
def k (p : Ldpc) : Nat := (if p.bg2 then 10 else 22) * p.z
def n (p : Ldpc) : Nat := (if p.bg2 then 50 else 66) * p.z
def rows (p : Ldpc) : Nat := if p.bg2 then 42 else 46
def cols (p : Ldpc) : Nat := if p.bg2 then 52 else 68

/-- The set index of a lifting size (TS 38.212 Table 5.3.2-1). -/
def setIndex (z : Nat) : Nat :=
  ([2, 3, 5, 7, 9, 11, 13, 15].findIdx? fun a => (List.range 8).any fun j => z == a * 2 ^ j).getD 0

/-- The edges of a base-graph row: column and shift modulo Z. -/
def edges (p : Ldpc) (row : Nat) : List (Nat × Nat) :=
  (List.range p.cols).filterMap fun c => (Config.ldpcShift p.bg2 (setIndex p.z) row c).map fun v => (c, v % p.z)

/-- The variable nodes of lifted row `i` of a base-graph row. -/
def nodes (p : Ldpc) (row i : Nat) : List Nat := (p.edges row).map fun e => e.1 * p.z + (i + e.2) % p.z

/-- k₀(rv) (TS 38.212 Table 5.4.2.1-2). -/
def k0 (p : Ldpc) : Nat :=
  let m := match p.bg2, p.rv with
    | _, 0 => 0
    | false, 1 => 17 | false, 2 => 33 | false, _ => 56
    | true, 1 => 13 | true, 2 => 25 | true, _ => 43
  m * p.ncb / ((if p.bg2 then 50 else 66) * p.z) * p.z

/-- A position of the circular buffer that holds a filler bit. -/
def filler (p : Ldpc) (pos : Nat) : Bool := decide (p.k ≤ pos + 2 * p.z + p.f ∧ pos + 2 * p.z < p.k)

/-- The positions that bit selection takes, once round the buffer from k₀. -/
def cycle (p : Ldpc) : List Nat := ((List.range p.ncb).map fun i => (p.k0 + i) % p.ncb).filter fun x => !p.filler x

/-- pos(k) for every k below E. -/
def positions (p : Ldpc) : List Nat :=
  let c := p.cycle
  (List.range p.e).map fun i => c.getD (i % c.length) 0

/-- The place of selected bit `i` after the bit interleaving (TS 38.212 clause 5.4.2.2). -/
def interleaved (p : Ldpc) (t : Nat) : Nat := t % p.qm * (p.e / p.qm) + t / p.qm

/-- The checks of the code for K bits (TS 38.212 clause 5.3.2: H × [c w]ᵀ = 0), each as a number: bit j for parity bit j, and bit `rows`·Z for the
sum of the K bits that it covers. -/
def checks (p : Ldpc) (c : List Bool) : List Nat :=
  (List.range p.rows).flatMap fun r => (List.range p.z).map fun i => (p.nodes r i).foldl (fun x v =>
    x ^^^ (if p.k ≤ v then 2 ^ (v - p.k) else if c.getD v false then 2 ^ (p.rows * p.z) else 0)) 0

/-- One column of the elimination over GF(2): the solved rows by their column, and those that are left. -/
def eliminate (x : List (Nat × Nat) × List Nat) (j : Nat) : List (Nat × Nat) × List Nat :=
  match x.2.find? (·.testBit j) with
  | none => x
  | some r =>
    let add (y : Nat) : Nat := if y.testBit j then y ^^^ r else y
    ((j, r) :: x.1.map (fun e => (e.1, add e.2)), (x.2.erase r).map add)

/-- The parity bits w of the K bits: the solution of the checks. -/
def parity (p : Ldpc) (c : List Bool) : List Bool :=
  let m := p.rows * p.z
  let rows := ((List.range m).foldl eliminate ([], p.checks c)).1
  (List.range m).map fun j => rows.any fun e => e.1 == j && e.2.testBit m

/-- The E rate-matched bits of the K − F information bits (R393). -/
def encode (p : Ldpc) (info : List Bool) : List Bool :=
  let c := info ++ List.replicate p.f false
  let d := c.drop (2 * p.z) ++ p.parity c
  let sel := p.positions.map fun x => d.getD x false
  (List.range p.e).map fun t => sel.getD (p.interleaved t) false

/-! ### Decoding (R394) -/

/-- sat127. -/
def sat127 (x : Int) : Int := clampInt (-127) 127 x

/-- The soft buffer: `buffer` is zero, or the HARQ buffer where they are combined. -/
def soft (p : Ldpc) (llr : List Int) (buffer : List (Nat × Int)) : List (Nat × Int) :=
  let pos := p.positions
  let c := (List.range p.e).foldl (fun m k =>
    -- selected bit k came out of the interleaver at the place t with interleaved t = k
    let t := k % (p.e / p.qm) * p.qm + k / (p.e / p.qm)
    let x := pos.getD k 0
    sset 0 m x (sat127 (sget 0 m x + Max.max (llr.getD t 0) (-127)))) buffer
  ((List.range p.ncb).filter p.filler).foldl (fun m x => sset 0 m x 127) c

/-- A row's messages: R[c][v] at key 2^20·c + v. -/
abbrev Soft := List (Nat × Int)

/-- One lifted row of the layered offset min-sum. -/
def layer (vs : List Nat) (row : Nat) (x : Soft × Soft) : Soft × Soft :=
  let q := vs.map fun v => (v, sat127 (sget 0 x.1 v - sget 0 x.2 (2 ^ 20 * row + v)))
  q.foldl (fun x e =>
    let others := q.filter fun u => u.1 != e.1
    let neg := others.foldl (fun b u => xor b (decide (u.2 < 0))) false
    let least := others.foldl (fun m u => Nat.min m u.2.natAbs) 127
    let r : Int := (if neg then -1 else 1) * Max.max ((least : Int) - 1) 0
    (sset 0 x.1 e.1 (clampInt (-511) 511 (e.2 + r)), sset 0 x.2 (2 ^ 20 * row + e.1) r)) x

/-- One iteration. -/
def iterate (p : Ldpc) (x : Soft × Soft) : Soft × Soft :=
  (List.range p.rows).foldl (fun x r => (List.range p.z).foldl (fun x i => layer (p.nodes r i) (p.z * r + i) x) x) x

/-- Every parity check holds of the hard bits. -/
def parityHolds (p : Ldpc) (l : Soft) : Bool :=
  (List.range p.rows).all fun r => (List.range p.z).all fun i =>
    !((p.nodes r i).foldl (fun b v => xor b (decide (sget 0 l v < 0))) false)

/-- The hard information bits. -/
def info (p : Ldpc) (l : Soft) : List Bool := (List.range (p.k - p.f)).map fun v => decide (sget 0 l v < 0)

/-- The CRC of a code holds: 0 none, 1 CRC24A, 2 CRC24B, 3 CRC16 (TS 38.212 clause 5.1). -/
def crcHolds (code : Nat) (bs : List Bool) : Bool :=
  match code with
  | 0 => true
  | 1 => crc 24 0x864CFB bs == 0
  | 2 => crc 24 0x800063 bs == 0
  | _ => crc 16 0x1021 bs == 0

/-- The loop: the soft values after it, the iterations run, and whether it stopped. -/
def run (p : Ldpc) (code : Nat) : Nat → Nat → Soft × Soft → Soft × Nat × Bool
  | 0, it, x => (x.1, it, false)
  | left + 1, it, x =>
    let x := p.iterate x
    if p.parityHolds x.1 && crcHolds code (p.info x.1) then (x.1, it + 1, true) else p.run code left (it + 1) x

end Ldpc

/-! ### The commands -/

/-- How a coding command that cannot finish ends: nothing is written (R390). -/
def Operand.settle (c : Cmd) (f : List Byte → Die → Die) : Operand → Die
  | .ok bs d => f bs d
  | .stop st va d => d.finishCmd c st 0 0 va
  | .wait d => d.stallCmd c 0

/-- Read `n` bytes at doubleword `i`'s VA. -/
def Die.readArg (d : Die) (c : Cmd) (i n : Nat) (f : List Byte → Die → Die) : Die :=
  (Die.operand c n (dw c.words i) n d).settle c f

/-- Probe every page of every operand, each a doubleword's index, a length and an access, before the command goes on (R390). -/
def Die.probeArgs (d : Die) (c : Cmd) (ops : List (Nat × Nat × Acc)) (f : Die → Die) : Die :=
  let p := ops.foldl (fun p o => Probe.operand c o.2.2 o.2.1 (dw c.words o.1) o.2.1 p) ⟨none, false, d⟩
  match p.fail with
  | some (va, st) => p.die.finishCmd c st 0 0 va
  | none => if p.wait then p.die.stallCmd c 0 else f p.die

/-- Write at doubleword `i`'s VA. -/
def Die.writeArg (d : Die) (c : Cmd) (i : Nat) (bs : List Byte) : Die := Die.writeOut c bs.length (dw c.words i) bs d

/-- LDPC_ENCODE (R393). -/
def Die.ldpcEncode (d : Die) (c : Cmd) : Die :=
  let p := Ldpc.ofCmd c.words
  let n := p.k - p.f
  d.probeArgs c [(2, (n + 7) / 8, .read), (3, (p.e + 7) / 8, .write)] fun d => d.readArg c 2 ((n + 7) / 8) fun bs d =>
    (d.writeArg c 3 (bitBytes (p.encode (unpackBits n bs)))).finishCmd c 0 p.e 0 0

/-- The signed bytes of an LLR operand, by position. -/
def llrs (bs : List Byte) : List Int := bs.map BitVec.toInt

/-- LDPC_DECODE (R394): the HARQ buffer is read before any write; filler is written to it as 0. -/
def Die.ldpcDecode (d : Die) (c : Cmd) : Die :=
  let p := Ldpc.ofCmd c.words
  let n := p.k - p.f
  let harq := bits (dw c.words 1) 10 9
  let code := bits (dw c.words 1) 12 11
  let ins := [(2, p.e, Acc.read), (4, if harq = 2 then p.ncb else 0, .read)]
  let outs := [(3, (n + 7) / 8, Acc.write), (4, if harq = 0 then 0 else p.ncb, .write)]
  d.probeArgs c (ins ++ outs) fun d => d.readArg c 2 p.e fun bs d => d.readArg c 4 (if harq = 2 then p.ncb else 0) fun buf d =>
      let start := (((List.range p.ncb).zip (llrs buf)).filter fun x => x.2 != 0)
      let soft := p.soft (llrs bs) start
      let l := soft.map fun x => (x.1 + 2 * p.z, x.2)
      let (l, it, stopped) := p.run code (bits (dw c.words 1) 46 41) 0 (l, [])
      let held := code != 0 && Ldpc.crcHolds code (p.info l)
      let d := d.writeArg c 3 (bitBytes (p.info l))
      let d := if harq = 0 then d
        else d.writeArg c 4 ((List.range p.ncb).map fun x => BitVec.ofInt 8 (if p.filler x then 0 else sget 0 soft x))
      d.finishCmd c (if stopped then 0 else 3) n (it + (if held then 256 else 0) + (if p.parityHolds l then 512 else 0)) 0

/-- The first command of an engine of a class does its work. -/
def State.coding (s : State) (engine cls op : Nat) (f : Die → Cmd → Die) : State :=
  if engClass engine ≠ cls then s
  else match s.die.nextCmd engine op with
    | some c => s.modDie fun d => f d c
    | none => s

def execLdpcDecode (engine : Nat) (s : State) : Out := ok (s.coding engine 1 0 Die.ldpcDecode)
def execLdpcEncode (engine : Nat) (s : State) : Out := ok (s.coding engine 2 0 Die.ldpcEncode)

end Sys2Proof.Machine
end

