-- ==== Sys2Proof/Machine/Fronthaul.lean ====
section
/-! DEFINITION. The fronthaul ports: timed transmit (R396, R397), reception (R398, R399) and time (R400, R401, R449). -/

namespace Sys2Proof.Machine

/-! ### Block floating point (R397, R399) -/

/-- The 24 components of a PRB: 12 ci16 words, I then Q. -/
def prbComponents (bs : List Byte) : List Int :=
  (List.range 24).map fun i => toSigned 16 (leVal ((bs.drop (2 * i)).take 2))

/-- floor(x·2^−e + 1/2). -/
def bfpScale (e : Nat) (x : Int) : Int := if e = 0 then x else (x + (2 ^ (e - 1) : Nat)) / (2 ^ e : Nat)

/-- The exponent: the least from 0 to 15 for which every magnitude fits m bits. -/
def bfpExp (m : Nat) (xs : List Int) : Nat :=
  ((List.range 16).find? fun e => xs.all fun x => decide ((bfpScale e x).natAbs < 2 ^ (m - 1))).getD 15

/-- `m` bits of a number, most significant first. -/
def msbBits (m : Nat) (x : Nat) : List Bool := ((List.range m).map x.testBit).reverse

/-- Whole bytes of bits packed most significant first. -/
def msbBytes : Nat → List Bool → List Byte
  | 0, _ => []
  | n + 1, bs => BitVec.ofNat 8 ((bs.take 8).foldl (fun x b => 2 * x + (if b then 1 else 0)) 0) :: msbBytes n (bs.drop 8)

/-- Components as m-bit fields. -/
def packFields (m : Nat) (xs : List Int) : List Byte :=
  let h : Int := (2 ^ (m - 1) : Nat)
  msbBytes (3 * m) (xs.flatMap fun x => msbBits m (wrapBits m (clampInt (-h) (h - 1) x)))

/-- A compressed PRB: 1 + 3m bytes. -/
def bfpPrb (m : Nat) (xs : List Int) : List Byte :=
  let e := bfpExp m xs
  BitVec.ofNat 8 e :: packFields m (xs.map (bfpScale e))

/-- Field `i` of m-bit fields, sign-extended. -/
def msbField (m : Nat) (bs : List Byte) (i : Nat) : Int :=
  let at_ (j : Nat) : Bool := ((bs.drop (j / 8)).headD 0).getLsbD (7 - j % 8)
  toSigned m ((List.range m).foldl (fun x j => 2 * x + (if at_ (m * i + j) then 1 else 0)) 0)

/-- Components as ci16 bytes. -/
def ci16Bytes (xs : List Int) : List Byte := xs.flatMap fun x => leBytes 2 (wrapBits 16 x)

/-- A decompressed PRB (R399). -/
def bfpExpand (m : Nat) (bs : List Byte) : List Byte :=
  let e := (bs.headD 0).toNat % 16
  ci16Bytes ((List.range 24).map fun i => sat16 (msbField m (bs.drop 1) i * (2 ^ e : Nat)))

/-! ### Transmit (R396) -/

/-- TXTIME, and the end of the launch window. -/
def Cmd.txTime (c : Cmd) : Nat := dw c.words 3
def Cmd.txEnd (c : Cmd) : Nat := let w := bits (dw c.words 4) 47 32; c.txTime + (if w = 0 then 1000 else w)

/-- Big-endian bytes. -/
def beBytes (n v : Nat) : List Byte := (leBytes n v).reverse

/-- The eCPRI message (revision 1): common header, PC_ID, SEQ_ID, and the body. -/
def ecpri (typ eaxc seq : Nat) (body : List Byte) : List Byte :=
  [0x10, BitVec.ofNat 8 typ] ++ beBytes 2 (4 + body.length) ++ beBytes 2 eaxc ++ [BitVec.ofNat 8 seq, 0x80] ++ body

/-- The O-RAN 7.2x application header and section header of a U-plane frame, with udCompHdr = (m, BFP or none). -/
def uplaneHeader (d5 : Nat) (bfp : Bool) : List Byte :=
  let m := bits d5 56 52
  [0x90, BitVec.ofNat 8 d5] ++ beBytes 2 (bits d5 11 8 * 4096 + bits d5 17 12 * 64 + bits d5 21 18)
    ++ beBytes 3 (bits d5 33 22 * 4096 + bits d5 43 34) ++ [BitVec.ofNat 8 (bits d5 51 44)]
    ++ [BitVec.ofNat 8 (m % 16 * 16 + (if bfp then 1 else 0)), 0]

/-- The payload of a U-plane frame. -/
def uplanePayload (m : Nat) (bfp : Bool) (prbs : Nat) (bs : List Byte) : List Byte :=
  (List.range prbs).flatMap fun i =>
    let xs := prbComponents ((bs.drop (48 * i)).take 48)
    if bfp then bfpPrb m xs else packFields m xs

/-- The Ethernet frame of a command (R396). -/
def Die.txFrame (d : Die) (c : Cmd) (bs : List Byte) : List Byte :=
  let port := engInst c.engine
  let d1 := dw c.words 1
  let d5 := dw c.words 5
  let flow := bits d1 55 48
  let eaxc := bits d1 47 32
  let seq := sget 0 d.ports.seqIds (65536 * port + eaxc) % 256
  let macs := Config.flowMac port flow ++ Config.portMac port
  let l2 := macs ++ Config.flowTag port flow ++ [0xAE, 0xFE]
  let bfp := bits d1 8 8 == 1
  match c.op with
  | 0 => l2 ++ ecpri 0 eaxc seq (uplaneHeader d5 bfp ++ uplanePayload (bits d5 56 52) bfp (bits d5 51 44) bs)
  | 1 => l2 ++ ecpri 2 eaxc seq bs
  | _ => macs ++ bs

/-- SEQ_ID of an eAxC advances; raw frames carry none. -/
def Die.bumpSeq (d : Die) (c : Cmd) : Die :=
  if c.op = 2 then d
  else
    let k := 65536 * engInst c.engine + bits (dw c.words 1) 47 32
    { d with ports := { d.ports with seqIds := sset 0 d.ports.seqIds k ((sget 0 d.ports.seqIds k + 1) % 256) } }

/-- A command is past its window. -/
def Die.txLate (d : Die) (c : Cmd) : Bool := decide (c.txEnd < d.dtime)

/-- TX_UPLANE, TX_CPLANE, TX_RAW_FRAME: the payload is read and the frame built. -/
def Die.txBuild (d : Die) (c : Cmd) : Die :=
  if c.frame ≠ [] then d
  else if d.txLate c then d.finishCmd c 4 0 0 0
  else d.readArg c 2 (bits (dw c.words 4) 31 0) fun bs d =>
    (d.bumpSeq c).setCmd c { c with frame := (d.txFrame c bs).map BitVec.toNat }

def execTxUplane (engine : Nat) (s : State) : Out := ok (s.coding engine 4 0 Die.txBuild)
def execTxCplane (engine : Nat) (s : State) : Out := ok (s.coding engine 4 1 Die.txBuild)
def execTxRawFrame (engine : Nat) (s : State) : Out := ok (s.coding engine 4 2 Die.txBuild)

/-- The first unfinished command of a transmit engine. -/
def Die.txCmd (d : Die) (engine : Nat) : Option Cmd :=
  if engClass engine ≠ 4 then none else d.cmds.find? fun c => c.engine == engine && c.done.isNone

/-- TX_LAUNCH: from TXTIME to the end of the window the built frame leaves; its first bit at TXTIME, or at once where the command was accepted
after it. -/
def Die.txLaunch (d : Die) (engine : Nat) : Die :=
  match d.txCmd engine with
  | none => d
  | some c =>
    if c.frame = [] ∨ d.dtime < c.txTime ∨ d.txLate c then d
    else
      let t := Nat.max c.txTime c.accepted
      { d.finishCmd c 0 c.frame.length t 0 with
        ports := { d.ports with frames := ⟨engInst engine, t, c.frame⟩ :: d.ports.frames } }

def execTxLaunch (engine : Nat) (s : State) : Out := ok (s.modDie fun d => d.txLaunch engine)

/-- TX_LATE: the window has passed; nothing is sent. -/
def Die.txExpire (d : Die) (engine : Nat) : Die :=
  match d.txCmd engine with
  | none => d
  | some c => if d.txLate c then d.finishCmd c 4 0 0 0 else d

def execTxLate (engine : Nat) (s : State) : Out := ok (s.modDie fun d => d.txExpire engine)

/-! ### Reception (R398) -/

/-- Rule r of port p (Table 20.7): 128 bits. -/
def Die.rule (d : Die) (p r : Nat) : Nat :=
  let a := 0x200005000000 + 0x1000 * p + 16 * r
  d.reg (a + 8) * 2 ^ 64 + d.reg a

/-- A rule matches a section of a plane. -/
def ruleMatches (x : Nat) (cplane : Bool) (eaxc sym prb : Nat) : Bool :=
  bits x 64 64 == 1 && (bits x 67 66 == 2 || bits x 67 66 == (if cplane then 1 else 0))
    && (eaxc ^^^ bits x 127 112) &&& bits x 111 96 == 0
    && decide (bits x 95 92 ≤ sym ∧ sym ≤ bits x 91 88) && decide (bits x 87 78 ≤ prb ∧ prb ≤ bits x 77 68)

/-- The first rule that matches. -/
def Die.classify (d : Die) (p : Nat) (cplane : Bool) (eaxc sym prb : Nat) : Option Nat :=
  ((List.range 64).map (d.rule p)).find? fun x => ruleMatches x cplane eaxc sym prb

/-- A frame or section is dropped and counted. -/
def Die.portDrop (d : Die) (p : Nat) : Die :=
  { d with ports := { d.ports with drops := sset 0 d.ports.drops p (sget 0 d.ports.drops p + 1) } }

/-- One section of a U-plane frame (R398, R399). `comp` is its compression header: the width over the method, 0 none and 1 BFP; where the rule
says that sections carry none, its method with the rule's width. -/
def Die.uplane (d : Die) (p eaxc sym prb num comp : Nat) (bs : List Byte) : Die :=
  match d.classify p false eaxc sym prb with
  | none => d.portDrop p
  | some x =>
    let w := if bits x 48 48 = 1 then comp / 16 % 16 else bits x 53 49
    let m := if w = 0 then 16 else w
    let method := comp % 16
    let ring := bits x 57 54
    let put (flags : Nat) (pay : List Byte) : Die := d.berthPlace (bits x 63 58) ring flags eaxc sym prb pay
    if num = 0 then d.portDrop p
    else if bits x 65 65 = 0 ∧ method = 1 then
      if bs.length ≠ num * (1 + 3 * m) then d.portDrop p
      else put 0 ((List.range num).flatMap fun i => bfpExpand m ((bs.drop ((1 + 3 * m) * i)).take (1 + 3 * m)))
    else if bits x 65 65 = 0 ∧ method = 0 ∧ m = 16 then
      if bs.length ≠ 48 * num then d.portDrop p
      else put 0 (ci16Bytes ((List.range (24 * num)).map (msbField 16 bs)))
    else put 4 bs

def execEcpriUplaneFrame (port eaxc sym startPrb numPrb comp : Nat) (bytes : List Nat) (s : State) : Out :=
  ok (s.modDie fun d => d.uplane (port % 16) (eaxc % 2 ^ 16) (sym % 16) (startPrb % 2 ^ 10) numPrb comp (bytes.map (BitVec.ofNat 8)))

/-- A C-plane frame: one record with its eCPRI payload unchanged. -/
def Die.cplane (d : Die) (p eaxc sym prb : Nat) (bs : List Byte) : Die :=
  match d.classify p true eaxc sym prb with
  | none => d.portDrop p
  | some x => d.berthPlace (bits x 63 58) (bits x 57 54) 8 eaxc sym prb bs

def execEcpriCplaneFrame (port eaxc sym startPrb : Nat) (bytes : List Nat) (s : State) : Out :=
  ok (s.modDie fun d => d.cplane (port % 16) (eaxc % 2 ^ 16) (sym % 16) (startPrb % 2 ^ 10) (bytes.map (BitVec.ofNat 8)))

/-- The answer to a one-way delay measurement (R398), with the layout of eCPRI 2.0 (log 18): the measurement's ID, action 1, the time of its
arrival in seconds and ns, and the quarters of a ns beyond it as a compensation value in units of 2^−16 ns. -/
def delayAnswer (id time quarter : Nat) : List Byte :=
  [0x10, 5, 0, 20, BitVec.ofNat 8 id, 1] ++ beBytes 6 (time / 10 ^ 9) ++ beBytes 4 (time % 10 ^ 9) ++ beBytes 8 (quarter * 2 ^ 14)

/-- A one-way delay measurement is answered by the port itself (R398). -/
def execEcpriDelayMeasurement (port id : Nat) (s : State) : Out :=
  ok (s.modDie fun d => { d with ports := { d.ports with
    frames := ⟨port % 16, d.dtime, (delayAnswer id d.dtime (Config.quarter d.clock % 4)).map BitVec.toNat⟩ :: d.ports.frames } })

def execUnmatchedFrame (port : Nat) (s : State) : Out := ok (s.modDie fun d => d.portDrop (port % 16))

/-! ### Time (R400, R401, R449) -/

/-- `FHTSTAT`. -/
def fhtstat : Nat := 0x200005010000

/-- STATE of the servo. -/
def Die.servo (d : Die) : Nat := d.reg fhtstat % 4

/-- Set STATE. -/
def Die.setServo (d : Die) (n : Nat) : Die := d.setReg fhtstat (putBits (d.reg fhtstat) 1 0 n)

/-- `TWCTL`.TSRC: the part takes its phase from its twin. -/
def Die.tsrc (d : Die) : Bool := d.reg 0x20000C010000 % 2 == 1

/-- PTP_EVENT_FRAME: the servo measures how far the grandmaster is ahead of `DTIME`, in signed ns. FREERUN becomes ACQUIRING; ACQUIRING makes its
one forward step and is LOCKED once the servo holds; HOLDOVER returns to LOCKED. Backward corrections slew, which is part of how `DTIME`
advances. -/
def Die.ptp (d : Die) (offset : Nat) (locked : Bool) : Die :=
  let d := d.setReg fhtstat (putBits (d.reg fhtstat) 63 32 offset)
  if d.tsrc then d
  else match d.servo with
    | 0 => d.setServo 1
    | 1 => if locked then { d.setServo 2 with dtime := d.dtime + (toSigned 64 (offset % 2 ^ 64)).toNat } else d
    | 3 => if locked then d.setServo 2 else d
    | _ => d

def execPtpEventFrame (_port offset : Nat) (locked : Bool) (s : State) : Out := ok (s.modDie fun d => d.ptp offset locked)

/-- SYNCE_LOCK_CHANGE. -/
def execSynceLockChange (locked : Bool) (s : State) : Out :=
  ok (s.modDie fun d => d.setReg fhtstat (putBits (d.reg fhtstat) 2 2 (if locked then 1 else 0)))

/-- PTP_HOLDOVER: LOCKED becomes HOLDOVER. -/
def execPtpHoldover (s : State) : Out := ok (s.modDie fun d => if d.servo = 2 then d.setServo 3 else d)

/-- TWIN_PTM_TIME: with TSRC set, the first phase from the twin makes the forward step of R401; later ones slew (R449). -/
def Die.twinPtm (d : Die) (time : Nat) : Die :=
  if d.tsrc && decide (d.servo < 2) then { d.setServo 2 with dtime := Nat.max d.dtime time } else d

def execTwinPtmTime (time : Nat) (s : State) : Out := ok (s.modDie fun d => d.twinPtm time)

end Sys2Proof.Machine
end

