-- ==== Sys2Proof/Machine/Polar.lean ====
section
/-! DEFINITION. Polar encoding and successive-cancellation list decoding (R395) by 3GPP TS 38.212 clauses 5.3.1 and 5.4.1. -/

namespace Sys2Proof.Machine

/-- A polar command's parameters. -/
structure Polar where
  dl : Bool
  crc : Nat
  k : Nat
  e : Nat
  deriving DecidableEq, Repr

namespace Polar

/-- The parameters of a command. -/
def ofCmd (ws : List Nat) : Polar := ⟨bits (dw ws 1) 8 8 == 1, bits (dw ws 1) 10 9, bits (dw ws 1) 41 32, bits (dw ws 5) 31 0⟩

/-- ⌈log2 x⌉. -/
def clog2 (x : Nat) : Nat := if x ≤ 1 then 0 else (x - 1).log2 + 1

/-- n of clause 5.3.1. -/
def logN (p : Polar) : Nat :=
  let c := clog2 p.e
  let n1 := if 8 * p.e ≤ 9 * 2 ^ (c - 1) ∧ 16 * p.k < 9 * p.e then c - 1 else c
  Nat.max 5 (Nat.min (Nat.min n1 (clog2 (8 * p.k))) (if p.dl then 9 else 10))

/-- N. -/
def size (p : Polar) : Nat := 2 ^ p.logN

/-- n_PC, and n_PC^wm. -/
def nPc (p : Polar) : Nat := if !p.dl && decide (18 ≤ p.k ∧ p.k ≤ 25) then 3 else 0
def nWm (p : Polar) : Nat := if p.nPc ≠ 0 ∧ p.k + 189 < p.e then 1 else 0

/-- P of the sub-block interleaver (TS 38.212 Table 5.4.1.1-1). -/
def subPattern : List Nat :=
  [0, 1, 2, 4, 3, 5, 6, 7, 8, 16, 9, 17, 10, 18, 11, 19, 12, 20, 13, 21, 14, 22, 15, 23, 24, 25, 26, 28, 27, 29, 30, 31]

/-- J(n). -/
def sub (p : Polar) (n : Nat) : Nat :=
  let w := p.size / 32
  subPattern.getD (n / w) 0 * w + n % w

/-- The block is punctured; otherwise, where E is below N, it is shortened. -/
def punctured (p : Polar) : Bool := decide (16 * p.k ≤ 7 * p.e)

/-- The bits that rate matching freezes (clause 5.4.1.1). -/
def frozenByRate (p : Polar) (i : Nat) : Bool :=
  let n := p.size
  if n ≤ p.e then false
  else if p.punctured then
    ((List.range (n - p.e)).any fun x => p.sub x == i) ||
      (if 3 * n ≤ 4 * p.e then decide (4 * i < 3 * n - 2 * p.e) else decide (16 * i < 9 * n - 4 * p.e))
  else (List.range (n - p.e)).any fun x => p.sub (p.e + x) == i

/-- Bit indices below N that are not frozen by rate matching, by rising reliability. -/
def reliable (p : Polar) : List Nat :=
  ((List.range 1024).map Config.polarSequence).filter fun i => decide (i < p.size) && !p.frozenByRate i

/-- Q_I, by rising reliability. -/
def infoSet (p : Polar) : List Nat :=
  let q := p.reliable
  q.drop (q.length - (p.k + p.nPc))

/-- log2 of the weight of a row of G_N. -/
def rowWeight (i : Nat) : Nat := (List.range 10).countP i.testBit

/-- The parity-check bits (clause 5.3.1.2). -/
def pcSet (p : Polar) : List Nat :=
  let q := p.infoSet
  let rest := q.drop p.nPc
  let least := rest.foldl (fun m i => Nat.min m (rowWeight i)) 10
  q.take (p.nPc - p.nWm) ++ ((rest.filter fun i => rowWeight i == least).reverse.take p.nWm)

/-- x · G_N, with G_N the n-th Kronecker power of [[1, 0], [1, 1]]. -/
def transform : Nat → List Bool → List Bool
  | 0, x => x
  | n + 1, x =>
    let a := transform n (x.take (2 ^ n))
    let b := transform n (x.drop (2 ^ n))
    (a.zip b).map (fun y => xor y.1 y.2) ++ b

/-- The positions of the information bits after the interleaving of clause 5.3.1.1. -/
def interleaver (p : Polar) : List Nat :=
  if p.dl && decide (p.k ≤ 164) then
    ((List.range 164).map Config.polarPattern).filterMap fun m => if 164 - p.k ≤ m then some (m - (164 - p.k)) else none
  else List.range p.k

/-- u: information, parity-check and frozen bits (clause 5.3.1.2). -/
def place (p : Polar) (c : List Bool) : List Bool :=
  let q := p.infoSet
  let pc := p.pcSet
  ((List.range p.size).foldl (fun (x : List Bool × List Bool × List Bool) n =>
    -- bits placed (last first), information left, the five-bit register y0 .. y4
    let y := if p.nPc = 0 then x.2.2 else x.2.2.drop 1 ++ x.2.2.take 1
    if pc.contains n then ((y.headD false) :: x.1, x.2.1, y)
    else if q.contains n then
      let b := x.2.1.headD false
      (b :: x.1, x.2.1.drop 1, xor (y.headD false) b :: y.drop 1)
    else (false :: x.1, x.2.1, y)) ([], c, List.replicate 5 false)).1.reverse

/-- The place in the coded block of each rate-matched bit (clause 5.4.1.2), before channel interleaving. -/
def selected (p : Polar) (i : Nat) : Nat :=
  let n := p.size
  p.sub (if n ≤ p.e then i % n else if p.punctured then i + (n - p.e) else i)

/-- T of the channel interleaver. -/
def side (p : Polar) : Nat := ((List.range 130).find? fun t => decide (p.e ≤ t * (t + 1) / 2)).getD 130

/-- The order in which the channel interleaver sends the rate-matched bits (clause 5.4.1.3). -/
def channel (p : Polar) : List Nat :=
  if p.dl then List.range p.e
  else
    let t := p.side
    -- row i begins at the sum of the lengths of the rows above it
    let start (i : Nat) : Nat := i * t - i * (i - 1) / 2
    (List.range t).flatMap fun j => ((List.range (t - j)).map fun i => start i + j).filter (· < p.e)

/-- The E bits of K information bits. -/
def encode (p : Polar) (c : List Bool) : List Bool :=
  let c' := p.interleaver.map fun i => c.getD i false
  let d := transform p.logN (p.place c')
  p.channel.map fun i => d.getD (p.selected i) false

/-! ### Decoding -/

/-- The LLRs of the coded block: repeated bits add, punctured bits are 0 and shortened ones, known to be 0, take the largest value. -/
def blockLlr (p : Polar) (llr : List Int) : List Int :=
  let m := (p.channel.zip llr).foldl (fun (m : List (Nat × Int)) x =>
    sset 0 m (p.selected x.1) (clampInt (-511) 511 (sget 0 m (p.selected x.1) + x.2))) []
  (List.range p.size).map fun i =>
    if p.e < p.size ∧ !p.punctured ∧ p.frozenByRate i then 511 else sget 0 m i

/-- f and g of R395. -/
def f (a b : Int) : Int := a.sign * b.sign * (Nat.min a.natAbs b.natAbs : Nat)
def g (a b : Int) (u : Bool) : Int := clampInt (-511) 511 (b + (if u then -a else a))

/-- The LLR of bit `u.length` after the bits `u`, over a block of 2^n. -/
def leaf : Nat → List Int → List Bool → Int
  | 0, l, _ => l.headD 0
  | n + 1, l, u =>
    let a := l.take (2 ^ n)
    let b := l.drop (2 ^ n)
    if u.length < 2 ^ n then leaf n ((a.zip b).map fun x => f x.1 x.2) u
    else
      let v := transform n (u.take (2 ^ n))
      leaf n ((a.zip (b.zip v)).map fun x => g x.1 x.2.1 x.2.2) (u.drop (2 ^ n))

/-- A path: its metric and its bits, first bit first. -/
abbrev Path := Nat × List Bool

/-- Extend a path by a bit. -/
def extend (p : Polar) (l : List Int) (x : Path) (b : Bool) : Path :=
  let v := leaf p.logN l x.2
  (if v ≠ 0 ∧ decide (v < 0) ≠ b then Nat.min (2 ^ 15 - 1) (x.1 + v.natAbs) else x.1, x.2 ++ [b])

/-- Keep the eight least metrics; equal metrics keep the lower index. -/
def prune (ps : List Path) : List Path :=
  let xs := (List.range ps.length).zip ps
  let rank (x : Nat × Path) : Nat := xs.countP fun y => decide (y.2.1 < x.2.1 ∨ (y.2.1 = x.2.1 ∧ y.1 < x.1))
  (xs.filter fun x => decide (rank x < 8)).map (·.2)

/-- The paths after every bit. Parity-check bits are decided as information is, and checked at the end. -/
def paths (p : Polar) (l : List Int) : List Path :=
  let q := p.infoSet
  (List.range p.size).foldl (fun ps n =>
    if q.contains n then prune (ps.flatMap fun x => [p.extend l x false, p.extend l x true])
    else ps.map fun x => p.extend l x false) [(0, [])]

/-- The K information bits of a path, in their order before interleaving. -/
def infoOf (p : Polar) (u : List Bool) : List Bool :=
  let pc := p.pcSet
  let q := p.infoSet
  let c' := ((List.range p.size).filter fun n => q.contains n && !pc.contains n).map fun n => u.getD n false
  (List.range p.k).map fun i => (p.interleaver.zip c').foldl (fun b x => if x.1 = i then x.2 else b) false

/-- The CRC of a code holds: 0 none, 1 CRC6, 2 CRC11, 3 CRC24C (TS 38.212 clause 5.1). -/
def crcHolds (code : Nat) (bs : List Bool) : Bool :=
  match code with
  | 0 => true
  | 1 => Machine.crc 6 0x21 bs == 0
  | 2 => Machine.crc 11 0x621 bs == 0
  | _ => Machine.crc 24 0xB2B117 bs == 0

/-- A path satisfies the parity-check constraints. -/
def pcHolds (p : Polar) (u : List Bool) : Bool :=
  let pc := p.pcSet
  let q := p.infoSet
  p.place (((List.range p.size).filter fun n => q.contains n && !pc.contains n).map fun n => u.getD n false) == u

/-- The least metric of a list of numbered paths, the lower index first. -/
def best (xs : List (Nat × Path)) : Option (Nat × Path) :=
  xs.foldl (fun m x => match m with
    | none => some x
    | some y => if x.2.1 < y.2.1 then some x else m) none

/-- The decision: the path taken, its information bits, and whether one passed. -/
def decode (p : Polar) (llr : List Int) : Nat × List Bool × Bool :=
  let ps := p.paths (p.blockLlr llr)
  let xs := (List.range ps.length).zip ps
  match best (xs.filter fun x => crcHolds p.crc (p.infoOf x.2.2) && p.pcHolds x.2.2) with
  | some x => (x.1, p.infoOf x.2.2, true)
  | none => match best xs with
    | some x => (x.1, p.infoOf x.2.2, false)
    | none => (0, [], false)

end Polar

/-- POLAR_ENCODE: the K bits, CRC included, give the E bits (R395). -/
def Die.polarEncode (d : Die) (c : Cmd) : Die :=
  let p := Polar.ofCmd c.words
  d.probeArgs c [(2, (p.k + 7) / 8, .read), (3, (p.e + 7) / 8, .write)] fun d => d.readArg c 2 ((p.k + 7) / 8) fun bs d =>
    (d.writeArg c 3 (bitBytes (p.encode (unpackBits p.k bs)))).finishCmd c 0 p.e 0 0

/-- POLAR_DECODE: E LLRs give the K bits (R395, Table 20.2). -/
def Die.polarDecode (d : Die) (c : Cmd) : Die :=
  let p := Polar.ofCmd c.words
  d.probeArgs c [(2, p.e, .read), (3, (p.k + 7) / 8, .write)] fun d => d.readArg c 2 p.e fun bs d =>
    let r := p.decode (llrs bs)
    let held := p.crc != 0 && Polar.crcHolds p.crc r.2.1
    (d.writeArg c 3 (bitBytes r.2.1)).finishCmd c (if r.2.2 then 0 else 3) p.k (r.1 % 8 + (if held then 256 else 0)) 0

def execPolarEncode (engine : Nat) (s : State) : Out := ok (s.coding engine 3 0 Die.polarEncode)
def execPolarDecode (engine : Nat) (s : State) : Out := ok (s.coding engine 3 1 Die.polarDecode)

end Sys2Proof.Machine
end

