-- ==== Sys2Proof/Machine/Registers.lean ====
section
/-! DEFINITION. What a write of a memory-mapped register does when it reaches its block (R11), by address. -/

namespace Sys2Proof.Machine

/-- The doubleword that a narrower write stands for (R11): the bytes that it does not name carry their current value for RW bits, and
zero for W1C and WO bits. -/
def regMerge (rw pa size value : Nat) : Nat :=
  let lo := 8 * (pa % 8)
  putBits rw (Nat.min 63 (lo + 8 * size - 1)) lo value

/-- A write of a berth-ring register (R282). -/
def Die.berthWrite (d : Die) (firmware : Bool) (pa size value : Nat) : Die :=
  let c := (pa - 0x200001000000) / 0x10000
  let r := pa / 0x100 % 0x100
  let a := pa / 8 * 8
  if 16 ≤ r ∨ 0x200001400000 ≤ pa then d
  else match a % 0x100 with
    | 0x00 => d.brctlWrite c r (regMerge (d.reg a) pa size value) firmware
    | 0x08 => d.brbaseWrite c r (regMerge (d.reg a) pa size value)
    | _ => d

/-- A write of an L2 register (R308, R313): bit 63 of `L2ERR` releases what the bank holds. -/
def Die.l2RegWrite (d : Die) (pa size value : Nat) : Die :=
  let a := pa / 8 * 8
  if a = l2cfg then d.csmWrite (regMerge (bits (d.reg a) 3 0) pa size value)
  else if 0x200002001000 ≤ a ∧ a < 0x200002001400 then
    (if (regMerge 0 pa size value).testBit 63 then d.l2Discard ((a - 0x200002001000) / 8) else d)
  else d

/-- A write of a Timetable register (Table 19.4). -/
def Die.timetableWrite (d : Die) (pa size value : Nat) : Die :=
  let a := pa / 8 * 8
  let v := regMerge (d.reg a) pa size value
  if a < 0x200004002000 then
    match a % 32 with
    | 0 => d.jsrvWrite ((a - 0x200004000000) / 32) v
    | 24 => d.setReg a (bits v 47 12 * 2 ^ 12)
    | _ => d
  else if 0x200004002010 ≤ a ∧ a < 0x2000040020D0 then
    (if a % 16 = 0 then d.setReg a (bits v 47 32 * 2 ^ 32 + v % 2 ^ 16) else d.setReg a (bits v 47 19 * 2 ^ 19))
  else if 0x200004003000 ≤ a ∧ a < 0x200004004000 then
    (if a % 16 = 0 then d.setReg a (bits v 53 2 * 4) else d.setReg a v)
  else d

/-- A write of a classification rule (Table 20.7). -/
def Die.ruleWrite (d : Die) (pa size value : Nat) : Die :=
  let a := pa / 8 * 8
  let v := regMerge (d.reg a) pa size value
  if a < 0x200005010000 ∧ a % 0x1000 < 0x400 then d.setReg a (if a % 16 = 0 then bits v 63 48 * 2 ^ 48 else v) else d

/-- A write of a memory register: `MREG` (R427) or `MKEY` (R425). -/
def Die.memoryWrite (d : Die) (pa size value : Nat) : Die :=
  let a := pa / 8 * 8
  if a < 0x200008008000 then
    d.mregWrite ((a - 0x200008000000) / 0x1000) (a / 8 % 512) (regMerge (d.reg a) pa size value)
  else if a < 0x200008009000 then
    (if regMerge 0 pa size value % 2 = 1 then d.keyRegen ((a - 0x200008008000) / 8) else d)
  else d

/-- A write of a firmware register: `FWHO` and the error log's control (R434, R436). -/
def Die.firmwareWrite (d : Die) (pa size value : Nat) : Die :=
  let a := pa / 8 * 8
  if a = fwho then d.fwhoWrite (regMerge (d.reg a / 4 * 4) pa size value)
  else if a = 0x20000A000200 then d.ringControlWrite a 0x20000A000208 (regMerge (d.reg a) pa size value)
  else d

/-- A write of a power register (R435). -/
def Die.powerWrite (d : Die) (pa size value : Nat) : Die :=
  let a := pa / 8 * 8
  let v := regMerge (d.reg a) pa size value
  if a = 0x20000B000000 then d.pwrcapWrite v
  else if a ≤ 0x20000B000060 then d.setReg a (v % 2 ^ 16)
  else d

/-- A write of a fabric register: `HVF` (Table 24.2) or `TWCTL` (Table 24.5). -/
def Die.fabricWrite (d : Die) (pa size value : Nat) : Die :=
  let a := pa / 8 * 8
  let v := regMerge (d.reg a) pa size value
  if a < 0x20000C000800 then d.setReg a (bits v 63 19 * 2 ^ 19)
  else if a = twctl then d.setReg a (putBits (d.reg a) 0 0 v)
  else d

/-- A write of a register of the translation block: `XDIR`, `XHLOG`; `XHWP` is read only (R337, R356). -/
def State.translationWrite (s : State) (pa size value : Nat) : State :=
  let a := pa / 8 * 8
  let v := regMerge (s.die.reg a) pa size value
  if a < 0x200003001000 then s.xdirWrite s.meId ((a - 0x200003000000) / 8) v
  else if a < 0x200003002000 then s.modDie fun d => d.xhlogWrite ((a - 0x200003001000) / 8) v
  else s

/-- A write of a register of the Clearance block: the order slots and the log's control (R408, R418). -/
def State.clearanceWrite (s : State) (pa size value : Nat) : State :=
  let a := pa / 8 * 8
  if a < 0x200007000400 then
    s.clrWrite pa (regMerge (if a % 64 = 0x18 then s.die.reg a / 2 ^ 24 * 2 ^ 24 else s.die.reg a) pa size value)
  else if a = 0x200007001000 then s.modDie fun d => d.ringControlWrite a 0x200007001008 (regMerge (d.reg a) pa size value)
  else s

/-- A write that has reached its register block (R11): every other address of a block is RSV. -/
def State.regWrite (s : State) (firmware : Bool) (pa size value : Nat) : State :=
  match mmioBlock pa with
  | 1 => s.modDie fun d => d.berthWrite firmware pa size value
  | 2 => s.modDie fun d => d.l2RegWrite pa size value
  | 3 => s.translationWrite pa size value
  | 4 => s.modDie fun d => d.timetableWrite pa size value
  | 5 => s.modDie fun d => d.ruleWrite pa size value
  | 6 => s.modDie fun d =>
    if pa < 0x200006100000 then d.accessWrite pa (regMerge (d.reg (pa / 8 * 8)) pa size value)
    else d.partitionWrite pa (regMerge (d.reg (pa / 8 * 8)) pa size value)
  | 7 => s.clearanceWrite pa size value
  | 8 => s.modDie fun d => d.memoryWrite pa size value
  | 10 => s.modDie fun d => d.firmwareWrite pa size value
  | 11 => s.modDie fun d => d.powerWrite pa size value
  | 12 => s.modDie fun d => d.fabricWrite pa size value
  | _ => s

/-- REGISTER_WRITE: a write of `size` bytes, 1, 2, 4 or 8, naturally aligned, that an owner makes at supervisor privilege; owner 0x000 is
firmware. A refusal is an error record (R89). -/
def execRegisterWrite (owner addr size value : Nat) (s : State) : Out :=
  let n := if size = 1 ∨ size = 2 ∨ size = 4 then size else 8
  let a := addr / n * n
  let o := owner % 512
  if s.die.target a ≠ .mmio then ok (s.modDie fun d => d.errorRecord 0x10 2048 a)
  else if !s.mmioAdmits o .supervisor a true || (o != 0 && !mayWrite o a) then ok (s.modDie fun d => d.errorRecord 0x12 2048 a)
  else ok (s.regWrite (o == 0) a n value)

end Sys2Proof.Machine
end

