-- ==== Sys2Proof/Machine/Vsig.lean ====
section
/-! DEFINITION. VSIG (R150 to R162): complex multiply, magnitude, conjugate, butterflies, 2 × 2 inversion and Q15. -/

namespace Sys2Proof.Machine

/-- A complex value. -/
structure CV where
  re : FV
  im : FV
  deriving DecidableEq, Repr

/-- The exact components of a complex element; a ci16 component is the integer it holds (R152). -/
def Tag.cvalue (t : Tag) (x : Nat) : CV :=
  match t.split x with
  | re :: im :: _ => ⟨t.comp.value re, t.comp.value im⟩
  | _ => ⟨.nan false, .nan false⟩

/-- Conjugate and negate modifiers, exact sign changes (R42). -/
def CV.conjIf (c : Bool) (x : CV) : CV := ⟨x.re, FV.negIf c x.im⟩
def CV.negIf (c : Bool) (x : CV) : CV := ⟨FV.negIf c x.re, FV.negIf c x.im⟩

/-- A component as an exact sum of products. -/
abbrev Terms := List (FV × FV)

/-- The terms of a product's components. -/
def CV.mulTerms (a b : CV) : Terms × Terms := ([(a.re, b.re), (a.im.neg, b.im)], [(a.re, b.im), (a.im, b.re)])

/-- Negated terms. -/
def Terms.neg (t : Terms) : Terms := t.map fun p => (p.1.neg, p.2)

/-- Multiplication by i to the q only exchanges components and changes signs (R42). -/
def rotTerms (q : Nat) (t : Terms × Terms) : Terms × Terms :=
  match q % 4 with
  | 0 => t
  | 1 => (Terms.neg t.2, t.1)
  | 2 => (Terms.neg t.1, Terms.neg t.2)
  | _ => (t.2, Terms.neg t.1)

/-- Round both components once into a complex tag (R42, R152). -/
def Rnd.complex (r : Rnd) (t : Tag) (re im : FV × Flags) : Nat × Flags :=
  let (x, f1) := r.into t.comp re.1
  let (y, f2) := r.into t.comp im.1
  (t.join [x, y], re.2 ||| im.2 ||| f1 ||| f2)

/-- The complex promoted types of the floating-point VSIG instructions (Table 6.2). -/
def floatComplex (p : Tag) : Bool := p == .cbf16 || p == .cf32

/-- VCMUL (R155). -/
def planCmul (n y x : Bool) (r : Rnd) (d a b : Nat) (c : VCtx) : Except Nat Plan := do
  let ta := c.tag a
  let tb := c.tag b
  let p := ta.promote tb
  let la := ta.orPromoted p
  let lb := tb.orPromoted p
  let dt := (c.tag d).orPromoted p
  let l ← checkLayout c.g true [(d, dt), (a, la), (b, lb)]
  failIf (!(p.any floatComplex) || !dt.isComplex) 0x20
  .ok ⟨⟨d, l.sizes.headD 1, dt, dt, l.half, 1, false⟩, fun e =>
    let q := CV.mulTerms (CV.negIf n (CV.conjIf x (la.cvalue (c.elem a la e)))) (CV.conjIf y (lb.cvalue (c.elem b lb e)))
    r.complex dt (dotFV [] q.1) (dotFV [] q.2)⟩

/-- VCMAC (R155): NEG negates the product only; a raw vd faults, after the checks of a layout in which it counts as the promoted type (R32,
R152). Raw va and vb take the type of vd (log 69). -/
def planCmac (n y x : Bool) (r : Rnd) (d a b : Nat) (c : VCtx) : Except Nat Plan := do
  let ta := c.tag a
  let tb := c.tag b
  let td := c.tag d
  let p := (ta.promote tb).bind (·.promote td)
  let la := ta.orPromoted p
  let lb := tb.orPromoted p
  let l ← checkLayout c.g true [(d, td.orPromoted p), (a, la), (b, lb)]
  failIf (!(p.any floatComplex) || !td.isComplex) 0x20
  .ok ⟨⟨d, l.sizes.headD 1, td, td, l.half, 1, false⟩, fun e =>
    let q := CV.mulTerms (CV.negIf n (CV.conjIf x (la.cvalue (c.elem a la e)))) (CV.conjIf y (lb.cvalue (c.elem b lb e)))
    let acc := td.cvalue (c.elem d td e)
    r.complex td (dotFV [acc.re] q.1) (dotFV [acc.im] q.2)⟩

def execVcmul (d a b : Fin 32) (z n y x : Bool) (s : State) : Out :=
  s.elementWise (encode (.vcmul d a b z n y x)) (planCmul n y x (s.rnd z) d a b)
def execVcmac (d a b : Fin 32) (z n y x : Bool) (s : State) : Out :=
  s.elementWise (encode (.vcmac d a b z n y x)) (planCmac n y x (s.rnd z) d a b)

/-- VCMAG2 (R156): an f32 word a complex element. vd = va passes the overlap check and then fails the tags of Table 6.2 (log 69). -/
def planMag2 (r : Rnd) (d a : Nat) (c : VCtx) : Except Nat Plan := do
  let ta := c.tag a
  let l ← checkLayout c.g true [(d, .f32), (a, ta)]
  failIf (!ta.isComplex || !(c.tag d == .f32 || c.tag d == .raw)) 0x20
  .ok ⟨⟨d, l.sizes.headD 1, .f32, .f32, l.half, 1, false⟩, fun e =>
    let x := ta.cvalue (c.elem a ta e)
    let (v, fl) := dotFV [] [(x.re, x.re), (x.im, x.im)]
    let (q, f2) := r.into .f32 v
    (q, fl ||| f2)⟩

def execVcmag2 (d a : Fin 32) (z : Bool) (s : State) : Out := s.elementWise (encode (.vcmag2 d a z)) (planMag2 (s.rnd z) d a)

/-- The imaginary component of VCONJ: the sign bit inverted, or `sat16`(−im) for ci16 (R157). -/
def conjIm (t : Tag) (x : Nat) : Nat :=
  if t = .ci16 then wrapBits 16 (sat16 (-toSigned 16 x)) else x ^^^ 2 ^ (t.comp.ebits - 1)

/-- VCONJ (R157): (re, −im), converted to vd's tag by R132. -/
def planConj (r : Rnd) (d a : Nat) (c : VCtx) : Except Nat Plan := do
  let ta := c.tag a
  let dt := (c.tag d).orPromoted (some ta)
  let l ← checkLayout c.g true [(d, dt), (a, ta)]
  failIf (!ta.isComplex || !dt.isComplex) 0x20
  .ok ⟨⟨d, l.sizes.headD 1, dt, dt, l.half, 1, false⟩, fun e =>
    match ta.split (c.elem a ta e) with
    | re :: im :: _ => r.convertElem true ta dt (ta.join [re, conjIm ta im])
    | _ => (0, 0)⟩

def execVconj (d a : Fin 32) (z : Bool) (s : State) : Out := s.elementWise (encode (.vconj d a z)) (planConj (s.rnd z) d a)

/-! ### Blocks -/

/-- A block operand: its number, its groups and the registers of a group (R153). -/
structure Block where
  reg : Nat
  groups : Nat
  e : Nat
  deriving DecidableEq, Repr

/-- The registers of a block. -/
def Block.span (b : Block) : Span := ⟨b.reg, b.groups * b.e⟩

/-- The checks of R153 for blocks of radix `r`, the destination first, then va, then a butterfly's vb: a fault code, or none. -/
def blockFault (r : Nat) (mixed : Bool) (d a : Block) (b : Option Block) : Option Nat :=
  let bad (x : Block) : Bool := decide (8 < x.e ∨ 32 < r * x.e ∨ x.reg % (r * x.e) ≠ 0)
  if bad d || bad a || b.any bad then some 0x22
  else if d.span.overlaps a.span && (mixed || d.span != a.span) then some 0x21
  else if b.any fun x => d.span.overlaps x.span then some 0x21
  else none

/-- What a block instruction that passes its checks does: its destination groups with their elements. -/
structure BlockPlan where
  dests : List (Dest × (Nat → Nat × Flags))

/-- Write every destination group; every source is read in the context as it was (R154). -/
def VCtx.blockWise (c : VCtx) (p : BlockPlan) : VCtx × Flags :=
  p.dests.foldl (fun x d => let (y, fl) := c.elementInto x.1 d.1 d.2; (y, x.2 ||| fl)) (c, 0)

/-- A block instruction. -/
def State.blockWise (s : State) (word : Nat) (plan : VCtx → Except Nat BlockPlan) : Out :=
  s.vectorD word fun s =>
    match plan s.me.ctx with
    | .error c => .error c
    | .ok p => .ok (s.putCtx (s.me.ctx.blockWise p))

/-- Output k of a butterfly of radix r (R158, R159): the sum over m of i^(q·k·m)·w_m·x_m, with w_0 = 1; q is 2 for radix 2, 3 for the
forward and 1 for the inverse radix 4. -/
def butterfly (r : Rnd) (dt : Tag) (q k : Nat) (x : List CV) (w : List CV) : Nat × Flags :=
  match x with
  | [] => (0, 0)
  | x0 :: xs =>
    let ts := ((List.range xs.length).zip (w.zip xs)).map fun p => rotTerms (q * k * (p.1 + 1)) (CV.mulTerms p.2.1 p.2.2)
    r.complex dt (dotFV [x0.re] (ts.flatMap Prod.fst)) (dotFV [x0.im] (ts.flatMap Prod.snd))

/-- VBFLY2 and VBFLY4 (R153, R158, R159). -/
def planBfly (radix : Nat) (inv : Bool) (r : Rnd) (d a b : Nat) (c : VCtx) : Except Nat BlockPlan := do
  let ta := c.tag a
  let tb := c.tag b
  let p := ta.promote tb
  let la := ta.orPromoted p
  let lb := tb.orPromoted p
  let dt := (c.tag d).orPromoted p
  let l := layoutOf c.g [dt, la, lb]
  let ed := l.sizes.getD 0 1
  let ea := l.sizes.getD 1 1
  let eb := l.sizes.getD 2 1
  match blockFault radix l.mixed ⟨d, radix, ed⟩ ⟨a, radix, ea⟩ (some ⟨b, radix - 1, eb⟩) with
  | some f => .error f
  | none =>
    failIf (!(p.any floatComplex) || !dt.isComplex) 0x20
    let q := if radix = 2 then 2 else if inv then 1 else 3
    .ok ⟨(List.range radix).map fun k => (⟨d + k * ed, ed, dt, dt, l.half, 1, false⟩, fun e =>
      butterfly r dt q k ((List.range radix).map fun m => la.cvalue (c.elem (a + m * ea) la e))
        ((List.range (radix - 1)).map fun m => CV.conjIf inv (lb.cvalue (c.elem (b + m * eb) lb e))))⟩

def execVbfly2 (d a b : Fin 32) (i z : Bool) (s : State) : Out :=
  s.blockWise (encode (.vbfly2 d a b i z)) (planBfly 2 i (s.rnd z) d a b)
def execVbfly4 (d a b : Fin 32) (i z : Bool) (s : State) : Out :=
  s.blockWise (encode (.vbfly4 d a b i z)) (planBfly 4 i (s.rnd z) d a b)

/-! ### Inversion -/

/-- A finite exact complex value from its terms. -/
def exactCV (t : Terms × Terms) : CV := ⟨(dotFV [] t.1).1, (dotFV [] t.2).1⟩

/-- An exact quotient; an exact 0 gives +0 (R160). -/
def quotient (num den : FV) : FV × Flags := if num.isZero then (.fin false 0 0, 0) else num.div den

/-- Component pair `g` of the inverse of [[A, B], [C, D]] (R160). -/
def inverse2 (r : Rnd) (dt : Tag) (g : Nat) (A B C D : CV) : Nat × Flags :=
  let comps := [A, B, C, D].flatMap fun z => [z.re, z.im]
  let bad (fl : Flags) : Nat × Flags := r.complex dt (.nan false, fl) (.nan false, 0)
  if comps.any fun x => x.isNan || x.isInf then bad (flagIf (comps.any fun x => x.isSig || x.isInf) fNV)
  else
    let ad := CV.mulTerms A D
    let bc := CV.mulTerms (CV.negIf true B) C
    let det := exactCV (ad.1 ++ bc.1, ad.2 ++ bc.2)
    if det.re.isZero && det.im.isZero then bad fDZ
    else
      let q := match g with
        | 0 => D
        | 1 => CV.negIf true B
        | 2 => CV.negIf true C
        | _ => A
      let den := (dotFV [] [(det.re, det.re), (det.im, det.im)]).1
      let re := (dotFV [] [(q.re, det.re), (q.im, det.im)]).1
      let im := (dotFV [] [(q.im, det.re), (q.re.neg, det.im)]).1
      r.complex dt (quotient re den) (quotient im den)

/-- VCINV2 (R153, R160). -/
def planInv2 (r : Rnd) (d a : Nat) (c : VCtx) : Except Nat BlockPlan := do
  let ta := c.tag a
  let dt := (c.tag d).orPromoted (some ta)
  let l := layoutOf c.g [dt, ta]
  let ed := l.sizes.getD 0 1
  let ea := l.sizes.getD 1 1
  match blockFault 4 l.mixed ⟨d, 4, ed⟩ ⟨a, 4, ea⟩ none with
  | some f => .error f
  | none =>
    failIf (!floatComplex ta || !dt.isComplex) 0x20
    let x (m e : Nat) : CV := ta.cvalue (c.elem (a + m * ea) ta e)
    .ok ⟨(List.range 4).map fun g => (⟨d + g * ed, ed, dt, dt, l.half, 1, false⟩, fun e =>
      inverse2 r dt g (x 0 e) (x 1 e) (x 2 e) (x 3 e))⟩

def execVcinv2 (d a : Fin 32) (z : Bool) (s : State) : Out := s.blockWise (encode (.vcinv2 d a z)) (planInv2 (s.rnd z) d a)

/-! ### Q15 -/

/-- A component of R46: round half up at bit 15, then saturate. -/
def q15 (p : Int) : Nat := wrapBits 16 (sat16 ((p + 2 ^ 14) / 2 ^ 15))

/-- An element of VQMUL (R46, R161). -/
def qmul (n y x : Bool) (a b : Nat) : Nat :=
  let sgn (c : Bool) (v : Int) : Int := if c then -v else v
  let ar := sgn n (toSigned 16 (a % 65536))
  let ai := sgn (xor n x) (toSigned 16 (a / 65536))
  let br := toSigned 16 (b % 65536)
  let bi := sgn y (toSigned 16 (b / 65536))
  q15 (ar * br - ai * bi) + 65536 * q15 (ar * bi + ai * br)

/-- VQMUL (R161): both sources are ci16. -/
def planQmul (n y x : Bool) (d a b : Nat) (c : VCtx) : Except Nat Plan := do
  let p := (c.tag a).promote (c.tag b)
  let la := (c.tag a).orPromoted p
  let lb := (c.tag b).orPromoted p
  let dt := (c.tag d).orPromoted p
  let l ← checkLayout c.g true [(d, dt), (a, la), (b, lb)]
  failIf (!(c.tag a == .ci16 && c.tag b == .ci16 && dt == .ci16)) 0x20
  .ok ⟨⟨d, l.sizes.headD 1, dt, dt, false, 1, false⟩, fun e => (qmul n y x (c.elem a .ci16 e) (c.elem b .ci16 e), 0)⟩

def execVqmul (d a b : Fin 32) (n y x : Bool) (s : State) : Out :=
  s.elementWise (encode (.vqmul d a b n y x)) (planQmul n y x d a b)

/-- `q_shift` of R47. -/
def qShift (x s : Int) : Nat :=
  wrapBits 16 (sat16 (if s ≤ 0 then x * (2 ^ (Nat.min s.natAbs 17) : Nat)
    else (x + (2 ^ (Nat.min s.natAbs 17 - 1) : Nat)) / (2 ^ (Nat.min s.natAbs 17) : Nat)))

/-- VQSCL (R162): the shift is the signed scalar `sb`. -/
def planQscl (s : Int) (d a : Nat) (c : VCtx) : Except Nat Plan := do
  let ta := c.tag a
  let dt := (c.tag d).orPromoted (some ta)
  let l ← checkLayout c.g true [(d, ta), (a, ta)]
  failIf (!((ta == .ci16 || ta == .i16) && dt == ta)) 0x20
  .ok ⟨⟨d, l.sizes.headD 1, dt, dt, false, l.per, false⟩, fun e =>
    let x := c.elem a ta e
    if ta = .i16 then (qShift (toSigned 16 x) s, 0)
    else (qShift (toSigned 16 (x % 65536)) s + 65536 * qShift (toSigned 16 (x / 65536)) s, 0)⟩

def execVqscl (d a b : Fin 32) (s : State) : Out := s.elementWise (encode (.vqscl d a b)) (planQscl (s.reg b).toInt d a)

end Sys2Proof.Machine
end

