-- ==== Sys2Proof/Machine/Dispatch.lean ====
section
/-! DEFINITION. What executing an instruction or a machine event does: one arm per constructor of Instr, each a direct call of
its meaning. -/

namespace Sys2Proof.Machine

/-- Execute an instruction of the issuing strand, or a machine event. -/
def exec (i : Instr) (s : State) : Host.Outcome State Fault Refusal :=
  match i with
  | .add d a b w => Sys2Proof.Machine.execAdd d a b w s
  | .sub d a b w => Sys2Proof.Machine.execSub d a b w s
  | .and d a b => Sys2Proof.Machine.execAnd d a b s
  | .or d a b => Sys2Proof.Machine.execOr d a b s
  | .xor d a b => Sys2Proof.Machine.execXor d a b s
  | .andn d a b => Sys2Proof.Machine.execAndn d a b s
  | .orn d a b => Sys2Proof.Machine.execOrn d a b s
  | .sll d a b w => Sys2Proof.Machine.execSll d a b w s
  | .srl d a b w => Sys2Proof.Machine.execSrl d a b w s
  | .sra d a b w => Sys2Proof.Machine.execSra d a b w s
  | .rotr d a b w => Sys2Proof.Machine.execRotr d a b w s
  | .slt d a b => Sys2Proof.Machine.execSlt d a b s
  | .sltu d a b => Sys2Proof.Machine.execSltu d a b s
  | .min d a b => Sys2Proof.Machine.execMin d a b s
  | .max d a b => Sys2Proof.Machine.execMax d a b s
  | .minu d a b => Sys2Proof.Machine.execMinu d a b s
  | .maxu d a b => Sys2Proof.Machine.execMaxu d a b s
  | .mul d a b w => Sys2Proof.Machine.execMul d a b w s
  | .mulh d a b => Sys2Proof.Machine.execMulh d a b s
  | .mulhu d a b => Sys2Proof.Machine.execMulhu d a b s
  | .div d a b w => Sys2Proof.Machine.execDiv d a b w s
  | .divu d a b w => Sys2Proof.Machine.execDivu d a b w s
  | .rem d a b w => Sys2Proof.Machine.execRem d a b w s
  | .remu d a b w => Sys2Proof.Machine.execRemu d a b w s
  | .clz d a w => Sys2Proof.Machine.execClz d a w s
  | .ctz d a w => Sys2Proof.Machine.execCtz d a w s
  | .popc d a w => Sys2Proof.Machine.execPopc d a w s
  | .brev d a => Sys2Proof.Machine.execBrev d a s
  | .sext d a sd => Sys2Proof.Machine.execSext d a sd s
  | .zext d a sd => Sys2Proof.Machine.execZext d a sd s
  | .shadd d a b w => Sys2Proof.Machine.execShadd d a b w s
  | .cmovz d a b => Sys2Proof.Machine.execCmovz d a b s
  | .cmovnz d a b => Sys2Proof.Machine.execCmovnz d a b s
  | .addi d a imm => Sys2Proof.Machine.execAddi d a imm s
  | .andi d a imm => Sys2Proof.Machine.execAndi d a imm s
  | .ori d a imm => Sys2Proof.Machine.execOri d a imm s
  | .xori d a imm => Sys2Proof.Machine.execXori d a imm s
  | .slti d a imm => Sys2Proof.Machine.execSlti d a imm s
  | .sltiu d a imm => Sys2Proof.Machine.execSltiu d a imm s
  | .slli d a w n => Sys2Proof.Machine.execSlli d a w n s
  | .srli d a w n => Sys2Proof.Machine.execSrli d a w n s
  | .srai d a w n => Sys2Proof.Machine.execSrai d a w n s
  | .rotri d a w n => Sys2Proof.Machine.execRotri d a w n s
  | .luh d imm => Sys2Proof.Machine.execLuh d imm s
  | .pcadd d imm => Sys2Proof.Machine.execPcadd d imm s
  | .ld d a sd imm => Sys2Proof.Machine.execLd d a sd imm s
  | .st t a sd imm => Sys2Proof.Machine.execSt t a sd imm s
  | .lda d a w o sd => Sys2Proof.Machine.execLda d a w o sd s
  | .sta a b w o sd => Sys2Proof.Machine.execSta a b w o sd s
  | .swap d a b w o sd => Sys2Proof.Machine.execSwap d a b w o sd s
  | .cas d a b w o sd => Sys2Proof.Machine.execCas d a b w o sd s
  | .amoFadd d a b w o sd => Sys2Proof.Machine.execAmoFadd d a b w o sd s
  | .amoFand d a b w o sd => Sys2Proof.Machine.execAmoFand d a b w o sd s
  | .amoFor d a b w o sd => Sys2Proof.Machine.execAmoFor d a b w o sd s
  | .amoFxor d a b w o sd => Sys2Proof.Machine.execAmoFxor d a b w o sd s
  | .amoFmin d a b w o sd => Sys2Proof.Machine.execAmoFmin d a b w o sd s
  | .amoFmax d a b w o sd => Sys2Proof.Machine.execAmoFmax d a b w o sd s
  | .amoFminu d a b w o sd => Sys2Proof.Machine.execAmoFminu d a b w o sd s
  | .amoFmaxu d a b w o sd => Sys2Proof.Machine.execAmoFmaxu d a b w o sd s
  | .amoFaddf d a b o sd => Sys2Proof.Machine.execAmoFaddf d a b o sd s
  | .fadd d a b f z => Sys2Proof.Machine.execFadd d a b f z s
  | .fsub d a b f z => Sys2Proof.Machine.execFsub d a b f z s
  | .fmul d a b f z => Sys2Proof.Machine.execFmul d a b f z s
  | .fdiv d a b f z => Sys2Proof.Machine.execFdiv d a b f z s
  | .fsqrt d a f z => Sys2Proof.Machine.execFsqrt d a f z s
  | .fmin d a b f => Sys2Proof.Machine.execFmin d a b f s
  | .fmax d a b f => Sys2Proof.Machine.execFmax d a b f s
  | .fmadd d a b f z => Sys2Proof.Machine.execFmadd d a b f z s
  | .feq d a b f => Sys2Proof.Machine.execFeq d a b f s
  | .flt d a b f => Sys2Proof.Machine.execFlt d a b f s
  | .fle d a b f => Sys2Proof.Machine.execFle d a b f s
  | .fclass d a f => Sys2Proof.Machine.execFclass d a f s
  | .fcvtI d a f z t => Sys2Proof.Machine.execFcvtI d a f z t s
  | .fcvtF d a f z t => Sys2Proof.Machine.execFcvtF d a f z t s
  | .fcvt d a f z g => Sys2Proof.Machine.execFcvt d a f z g s
  | .beqz a o => Sys2Proof.Machine.execBeqz a o s
  | .bnez a o => Sys2Proof.Machine.execBnez a o s
  | .bltz a o => Sys2Proof.Machine.execBltz a o s
  | .bgez a o => Sys2Proof.Machine.execBgez a o s
  | .bgtz a o => Sys2Proof.Machine.execBgtz a o s
  | .blez a o => Sys2Proof.Machine.execBlez a o s
  | .beq a b o => Sys2Proof.Machine.execBeq a b o s
  | .bne a b o => Sys2Proof.Machine.execBne a b o s
  | .blt a b o => Sys2Proof.Machine.execBlt a b o s
  | .bge a b o => Sys2Proof.Machine.execBge a b o s
  | .bltu a b o => Sys2Proof.Machine.execBltu a b o s
  | .bgeu a b o => Sys2Proof.Machine.execBgeu a b o s
  | .j o => Sys2Proof.Machine.execJ o s
  | .jal o => Sys2Proof.Machine.execJal o s
  | .jalr d a imm => Sys2Proof.Machine.execJalr d a imm s
  | .fence sd k => Sys2Proof.Machine.execFence sd k s
  | .tlbinv c a b l => Sys2Proof.Machine.execTlbinv c a b l s
  | .csrr d c => Sys2Proof.Machine.execCsrr d c s
  | .csrw a c => Sys2Proof.Machine.execCsrw a c s
  | .csrset d a c => Sys2Proof.Machine.execCsrset d a c s
  | .csrclr d a c => Sys2Proof.Machine.execCsrclr d a c s
  | .csrswap d a c => Sys2Proof.Machine.execCsrswap d a c s
  | .send n a b => Sys2Proof.Machine.execSend n a b s
  | .sendc n a => Sys2Proof.Machine.execSendc n a s
  | .contid d n => Sys2Proof.Machine.execContid d n s
  | .spawn d a => Sys2Proof.Machine.execSpawn d a s
  | .jwait d => Sys2Proof.Machine.execJwait d s
  | .jdone a => Sys2Proof.Machine.execJdone a s
  | .jstat d a => Sys2Proof.Machine.execJstat d a s
  | .enq a b r => Sys2Proof.Machine.execEnq a b r s
  | .enqr n a r => Sys2Proof.Machine.execEnqr n a r s
  | .bararv t d => Sys2Proof.Machine.execBararv t d s
  | .barwt a d => Sys2Proof.Machine.execBarwt a d s
  | .brnext d a => Sys2Proof.Machine.execBrnext d a s
  | .brdone a => Sys2Proof.Machine.execBrdone a s
  | .setvl d a k => Sys2Proof.Machine.execSetvl d a k s
  | .loopv a => Sys2Proof.Machine.execLoopv a s
  | .nexts d => Sys2Proof.Machine.execNexts d s
  | .vrep r n => Sys2Proof.Machine.execVrep r n s
  | .vtag d t => Sys2Proof.Machine.execVtag d t s
  | .vmvx d a b => Sys2Proof.Machine.execVmvx d a b s
  | .vmvs d a b => Sys2Proof.Machine.execVmvs d a b s
  | .vadd d a b z => Sys2Proof.Machine.execVadd d a b z s
  | .vsub d a b z => Sys2Proof.Machine.execVsub d a b z s
  | .vrsub d a b z => Sys2Proof.Machine.execVrsub d a b z s
  | .vmul d a b z => Sys2Proof.Machine.execVmul d a b z s
  | .vmulh d a b z => Sys2Proof.Machine.execVmulh d a b z s
  | .vmin d a b z => Sys2Proof.Machine.execVmin d a b z s
  | .vmax d a b z => Sys2Proof.Machine.execVmax d a b z s
  | .vabs d a => Sys2Proof.Machine.execVabs d a s
  | .vneg d a => Sys2Proof.Machine.execVneg d a s
  | .vand d a b => Sys2Proof.Machine.execVand d a b s
  | .vor d a b => Sys2Proof.Machine.execVor d a b s
  | .vxor d a b => Sys2Proof.Machine.execVxor d a b s
  | .vandn d a b => Sys2Proof.Machine.execVandn d a b s
  | .vsll d a b => Sys2Proof.Machine.execVsll d a b s
  | .vsrl d a b => Sys2Proof.Machine.execVsrl d a b s
  | .vsra d a b => Sys2Proof.Machine.execVsra d a b s
  | .vsadd d a b z => Sys2Proof.Machine.execVsadd d a b z s
  | .vssub d a b z => Sys2Proof.Machine.execVssub d a b z s
  | .vavg d a b z => Sys2Proof.Machine.execVavg d a b z s
  | .vdiv d a b z => Sys2Proof.Machine.execVdiv d a b z s
  | .vcvt d a z => Sys2Proof.Machine.execVcvt d a z s
  | .vcmpeq d a b => Sys2Proof.Machine.execVcmpeq d a b s
  | .vcmpne d a b => Sys2Proof.Machine.execVcmpne d a b s
  | .vcmplt d a b => Sys2Proof.Machine.execVcmplt d a b s
  | .vcmple d a b => Sys2Proof.Machine.execVcmple d a b s
  | .vsel d a b => Sys2Proof.Machine.execVsel d a b s
  | .vmrg d a b => Sys2Proof.Machine.execVmrg d a b s
  | .vclass d a => Sys2Proof.Machine.execVclass d a s
  | .vaddVs d a b z => Sys2Proof.Machine.execVaddVs d a b z s
  | .vsubVs d a b z => Sys2Proof.Machine.execVsubVs d a b z s
  | .vrsubVs d a b z => Sys2Proof.Machine.execVrsubVs d a b z s
  | .vmulVs d a b z => Sys2Proof.Machine.execVmulVs d a b z s
  | .vmulhVs d a b z => Sys2Proof.Machine.execVmulhVs d a b z s
  | .vminVs d a b z => Sys2Proof.Machine.execVminVs d a b z s
  | .vmaxVs d a b z => Sys2Proof.Machine.execVmaxVs d a b z s
  | .vandVs d a b => Sys2Proof.Machine.execVandVs d a b s
  | .vorVs d a b => Sys2Proof.Machine.execVorVs d a b s
  | .vxorVs d a b => Sys2Proof.Machine.execVxorVs d a b s
  | .vandnVs d a b => Sys2Proof.Machine.execVandnVs d a b s
  | .vsllVs d a b => Sys2Proof.Machine.execVsllVs d a b s
  | .vsrlVs d a b => Sys2Proof.Machine.execVsrlVs d a b s
  | .vsraVs d a b => Sys2Proof.Machine.execVsraVs d a b s
  | .vsaddVs d a b z => Sys2Proof.Machine.execVsaddVs d a b z s
  | .vssubVs d a b z => Sys2Proof.Machine.execVssubVs d a b z s
  | .vavgVs d a b z => Sys2Proof.Machine.execVavgVs d a b z s
  | .vdivVs d a b z => Sys2Proof.Machine.execVdivVs d a b z s
  | .vcmpeqVs d a b => Sys2Proof.Machine.execVcmpeqVs d a b s
  | .vcmpneVs d a b => Sys2Proof.Machine.execVcmpneVs d a b s
  | .vcmpltVs d a b => Sys2Proof.Machine.execVcmpltVs d a b s
  | .vcmpleVs d a b => Sys2Proof.Machine.execVcmpleVs d a b s
  | .vfma d a b c z => Sys2Proof.Machine.execVfma d a b c z s
  | .vfms d a b c z => Sys2Proof.Machine.execVfms d a b c z s
  | .vfnma d a b c z => Sys2Proof.Machine.execVfnma d a b c z s
  | .vfnms d a b c z => Sys2Proof.Machine.execVfnms d a b c z s
  | .vmacc d a b z => Sys2Proof.Machine.execVmacc d a b z s
  | .vdot2 d a b c z => Sys2Proof.Machine.execVdot2 d a b c z s
  | .mand d a b => Sys2Proof.Machine.execMand d a b s
  | .mor d a b => Sys2Proof.Machine.execMor d a b s
  | .mxor d a b => Sys2Proof.Machine.execMxor d a b s
  | .mandn d a b => Sys2Proof.Machine.execMandn d a b s
  | .mnot d a => Sys2Proof.Machine.execMnot d a s
  | .mmov d a => Sys2Proof.Machine.execMmov d a s
  | .msbf d a => Sys2Proof.Machine.execMsbf d a s
  | .msif d a => Sys2Proof.Machine.execMsif d a s
  | .msof d a => Sys2Proof.Machine.execMsof d a s
  | .mpopc d a => Sys2Proof.Machine.execMpopc d a s
  | .mfirst d a => Sys2Proof.Machine.execMfirst d a s
  | .viota d a => Sys2Proof.Machine.execViota d a s
  | .vid d => Sys2Proof.Machine.execVid d s
  | .mset d a => Sys2Proof.Machine.execMset d a s
  | .vslideup d a b => Sys2Proof.Machine.execVslideup d a b s
  | .vslidedn d a b => Sys2Proof.Machine.execVslidedn d a b s
  | .vrgather d a b => Sys2Proof.Machine.execVrgather d a b s
  | .vcompress d a => Sys2Proof.Machine.execVcompress d a s
  | .vexpand d a => Sys2Proof.Machine.execVexpand d a s
  | .vshuf d a p => Sys2Proof.Machine.execVshuf d a p s
  | .vxch d a x => Sys2Proof.Machine.execVxch d a x s
  | .vbcast d a b => Sys2Proof.Machine.execVbcast d a b s
  | .vredsum d a b z => Sys2Proof.Machine.execVredsum d a b z s
  | .vredsumo d a b z => Sys2Proof.Machine.execVredsumo d a b z s
  | .vredmin d a b z => Sys2Proof.Machine.execVredmin d a b z s
  | .vredmax d a b z => Sys2Proof.Machine.execVredmax d a b z s
  | .vcmul d a b z n y x => Sys2Proof.Machine.execVcmul d a b z n y x s
  | .vcmac d a b z n y x => Sys2Proof.Machine.execVcmac d a b z n y x s
  | .vcmag2 d a z => Sys2Proof.Machine.execVcmag2 d a z s
  | .vconj d a z => Sys2Proof.Machine.execVconj d a z s
  | .vbfly2 d a b imm z => Sys2Proof.Machine.execVbfly2 d a b imm z s
  | .vbfly4 d a b imm z => Sys2Proof.Machine.execVbfly4 d a b imm z s
  | .vcinv2 d a z => Sys2Proof.Machine.execVcinv2 d a z s
  | .vqmul d a b n y x => Sys2Proof.Machine.execVqmul d a b n y x s
  | .vqscl d a b => Sys2Proof.Machine.execVqscl d a b s
  | .sfRcp d a z => Sys2Proof.Machine.execSfRcp d a z s
  | .sfRsq d a z => Sys2Proof.Machine.execSfRsq d a z s
  | .sfSqrt d a z => Sys2Proof.Machine.execSfSqrt d a z s
  | .sfExp2 d a z => Sys2Proof.Machine.execSfExp2 d a z s
  | .sfLog2 d a z => Sys2Proof.Machine.execSfLog2 d a z s
  | .sfSinpi d a z => Sys2Proof.Machine.execSfSinpi d a z s
  | .sfCospi d a z => Sys2Proof.Machine.execSfCospi d a z s
  | .sfAtan2pi d a b z => Sys2Proof.Machine.execSfAtan2pi d a b z s
  | .vld d sd c => Sys2Proof.Machine.execVld d sd c s
  | .vst t sd c => Sys2Proof.Machine.execVst t sd c s
  | .vstu t sd => Sys2Proof.Machine.execVstu t sd s
  | .vldff d sd => Sys2Proof.Machine.execVldff d sd s
  | .vlds d sd => Sys2Proof.Machine.execVlds d sd s
  | .vgath d sd imm c => Sys2Proof.Machine.execVgath d sd imm c s
  | .vscat t sd imm c => Sys2Proof.Machine.execVscat t sd imm c s
  | .vscatu t sd imm => Sys2Proof.Machine.execVscatu t sd imm s
  | .vstcmp t sd => Sys2Proof.Machine.execVstcmp t sd s
  | .vldexp d sd => Sys2Proof.Machine.execVldexp d sd s
  | .vamo d sd imm c p => Sys2Proof.Machine.execVamo d sd imm c p s
  | .vredm t sd imm p => Sys2Proof.Machine.execVredm t sd imm p s
  | .sdset a sd f => Sys2Proof.Machine.execSdset a sd f s
  | .sdget d sd f => Sys2Proof.Machine.execSdget d sd f s
  | .sdld a sd => Sys2Proof.Machine.execSdld a sd s
  | .sdst a sd => Sys2Proof.Machine.execSdst a sd s
  | .sdadv a sd => Sys2Proof.Machine.execSdadv a sd s
  | .sdpos d sd => Sys2Proof.Machine.execSdpos d sd s
  | .mopa c a b p q l z => Sys2Proof.Machine.execMopa c a b p q l z s
  | .mops c a b p q l z => Sys2Proof.Machine.execMops c a b p q l z s
  | .cmopa c a b p q l z => Sys2Proof.Machine.execCmopa c a b p q l z s
  | .mopasp c a b p q l z n m => Sys2Proof.Machine.execMopasp c a b p q l z n m s
  | .mld c sd => Sys2Proof.Machine.execMld c sd s
  | .mst c sd => Sys2Proof.Machine.execMst c sd s
  | .mrdv c d b => Sys2Proof.Machine.execMrdv c d b s
  | .mwrv c a b => Sys2Proof.Machine.execMwrv c a b s
  | .rlld a p => Sys2Proof.Machine.execRlld a p s
  | .rlrd a p => Sys2Proof.Machine.execRlrd a p s
  | .ecall => Sys2Proof.Machine.execEcall s
  | .trapret => Sys2Proof.Machine.execTrapret s
  | .brk => Sys2Proof.Machine.execBrk s
  | .ptfenceStrand => Sys2Proof.Machine.execPtfenceStrand s
  | .ptfenceCore => Sys2Proof.Machine.execPtfenceCore s
  | .ptfenceCluster => Sys2Proof.Machine.execPtfenceCluster s
  | .ptfenceDie => Sys2Proof.Machine.execPtfenceDie s
  | .ptfenceSystem => Sys2Proof.Machine.execPtfenceSystem s
  | .tlbsyncStrand => Sys2Proof.Machine.execTlbsyncStrand s
  | .tlbsyncCore => Sys2Proof.Machine.execTlbsyncCore s
  | .tlbsyncCluster => Sys2Proof.Machine.execTlbsyncCluster s
  | .tlbsyncDie => Sys2Proof.Machine.execTlbsyncDie s
  | .tlbsyncSystem => Sys2Proof.Machine.execTlbsyncSystem s
  | .xpfence => Sys2Proof.Machine.execXpfence s
  | .park => Sys2Proof.Machine.execPark s
  | .yield => Sys2Proof.Machine.execYield s
  | .jexit => Sys2Proof.Machine.execJexit s
  | .bar0 => Sys2Proof.Machine.execBar0 s
  | .bar1 => Sys2Proof.Machine.execBar1 s
  | .bar2 => Sys2Proof.Machine.execBar2 s
  | .bar3 => Sys2Proof.Machine.execBar3 s
  | .bar4 => Sys2Proof.Machine.execBar4 s
  | .bar5 => Sys2Proof.Machine.execBar5 s
  | .bar6 => Sys2Proof.Machine.execBar6 s
  | .bar7 => Sys2Proof.Machine.execBar7 s
  | .bar8 => Sys2Proof.Machine.execBar8 s
  | .bar9 => Sys2Proof.Machine.execBar9 s
  | .bar10 => Sys2Proof.Machine.execBar10 s
  | .bar11 => Sys2Proof.Machine.execBar11 s
  | .bar12 => Sys2Proof.Machine.execBar12 s
  | .bar13 => Sys2Proof.Machine.execBar13 s
  | .bar14 => Sys2Proof.Machine.execBar14 s
  | .bar15 => Sys2Proof.Machine.execBar15 s
  | .vfork2 => Sys2Proof.Machine.execVfork2 s
  | .vfork4 => Sys2Proof.Machine.execVfork4 s
  | .vjoin => Sys2Proof.Machine.execVjoin s
  | .vwait => Sys2Proof.Machine.execVwait s
  | .vpref0 => Sys2Proof.Machine.execVpref0 s
  | .vpref1 => Sys2Proof.Machine.execVpref1 s
  | .vpref2 => Sys2Proof.Machine.execVpref2 s
  | .vpref3 => Sys2Proof.Machine.execVpref3 s
  | .vpref4 => Sys2Proof.Machine.execVpref4 s
  | .vpref5 => Sys2Proof.Machine.execVpref5 s
  | .vpref6 => Sys2Proof.Machine.execVpref6 s
  | .vpref7 => Sys2Proof.Machine.execVpref7 s
  | .vpref8 => Sys2Proof.Machine.execVpref8 s
  | .vpref9 => Sys2Proof.Machine.execVpref9 s
  | .vpref10 => Sys2Proof.Machine.execVpref10 s
  | .vpref11 => Sys2Proof.Machine.execVpref11 s
  | .vpref12 => Sys2Proof.Machine.execVpref12 s
  | .vpref13 => Sys2Proof.Machine.execVpref13 s
  | .vpref14 => Sys2Proof.Machine.execVpref14 s
  | .vpref15 => Sys2Proof.Machine.execVpref15 s
  | .mzero0 => Sys2Proof.Machine.execMzero0 s
  | .mzero1 => Sys2Proof.Machine.execMzero1 s
  | .mzero2 => Sys2Proof.Machine.execMzero2 s
  | .mzero3 => Sys2Proof.Machine.execMzero3 s
  | .rlpass => Sys2Proof.Machine.execRlpass s
  | .frontEndIssue core => Sys2Proof.Machine.execFrontEndIssue core s
  | .syncTrapEntry strand code tval telem => Sys2Proof.Machine.execSyncTrapEntry strand code tval telem s
  | .asyncTrapEntry strand => Sys2Proof.Machine.execAsyncTrapEntry strand s
  | .postedStoreError strand code addr => Sys2Proof.Machine.execPostedStoreError strand code addr s
  | .watchdogExpiry strand => Sys2Proof.Machine.execWatchdogExpiry strand s
  | .watchdogReset strand => Sys2Proof.Machine.execWatchdogReset strand s
  | .registerFileError strand scalarReg reg word => Sys2Proof.Machine.execRegisterFileError strand scalarReg reg word s
  | .handlerStart core => Sys2Proof.Machine.execHandlerStart core s
  | .reservationTimeout core => Sys2Proof.Machine.execReservationTimeout core s
  | .growOffer core => Sys2Proof.Machine.execGrowOffer core s
  | .laneChange strand => Sys2Proof.Machine.execLaneChange strand s
  | .messageArrival core => Sys2Proof.Machine.execMessageArrival core s
  | .messageReoffer core => Sys2Proof.Machine.execMessageReoffer core s
  | .continuationDelivery strand => Sys2Proof.Machine.execContinuationDelivery strand s
  | .preemptRequest strand => Sys2Proof.Machine.execPreemptRequest strand s
  | .saveComplete strand => Sys2Proof.Machine.execSaveComplete strand s
  | .resume handle core => Sys2Proof.Machine.execResume handle core s
  | .resumeComplete strand => Sys2Proof.Machine.execResumeComplete strand s
  | .vectorInstructionStart strand => Sys2Proof.Machine.execVectorInstructionStart strand s
  | .vectorBeat strand => Sys2Proof.Machine.execVectorBeat strand s
  | .vectorLoadDataReturn strand elem addr => Sys2Proof.Machine.execVectorLoadDataReturn strand elem addr s
  | .repetitionReissue strand => Sys2Proof.Machine.execRepetitionReissue strand s
  | .vforkSplit strand => Sys2Proof.Machine.execVforkSplit strand s
  | .vjoinReassemble strand => Sys2Proof.Machine.execVjoinReassemble strand s
  | .sfuRequestSend core => Sys2Proof.Machine.execSfuRequestSend core s
  | .sfuServiceStart cluster => Sys2Proof.Machine.execSfuServiceStart cluster s
  | .sfuResultReturn cluster => Sys2Proof.Machine.execSfuResultReturn cluster s
  | .rlpassSend strand => Sys2Proof.Machine.execRlpassSend strand s
  | .rlpassTake strand => Sys2Proof.Machine.execRlpassTake strand s
  | .fenceRetire strand => Sys2Proof.Machine.execFenceRetire strand s
  | .xpfenceRetire strand => Sys2Proof.Machine.execXpfenceRetire strand s
  | .ptfenceRetire strand => Sys2Proof.Machine.execPtfenceRetire strand s
  | .tlbinvDrop strand => Sys2Proof.Machine.execTlbinvDrop strand s
  | .tlbsyncRetire strand => Sys2Proof.Machine.execTlbsyncRetire strand s
  | .pageWalk strand va => Sys2Proof.Machine.execPageWalk strand va s
  | .walkerReadReturn strand => Sys2Proof.Machine.execWalkerReadReturn strand s
  | .mgWaitPoll strand => Sys2Proof.Machine.execMgWaitPoll strand s
  | .mgWaitTimeout strand => Sys2Proof.Machine.execMgWaitTimeout strand s
  | .loadDataReturn strand reg size va uncorrectable => Sys2Proof.Machine.execLoadDataReturn strand reg size va uncorrectable s
  | .hostRequestCompletion strand ok data => Sys2Proof.Machine.execHostRequestCompletion strand ok data s
  | .hostCompletionTimeout strand => Sys2Proof.Machine.execHostCompletionTimeout strand s
  | .clmBankAccess core off owner data => Sys2Proof.Machine.execClmBankAccess core off owner data s
  | .cspBankAccess cluster off owner data => Sys2Proof.Machine.execCspBankAccess cluster off owner data s
  | .l2BankAccess pa owner write => Sys2Proof.Machine.execL2BankAccess pa owner write s
  | .l2FillReturn pa owner => Sys2Proof.Machine.execL2FillReturn pa owner s
  | .csmAccess off owner data => Sys2Proof.Machine.execCsmAccess off owner data s
  | .nearBankOperation pa owner op operand => Sys2Proof.Machine.execNearBankOperation pa owner op operand s
  | .ownerScrub granule => Sys2Proof.Machine.execOwnerScrub granule s
  | .l2PatrolScrub bank pa found => Sys2Proof.Machine.execL2PatrolScrub bank pa found s
  | .lpddrSectorService controller owner => Sys2Proof.Machine.execLpddrSectorService controller owner s
  | .regulatorTokenFill controller owner => Sys2Proof.Machine.execRegulatorTokenFill controller owner s
  | .lpddrPatrolScrub sector => Sys2Proof.Machine.execLpddrPatrolScrub sector s
  | .domJoin strand slot value => Sys2Proof.Machine.execDomJoin strand slot value s
  | .domLeave strand slot => Sys2Proof.Machine.execDomLeave strand slot s
  | .barrierCounterError level unit id => Sys2Proof.Machine.execBarrierCounterError level unit id s
  | .vlWrite strand value => Sys2Proof.Machine.execVlWrite strand value s
  | .vmcWrite strand value => Sys2Proof.Machine.execVmcWrite strand value s
  | .fcsrWrite strand value => Sys2Proof.Machine.execFcsrWrite strand value s
  | .tprvHoldClear strand => Sys2Proof.Machine.execTprvHoldClear strand s
  | .xasidWrite strand value => Sys2Proof.Machine.execXasidWrite strand value s
  | .berthRecordPlace cluster ring flags eaxc sym prb payload => Sys2Proof.Machine.execBerthRecordPlace cluster ring flags eaxc sym prb payload s
  | .brctlEnable cluster ring value => Sys2Proof.Machine.execBrctlEnable cluster ring value s
  | .brctlCursorEnable cluster ring cursor => Sys2Proof.Machine.execBrctlCursorEnable cluster ring cursor s
  | .ecpriUplaneFrame port eaxc sym startPrb numPrb comp bytes => Sys2Proof.Machine.execEcpriUplaneFrame port eaxc sym startPrb numPrb comp bytes s
  | .ecpriCplaneFrame port eaxc sym startPrb bytes => Sys2Proof.Machine.execEcpriCplaneFrame port eaxc sym startPrb bytes s
  | .ecpriDelayMeasurement port t1 => Sys2Proof.Machine.execEcpriDelayMeasurement port t1 s
  | .unmatchedFrame port => Sys2Proof.Machine.execUnmatchedFrame port s
  | .ptpEventFrame port offset locked => Sys2Proof.Machine.execPtpEventFrame port offset locked s
  | .synceLockChange locked => Sys2Proof.Machine.execSynceLockChange locked s
  | .ptmRequest => Sys2Proof.Machine.execPtmRequest s
  | .jobRelease handle => Sys2Proof.Machine.execJobRelease handle s
  | .promotionSweep => Sys2Proof.Machine.execPromotionSweep s
  | .timetablePop => Sys2Proof.Machine.execTimetablePop s
  | .dispatchWithdraw handle => Sys2Proof.Machine.execDispatchWithdraw handle s
  | .serverBudgetExhausted vf => Sys2Proof.Machine.execServerBudgetExhausted vf s
  | .serverSuspensionEnd vf => Sys2Proof.Machine.execServerSuspensionEnd vf s
  | .jsrvWrite vf value => Sys2Proof.Machine.execJsrvWrite vf value s
  | .jobEnd handle status word => Sys2Proof.Machine.execJobEnd handle status word s
  | .deadlineExpiry handle => Sys2Proof.Machine.execDeadlineExpiry handle s
  | .exitRoutineStart handle => Sys2Proof.Machine.execExitRoutineStart handle s
  | .exitBudgetExpiry handle => Sys2Proof.Machine.execExitBudgetExpiry handle s
  | .commandAccept engine => Sys2Proof.Machine.execCommandAccept engine s
  | .ferryCopy engine => Sys2Proof.Machine.execFerryCopy engine s
  | .ferryCopy3 engine => Sys2Proof.Machine.execFerryCopy3 engine s
  | .ferryGather engine => Sys2Proof.Machine.execFerryGather engine s
  | .ferryScatter engine => Sys2Proof.Machine.execFerryScatter engine s
  | .ferryFill engine => Sys2Proof.Machine.execFerryFill engine s
  | .ferryMigrate engine => Sys2Proof.Machine.execFerryMigrate engine s
  | .ferryUpdate engine => Sys2Proof.Machine.execFerryUpdate engine s
  | .ldpcDecode engine => Sys2Proof.Machine.execLdpcDecode engine s
  | .ldpcEncode engine => Sys2Proof.Machine.execLdpcEncode engine s
  | .polarEncode engine => Sys2Proof.Machine.execPolarEncode engine s
  | .polarDecode engine => Sys2Proof.Machine.execPolarDecode engine s
  | .txUplane engine => Sys2Proof.Machine.execTxUplane engine s
  | .txCplane engine => Sys2Proof.Machine.execTxCplane engine s
  | .txRawFrame engine => Sys2Proof.Machine.execTxRawFrame engine s
  | .txLaunch engine => Sys2Proof.Machine.execTxLaunch engine s
  | .txLate engine => Sys2Proof.Machine.execTxLate engine s
  | .commandCompletion engine => Sys2Proof.Machine.execCommandCompletion engine s
  | .clearanceGo part => Sys2Proof.Machine.execClearanceGo part s
  | .clearanceDecision part => Sys2Proof.Machine.execClearanceDecision part s
  | .clearanceStopPoint part => Sys2Proof.Machine.execClearanceStopPoint part s
  | .clearanceHorizon part => Sys2Proof.Machine.execClearanceHorizon part s
  | .clearanceVacancy part => Sys2Proof.Machine.execClearanceVacancy part s
  | .clusterRetirement cluster => Sys2Proof.Machine.execClusterRetirement cluster s
  | .channelRetirement controller => Sys2Proof.Machine.execChannelRetirement controller s
  | .l2cfgCsmwWrite value => Sys2Proof.Machine.execL2cfgCsmwWrite value s
  | .csmResizeComplete => Sys2Proof.Machine.execCsmResizeComplete s
  | .l2errDiscard bank => Sys2Proof.Machine.execL2errDiscard bank s
  | .xdirWrite owner value => Sys2Proof.Machine.execXdirWrite owner value s
  | .xhlogDisable owner => Sys2Proof.Machine.execXhlogDisable owner s
  | .partitionRegisterWrite addr value => Sys2Proof.Machine.execPartitionRegisterWrite addr value s
  | .accessTableWrite addr value => Sys2Proof.Machine.execAccessTableWrite addr value s
  | .clrlogWrite value => Sys2Proof.Machine.execClrlogWrite value s
  | .mkeyRegen owner => Sys2Proof.Machine.execMkeyRegen owner s
  | .keyRegenComplete owner => Sys2Proof.Machine.execKeyRegenComplete owner s
  | .mregWrite controller owner value => Sys2Proof.Machine.execMregWrite controller owner value s
  | .pwrcapWrite value => Sys2Proof.Machine.execPwrcapWrite value s
  | .powerCapExceeded => Sys2Proof.Machine.execPowerCapExceeded s
  | .partitionCapExceeded part => Sys2Proof.Machine.execPartitionCapExceeded part s
  | .thermalThrottle => Sys2Proof.Machine.execThermalThrottle s
  | .thermalStop => Sys2Proof.Machine.execThermalStop s
  | .thermalSupplyRemoval => Sys2Proof.Machine.execThermalSupplyRemoval s
  | .powerOnBoot => Sys2Proof.Machine.execPowerOnBoot s
  | .hostRecoverySupply table image => Sys2Proof.Machine.execHostRecoverySupply table image s
  | .spdmRequest => Sys2Proof.Machine.execSpdmRequest s
  | .fwhoStart value => Sys2Proof.Machine.execFwhoStart value s
  | .handoverVerified ok => Sys2Proof.Machine.execHandoverVerified ok s
  | .handoverCommit => Sys2Proof.Machine.execHandoverCommit s
  | .hostMemoryRequest vf bar off data => Sys2Proof.Machine.execHostMemoryRequest vf bar off data s
  | .atsTranslationResponse strand found allowed => Sys2Proof.Machine.execAtsTranslationResponse strand found allowed s
  | .atsTimeout strand => Sys2Proof.Machine.execAtsTimeout strand s
  | .priResponse strand success => Sys2Proof.Machine.execPriResponse strand success s
  | .priTimeout strand => Sys2Proof.Machine.execPriTimeout strand s
  | .atsInvalidation vf => Sys2Proof.Machine.execAtsInvalidation vf s
  | .sqEnable vf queue value => Sys2Proof.Machine.execSqEnable vf queue value s
  | .sqDoorbell vf queue value => Sys2Proof.Machine.execSqDoorbell vf queue value s
  | .sqDescriptorFetch vf queue desc => Sys2Proof.Machine.execSqDescriptorFetch vf queue desc s
  | .sqStop vf queue => Sys2Proof.Machine.execSqStop vf queue s
  | .sqStopComplete vf queue => Sys2Proof.Machine.execSqStopComplete vf queue s
  | .vfFlr vf => Sys2Proof.Machine.execVfFlr vf s
  | .twinRequest owner pa data => Sys2Proof.Machine.execTwinRequest owner pa data s
  | .twinLinkDown => Sys2Proof.Machine.execTwinLinkDown s
  | .migrationExport vf => Sys2Proof.Machine.execMigrationExport vf s
  | .migrationQuiesced => Sys2Proof.Machine.execMigrationQuiesced s
  | .migrationQuiesceTimeout => Sys2Proof.Machine.execMigrationQuiesceTimeout s
  | .migrationStreamed => Sys2Proof.Machine.execMigrationStreamed s
  | .migrationCancel => Sys2Proof.Machine.execMigrationCancel s
  | .migrationImport vf ticket => Sys2Proof.Machine.execMigrationImport vf ticket s
  | .migrationSourceDone => Sys2Proof.Machine.execMigrationSourceDone s
  | .registerWrite owner addr size value => Sys2Proof.Machine.execRegisterWrite owner addr size value s
  | .twinLinkUp => Sys2Proof.Machine.execTwinLinkUp s
  | .ptpHoldover => Sys2Proof.Machine.execPtpHoldover s
  | .twinPtmTime time => Sys2Proof.Machine.execTwinPtmTime time s

end Sys2Proof.Machine
end

