-- ==== Sys2Proof/Machine/Queue.lean ====
section
/-! DEFINITION. The vector queue at work (R21, R109, R110, R191, R192, R199, R219 to R225): an instruction enters with what it takes at issue,
and runs as its meaning says with that in the place of the strand's own controls. -/

namespace Sys2Proof.Machine

/-- Apply a function to a next state. -/
def mapNext (f : State → State) (o : Out) : Out :=
  match o with
  | .next s => .next (f s)
  | .fault r => .fault r
  | .refused r => .refused r

/-! ### Running an instruction of the queue -/

/-- The next state of an instruction; no instruction stops the machine. -/
def State.run (s : State) (w : Nat) : State :=
  match decodeWord w with
  | .error _ => s
  | .ok i => match exec i s with
    | .next t => t
    | _ => s

/-- The word that runs in it: the names that the instruction was captured with. -/
def Slot.runWord (q : Slot) : Nat := if q.shift = 0 then q.word else rotWord (16 - q.shift) q.word

/-- The strand has taken a trap, or has stopped. -/
def State.trapped (s : State) : Bool := s.me.run.entering || s.me.run.wait == .stopped

/-- The instruction at the old PC retired: PC is past it, with neither a trap nor a wait. -/
def State.passed (s : State) (pc : Word) : Bool := s.me.pc == pc + 4 && !s.me.run.entering && s.me.run.wait == .ready

/-- What an instruction of the queue leaves: memory and data registers are those of `t`, the strand is that of `s`. -/
def State.merge (s : State) (q : Slot) (t : State) : State :=
  { t with me := { s.me with
    ctx := { s.me.ctx with
      v := rotFile ((16 - q.shift) % 16) t.me.ctx.v 256
      tiles := t.me.ctx.tiles
      dirty := t.me.ctx.dirty
      masks := t.me.ctx.masks
      mf := t.me.ctx.mf
      mfc := t.me.ctx.mfc }
    run := { t.me.run with
      wait := if s.me.run.wait = .migrating ∧ accesses q.word then .ready else s.me.run.wait
      since := s.me.run.since
      entering := s.me.run.entering
      passSent := s.me.run.passSent } } }

/-- Words of a destination and bits of masks from `a` to `b` − 1 as `t` has them, the rest as `c` has them (R25). -/
def VCtx.mergeBelow (c : VCtx) (d : Option Nat) (a b : Nat) (t : VCtx) : VCtx :=
  let range : BitVec 2048 := BitVec.ofNat 2048 (2 ^ b - 2 ^ a)
  let pick (x y : BitVec 2048) : BitVec 2048 := (x &&& ~~~range) ||| (y &&& range)
  { c with
    v := match d with
      | some r => (List.range (b - a)).foldl (fun v i => let k := 256 * (r + (a + i) / c.vlmax) + (a + i) % c.vlmax
          sset 0 v k (sget 0 t.v k)) c.v
      | none => c.v
    masks := (List.range 8).foldl (fun l m => sset 0 l m (pick (sget 0 c.masks m) (sget 0 t.masks m))) c.masks }

/-- The descriptor of a slot's instruction when it ends: its position where the instruction was faultable or traps, what VPREF translated
ahead, and otherwise as program order has it. -/
def VCtx.endDesc (c : VCtx) (q : Slot) (moved : Bool) (t : VCtx) : VCtx :=
  match descField q.word with
  | none => c
  | some n =>
    let d := c.desc n
    let e := t.desc n
    let d := if moved then { d with i0 := e.i0, i1 := e.i1, i2 := e.i2 } else d
    let same := { d with i0 := e.i0, i1 := e.i1, i2 := e.i2, xlat := e.xlat } == e
    c.setDesc n (if same && major q.word == 0x28 && bits q.word 11 7 == 12 then { d with xlat := e.xlat } else d)

/-- A VLDFF has finished its probe: its VL is the strand's, or that of the strip it belongs to (R178, R225). -/
def VCtx.shorten (c : VCtx) (q : Slot) (vl : Nat) : VCtx :=
  if major q.word ≠ 0x28 ∨ bits q.word 11 7 ≠ 3 ∨ q.vl = 0 then c
  else if q.rep then { c with rep := { c.rep with vl := vl } }
  else if c.rep.running then c
  else { c with vl := vl }

/-- Write the scalar register that was pending. -/
def Strand.takeScalar (t : Strand) (q : Slot) (u : Strand) : Strand :=
  match scalarDest q.word with
  | some r => t.setReg (Fin.ofNat 32 r) (u.reg (Fin.ofNat 32 r))
  | none => t

/-- A swept instruction has left the queue: its descriptor's XLAT fields are filled (R169). -/
def State.slotAhead (s : State) (q : Slot) : State :=
  match stepsOf q.word, descField q.word with
  | .rows, some n => s.fillXlat n (64 * s.me.ctx.rows)
  | .memory, some n => if bits q.word 11 7 < 5 then s.fillXlat n (q.vl / q.desc.stepWords) else s
  | _, _ => s

/-- The instruction of a slot has completed (R24, R221). A faultable one of the body is captured, or moves the repetition on, only now
(R225). -/
def State.slotDone (s : State) (q : Slot) (t : State) : State :=
  let fl := faultable q.word q.vl (q.vmc.getLsbD 6)
  (((s.merge q t).slotHeat q q.vl).slotAhead q).modMe fun m =>
    { (m.takeScalar q t.me) with
      fcsr := m.fcsr ||| ((q.fcsr ||| t.me.fcsr) &&& 0x1F)
      ctx :=
        let c := ((m.ctx.endDesc q fl t.me.ctx).shorten q t.me.ctx.vl).leaveSlot q
        if !fl then c
        else if q.rep then c.reissued
        else if q.capture then c.capture m.fcsr ⟨q.word, q.pc, q.scalar, q.tags⟩
        else c }

/-- The translations that the probe of a slot's instruction found, one a table entry: it keeps them to its end (R350). -/
def State.slotPages (s : State) (q : Slot) : List Copy :=
  let v := s.slotView q q.vl
  let c := v.me.ctx
  let w := q.runWord
  let op := bits w 11 7
  let words :=
    if tileMoves w then (v.probeRows q.desc ⟨if bits w 9 6 = 5 then .read else .write, false⟩ (c.activeRows 0)).1.flatMap (·.words)
    else if stepsOf w = .memory then
      let amo := decide (10 ≤ op)
      let idx := if 5 ≤ op then some (bits w 16 12) else none
      let n := if amo then 1 else q.desc.stepWords
      let acc : Acc := if amo then .rmw else if (destReg w).isSome then .read else .write
      (v.probeElems q.desc.space.toNat n q.desc.xlat idx.isSome ⟨acc, amo && bits w 3 0 == 8⟩ (c.elements q.desc idx (decide (n = 2)))).1.flatMap (·.words)
    else []
  ((distinctEntries words).map (·.copy)).filter fun x => x.size != 0

/-- A store settles when its probe has passed (R191). -/
def storesOnly (w : Nat) : Bool := (major w == 0x28 && (destReg w).isNone) || (major w == 0x2A && bits w 9 6 == 6)

/-- Its probe has passed. -/
def State.probedSlot (s : State) (q : Slot) : Slot :=
  if q.probed || !accesses q.word then q
  else { q with probed := true, probedAt := s.die.clock, settled := q.settled || storesOnly q.word, desc := { q.desc with xlat := s.slotPages q } }

/-- The state with the translations that a run has cached. -/
def State.cachedBy (s : State) (t : State) : State := s.modDie fun d => { d with xlat := t.die.xlat }

/-- The slot after a run. -/
def State.slotAt (s : State) (q : Slot) (t : State) : Slot := (s.cachedBy t).probedSlot q

/-- It has completed its words below `n`. -/
def State.slotPart (s : State) (q : Slot) (n : Nat) (t : State) : State :=
  let m := s.merge q t
  let q' : Slot := { s.slotAt q t with idx := n, fcsr := q.fcsr ||| (t.me.fcsr &&& 0x1F) }
  m.modMe fun x => { x with
    ctx := (if stepsOf q.word = .across then s.me.ctx.mergeBelow (destReg q.word) q.idx n m.me.ctx else x.ctx).setSlot q'
    run := { x.run with retired := s.die.clock } }

/-- It has not completed: it waits for a migrating page, for a link, or for its ring, or its page walk is to be repeated. An element that
completed restarts the watchdog (R230). -/
def State.slotWait (s : State) (q : Slot) (t : State) : State :=
  match t.me.run.wait with
  | .host => (s.merge q t).modMe fun x => { x with
      ctx := x.ctx.setSlot { s.slotAt q t with idx := t.me.ctx.vstart, started := true }
      run := { x.run with
        wait := .host
        since := t.me.run.since
        retired := if q.idx < t.me.ctx.vstart then s.die.clock else x.run.retired } }
  | .migrating => { t with me := { s.me with run := { s.me.run with wait := .migrating, since := t.me.run.since } } }
  | .ring => { t with me := { s.me with ctx := s.me.ctx.setSlot { q with idx := if t.me.run.passSent then 1 else 0, started := true } } }
  | _ => { t with me := s.me }

/-- A re-issue trapped (R225): the repetition is suspended at it, and `VL`, `STRIP` and `STRIPN` are those of its strip. -/
def VCtx.suspend (c : VCtx) : VCtx :=
  { c with
    vl := c.rep.vl
    strip := c.rep.strip
    stripn := c.rep.stripn
    rep := { c.rep with running := false, suspended := true } }

/-- It traps, every older instruction complete (R192, R199, R225): it and every younger one are discarded. -/
def State.slotTrap (s : State) (q : Slot) (t : State) : State :=
  let c := s.me.ctx
  let m := s.merge q t
  { t with me := { t.me with
    regs := s.me.regs
    fcsr := s.me.fcsr
    ctx :=
      let x := ({ m.me.ctx with vstart := t.me.ctx.vstart, queue := [], rep := t.me.ctx.rep }.endDesc q true t.me.ctx).setPix q.num false q.word q.idx
      if q.rep then { x with rep := c.rep }.suspend else x
    run := { t.me.run with passSent := s.me.run.passSent } } }

/-- The slot without the translations that a run has discarded. -/
def Slot.without (q : Slot) (t : State) : Slot :=
  match descField q.word with
  | some n => { q with desc := { q.desc with xlat := q.desc.xlat.filter fun c => (t.me.ctx.desc n).xlat.contains c } }
  | none => q

/-- The run of a slot's instruction up to word `n`, with the slot after it; where a table entry changed between its probe and its OR, the
translation is discarded and it is run again (R343). -/
def State.slotRun (s : State) (q : Slot) (n : Nat) : Slot × State :=
  let t := (s.slotView q n).run q.runWord
  if t.trapped || t.passed q.pc || t.me.run.wait != .ready then (q, t)
  else (q.without t, (({ s with die := t.die }).slotView (q.without t) n).run q.runWord)

/-- The trap of a VSFU instruction, SE = 0, whose lowest request left the unit answered with an uncorrectable error (R296): as for an argument
fault, with code 0x70 and TVAL 0. -/
def State.sfuErrorTrap (s : State) (q : Slot) : State :=
  let c := { s.me.ctx with vl := q.vl, vmc := q.vmc, vstart := q.idx }
  let n := (((List.range q.vl).filter c.active).head?).getD q.idx
  s.slotTrap q ((s.slotView q q.idx).trapWith { code := 0x70, tval := 0, telem := n, vstart := some n })

/-- Run the instruction of a slot up to word `n`; none where an older one holds it back, or where it would trap before an older one has
completed. -/
def State.runSlot (s : State) (q : Slot) (n : Nat) : Option State :=
  let c := s.me.ctx
  if !c.chained q n then none
  else if q.error then (if c.olderThan q.num = [] then some (s.sfuErrorTrap q) else none)
  else
    let whole := decide (wordCount c.k q.word q.vl ≤ n) || stepsOf q.word == .whole
    let first := whole || stepsOf q.word == .across || (accesses q.word && !q.probed)
    let u := if first then s.slotRun q q.vl else (q, s)
    let (q, t) := if whole || stepsOf q.word == .across || (first && (u.2.trapped || !u.2.passed q.pc)) then u
      else s.slotRun q n
    if t.trapped then (if c.olderThan q.num = [] then some (s.slotTrap q t) else none)
    else if t.passed q.pc then some (if whole then s.slotDone q t else s.slotPart q n t)
    else some (s.slotWait q t)

/-- The probe of the instruction of a slot (R173, R219): it settles, waits or traps. -/
def State.probeSlot (s : State) (q : Slot) : Option State :=
  let (q, t) := s.slotRun q q.vl
  if !s.me.ctx.chained q q.vl || !accesses q.word then none
  else if t.trapped then (if s.me.ctx.olderThan q.num = [] then some (s.slotTrap q t) else none)
  else if t.me.run.wait = .migrating then some (s.slotWait q t)
  else some ((s.cachedBy t).modCtx fun c => c.setSlot (s.slotAt q t))

/-! ### Entering the queue -/

/-- The position of a swept instruction at its issue: adv(st, N) (R171); MLD and MST (R241). -/
def VCtx.advances (c : VCtx) (w vl : Nat) : VCtx :=
  match descField w with
  | none => c
  | some n =>
    let d := c.desc n
    if major w = 0x2A then (if vl = 0 then c else c.setDesc n (d.adv (64 * c.rows)))
    else if bits w 11 7 < 5 then c.setDesc n (d.adv (vl / d.stepWords)) else c

/-- The value that a field of a word names. -/
def State.operandOf (s : State) (w : Nat) (f : Option Nat) : Word :=
  match f with
  | some lo => s.reg (Fin.ofNat 32 (bits w (lo + 4) lo))
  | none => 0

/-- The fields of an instruction lie in one layout (R113, R220). -/
def oneLayout (c : VCtx) (w : Nat) (tags : List (Nat × Tag)) : Bool :=
  match stepsOf w with
  | .elements | .sfu =>
    match (destReg w).toList.map (fun d => (sget .raw tags d).s2) ++ ((vecRegs w).filter fun r => some r != destReg w).map fun r => (c.tag r).s2 with
    | [] => true
    | x :: l => l.all (· == x)
  | .memory => decide (bits w 11 7 < 5) && !w.testBit 6
  | _ => false

/-- What an instruction does in program order at its issue (R21, R110, R125, R171), whatever its elements do later: the tags; none where it
takes a decode fault. `at_` is the state with its controls in place. -/
def State.issueTags (at_ : State) (w : Nat) : Option (List (Nat × Tag)) :=
  let t := (at_.modCtx fun c => { c with vl := 0 }).run w
  if t.trapped then none else some t.me.ctx.tags

/-- The slot of an instruction that enters the queue. -/
def State.newSlot (s : State) (w : Nat) (tags : List (Nat × Tag)) : Slot :=
  let c := s.me.ctx
  { num := c.nextSlot
    word := w
    pc := s.me.pc
    idx := if ringPass w then 0 else c.vstart
    vl := c.vl
    vmc := c.vmc
    vstart := c.vstart
    tags := c.tags
    fcsr := s.me.fcsr &&& 0x1E0
    desc := match descField w with
      | some n => c.desc n
      | none => Desc.zero
    scalar := s.operandOf w (scalarField w)
    index := s.operandOf w (indexField w)
    rep := false
    shift := 0
    capture := c.capturing && faultable w c.vl c.se
    linear := oneLayout c w tags
    error := false
    started := false
    settled := !faultable w c.vl c.se
    probed := false
    probedAt := 0
    counted := c.vstart
    entered := s.die.clock }

/-- The slot is the youngest of the queue. -/
def VCtx.pushSlot (c : VCtx) (q : Slot) : VCtx :=
  let c := { c with queue := c.queue ++ [q] }
  if q.vl = 0 then c else c.setPix q.num true q.word q.shown

/-- The instruction at the PC enters the queue; none where it takes a decode fault (R57, R109). -/
def State.queueWord (s : State) (w : Nat) : Option State :=
  (s.issueTags w).map fun tags =>
    s.modMe fun t => { t.advance with ctx :=
      ({ t.ctx with tags := tags, vstart := 0 }.advances w t.ctx.vl).pushSlot (s.newSlot w tags) }

/-- The tags after an instruction that changed `src` to `dest`, of a destination group of g registers at d. -/
def retag (c src dest : List (Nat × Tag)) (d : Option Nat) (g : Nat) : List (Nat × Tag) :=
  (List.range 32).foldl (fun l r =>
    if sget .raw src r = sget .raw dest r ∧ !(d.any fun x => decide (x ≤ r ∧ r < x + g)) then l else sset .raw l r (sget .raw dest r)) c

/-- The state in which an instruction of the body is issued again: the VA and the scalar operand of its capture, the controls of the
repetition, and these tags. -/
def State.repView (s : State) (b : Captured) (tags : List (Nat × Tag)) : State :=
  s.modMe fun t =>
    let r := t.ctx.rep
    { (t.operand b.word (scalarField b.word) b.scalar) with
      pc := b.va
      fcsr := r.fcsr
      ctx := { t.ctx with vl := r.vl, vmc := r.vmc, vstart := r.vstart, tags := tags } }

/-- The shift of the register file, the tags and the new tags with which an instruction of the body is issued again. Decode checks were made at
its capture (R225): its rotated fields are read as they stand where the checks pass for them, else as the names of the capture moved, and where
the tags of the rotated registers fail them too, those of the capture stand (log 70). -/
def State.repTags (s : State) (b : Captured) (sh : Nat) : Nat × List (Nat × Tag) × List (Nat × Tag) :=
  let tags := s.me.ctx.tags
  let here := rotFile sh tags 1
  match (s.repView b tags).issueTags (rotWord sh b.word) with
  | some t => (0, tags, t)
  | none => match (s.repView b here).issueTags b.word with
    | some t => (sh, here, t)
    | none => (sh, b.tags, ((s.repView b b.tags).issueTags b.word).getD b.tags)

/-- The next instruction of the body enters the queue again (R122, R223). -/
def State.queueRep (s : State) : Option State :=
  let c := s.me.ctx
  let r := c.rep
  if !r.running || c.queue.any (fun q => !q.settled) || decide (32 ≤ c.queue.length) then none
  else match r.body[r.pos]? with
    | none => some (s.modCtx fun c => { c with rep := Rep.empty, strip := r.strip })
    | some b =>
      let w := rotWord r.shift b.word
      let (sh, src, dest) := s.repTags b r.shift
      let back (t : List (Nat × Tag)) : List (Nat × Tag) := rotFile ((16 - sh) % 16) t 1
      let q := { (s.repView b src).newSlot (rotWord ((16 - sh) % 16) w) dest with word := w, rep := true, shift := sh, capture := false, tags := back src }
      some (s.modCtx fun c =>
        let c := { c with
          tags := retag c.tags (back src) (back dest) (destReg w) (2 ^ bits r.vmc.toNat 5 4)
          rep := { c.rep with vstart := 0 } }
        let c := (c.advances w r.vl).pushSlot q
        if q.settled then c.reissued else c)

/-! ### The queue of itself -/

/-- An instruction of the queue that can complete, the oldest first; of the repetition the next instruction. -/
def State.vectorNext (s : State) : Option State :=
  if [Wait.stopped, .saving, .restoring, .exit].contains s.me.run.wait then none
  else
    let c := s.me.ctx
    match (c.queue.filter fun q => !(s.me.run.wait == .host && accesses q.word) &&
        !(s.die.sfu.any fun r => r.strand == s.meId && r.num == q.num)).findSome? fun q =>
      (s.runSlot q q.vl).filter fun t => t.me.ctx.queue != c.queue || t.me.run.wait != s.me.run.wait || t.me.run.entering != s.me.run.entering with
    | some t => some t
    | none => s.queueRep

end Sys2Proof.Machine
end

