-- ==== Sys2Proof/Machine/Issue.lean ====
section
/-! DEFINITION. One issue of the focused strand (R53, R57, R192, R200, R202): an asynchronous trap or the instruction at its PC; and a beat of
an instruction in flight (R220, R277). -/

namespace Sys2Proof.Machine

/-! ### Capture (R121) -/

/-- Capture the instruction that has just been issued, while a VREP captures; a faultable one that is queued is captured when it ends
(R225). -/
def State.captureWord (s : State) (w : Nat) (after : State) : State :=
  if vectorMajor w && s.me.ctx.capturing && after.passed s.me.pc then
    after.modCtx fun c => c.capture after.me.fcsr ⟨w, s.me.pc, s.operandOf w (scalarField w), s.me.ctx.tags⟩
  else after

/-! ### Issue -/

/-- A vector instruction that ran at its issue, the queue empty: slot 0 shows it complete (R25, R221); with VL = 0 PIX is unchanged (R115). -/
def State.settle (s : State) (w : Nat) (after : State) : State :=
  if queued w && after.passed s.me.pc && s.me.ctx.vl != 0 then
    after.modCtx fun c => c.setPix 0 false w (wordCount s.me.ctx.k w s.me.ctx.vl)
  else after

/-- A vector instruction enters the queue; one that takes a decode fault waits for the older ones first (R199). -/
def State.issueQueued (s : State) (w : Nat) : State :=
  match s.queueWord w with
  | some t => if (t.me.ctx.queue.getLast?).any (·.settled) then s.captureWord w t else t
  | none => s

/-- The word that the front end took executes (R57): a decode fault carries the word. A trap is taken when every older vector instruction has
completed (R199). A vector instruction enters the queue; where the queue is empty and `direct` allows it, it runs at once, and enters the
queue only if it has to wait. -/
def State.issueWord (s : State) (direct : Bool) (w : Nat) : Out :=
  let s := s.modMe fun t => { t with run := { t.run with entering := false } }
  let quiet (o : Out) : Out := if s.me.ctx.busy then mapNext (fun t => if t.trapped then s else t) o else o
  match decodeWord w with
  | .error _ => quiet (.next (s.illegal 0x01 w))
  | .ok i =>
    if s.me.ctx.capturing && notCaptured w && vectorMajor w then
      quiet (.next ((s.illegal 0x01 w).modCtx fun c => { c with rep := Rep.empty }))
    else if queued w && s.me.ctx.leased && (!direct || s.me.ctx.busy) then
      match s.queueWord w with
      | none => if s.me.ctx.busy then .next s else exec i s
      | some _ => .next (s.issueQueued w)
    else mapNext (fun t =>
      if t.trapped then (if s.me.ctx.busy then s else t)
      else if queued w && !t.passed s.me.pc then
        (let x := s.issueQueued w
         match x.me.ctx.queue with
         | q :: _ => (x.runSlot q q.vl).getD x
         | [] => t)
      else s.captureWord w (s.settle w t)) (exec i s)

/-- The front end fetches the word at the PC. A first fetch of a handler that faults is taken again at firmware (R202); an instruction that
waits for the vector queue is not issued (R207). -/
def State.issueFront (s : State) (direct : Bool) : Out :=
  match s.fetch with
  | .wait s => .next s
  | .bad c t =>
    .next (if s.me.ctx.busy then s else if t.me.run.entering then t.reenter else t.trap c t.me.pc)
  | .word w t => if t.me.ctx.busy && t.me.ctx.held w then .next s else t.issueWord direct w

/-- An asynchronous cause is taken at this boundary (R200): the vector queue is empty (R199), and no data of an access in progress has
arrived. -/
def Strand.takesAsync (t : Strand) : Bool :=
  t.run.causes != [] && !t.trap.hold && t.run.linkData == [] && !t.ctx.busy && t.run.wait != .host && t.run.wait != .migrating

/-- The front end takes an instruction of the focused strand. -/
def State.issue (s : State) (direct : Bool) : Out :=
  if s.me.takesAsync then .next (s.asyncTrap s.meId)
  else (s.modMe fun t => { t with run := { t.run with lastIssue := s.die.clock } }).issueFront direct

/-- A strand that the front end can take an instruction from, whatever it waits for; a parked one takes an asynchronous trap only. -/
def Strand.issuable (t : Strand) : Bool :=
  t.id.kind != .free && match t.run.wait with
    | .stopped | .saving | .restoring | .exit | .host => false
    | .park => t.takesAsync
    | _ => true

/-- The strand waits for an instruction of its vector queue. -/
def Strand.inQueue (t : Strand) : Bool := t.run.wait == .migrating && t.ctx.queue.any fun q => accesses q.word && !q.settled

/-- Issue from a strand, where it can: a vector instruction enters the queue. An instruction of the queue that it waits for goes on
instead. -/
def State.issueFrom (s : State) (i : Nat) (direct : Bool) : Out :=
  if !(s.strand i).issuable then .next s
  else if (s.strand i).inQueue then .next (s.at i fun s => s.vectorNext.getD s)
  else (s.focus i).issue direct

/-! ### Beats (R220, R221, R277) -/

/-- The instruction in a slot processes its words below `upTo`. -/
def State.beat (s : State) (i num upTo : Nat) : State :=
  s.at i fun s => match s.me.ctx.slot num with
    | none => s
    | some q => if [Wait.stopped, .saving, .restoring, .exit, .host].contains s.me.run.wait then s else (s.runSlot q upTo).getD s

/-- The instruction in a slot makes its probe (R173, R219). -/
def State.probe (s : State) (i num : Nat) : State :=
  s.at i fun s => match s.me.ctx.slot num with
    | none => s
    | some q => (s.probeSlot q).getD s

end Sys2Proof.Machine
end

