-- ==== Sys2Proof/Machine/Auto.lean ====
section
/-! DEFINITION. What the machine does of itself between instructions: time passing, and the first of the die's own activities that has
something to do (log 1). Each is the shared function of an event of the opcode table. -/

namespace Sys2Proof.Machine

/-! ### Time (R8, R367, R369, R400) -/

/-- A context that holds k lane groups of a VF charges k lane-group-ns per ns, to its telemetry and to an enabled server (R367). -/
def Die.charge (d : Die) (o n : Nat) : Die :=
  let v := o - 0x100
  let d := d.addReg (telemetry o 0) n
  if d.srvEn v then d.setServer v (d.srvDl v) (d.srvBg v - (n : Int)) else d

/-- The charges of `dt` ns. -/
def State.chargeAll (s : State) (dt : Nat) : State :=
  ((s.meId, s.me) :: s.others).foldl (fun s e =>
    if e.2.id.kind == .free || e.2.id.owner < 0x100 || e.2.ctx.gm == 0 then s
    else s.modDie fun d => d.charge e.2.id.owner (e.2.ctx.k * dt)) s

/-- A step is counted, and `DTIME` advances by a free number of ns; the sweeps of R369 fall at multiples of 500 ns, and of the pops of R370 those
that come to nothing at every third step (log 78). -/
def State.tick (s : State) : State :=
  let dt := Config.elapsed (s.die.clock + 1)
  let old := s.die.dtime
  let s := (s.modDie fun d => { d with clock := d.clock + 1, dtime := d.dtime + dt }).chargeAll dt
  if s.die.jobs = [] then s
  else
    let n := (old + dt) / 500 - old / 500
    let s := if n = 0 then s else s.modDie fun d => d.sweeps n (old / 500 + 1)
    if s.die.clock % 3 = 0 then s.idlePop else s

/-! ### Strands -/

/-- A pre-emption is pending for the strand's job (R266). -/
def State.preempted (s : State) (t : Strand) : Bool :=
  t.id.kind != .column && (s.die.job t.id.job.toNat).any fun j => j.preempt != 0

/-- The watchdog of a strand (R230): a step of the model counts as a c-cycle (log 27). A cause not taken within a further interval, at no
boundary or held by HOLD, resets the strand (R201). -/
def State.watchdog (s : State) (i : Nat) (t : Strand) : Option State :=
  let n := 1024 * (s.coreS (i / 8)).wdog.toNat
  if n = 0 ∨ t.id.kind = .free ∨ t.run.wait = .stopped then none
  else if t.run.watchdog then (if t.run.watchdogAt + n ≤ s.die.clock then some (s.strandFailed i 0x7F) else none)
  else if t.watched ∧ t.run.retired + n ≤ s.die.clock then some (s.modStrand i (Strand.watchdogDue s.die.clock))
  else none

/-- The time-outs of R439 for a request that waits on the host link. -/
def State.linkTimeout (s : State) (i : Nat) (t : Strand) : Option State :=
  match t.run.hostReq with
  | none => none
  | some q => match q.phase with
    | .translating => if t.run.since + 64000 ≤ s.die.dtime then some (s.reqFault i 0x10) else none
    | .paging => if t.run.since + 1000000 ≤ s.die.dtime then some (s.reqFault i 0x10) else none
    | .sent => none

/-- What a strand's wait lets happen, or the stop for its save. -/
def State.autoWait (s : State) (i : Nat) (t : Strand) : Option State :=
  match t.run.wait with
  | .stopped => none
  | .host => s.linkTimeout i t
  | .saving => if s.saveReady i then some (s.saveComplete i) else none
  | .restoring => some (s.resumeComplete i)
  | .exit => if (s.die.job t.id.job.toNat).any fun j => j.pend != 0 then some (s.exitStart t.id.job.toNat) else none
  | .park => match s.nextCont i with
    | some m => some (s.deliver i m)
    | none => if s.preempted t then some (s.stopForSave i) else none
  | .ring =>
    if s.preempted t then some (s.stopForSave i)
    else
      let f := s.focus i
      if !t.run.passSent && f.canSend then some (s.at i State.ringSend) else none
  | _ => if s.preempted t then some (s.stopForSave i) else none

/-- A strand's own activity. -/
def State.autoStrand (s : State) (e : Nat × Strand) : Option State :=
  if e.2.id.kind = .free then none
  else match s.autoWait e.1 e.2 with
    | some x => some x
    | none => match (if e.2.ctx.busy then (s.focus e.1).vectorNext else none) with
      | some x => some (x.focus s.meId)
      | none => s.watchdog e.1 e.2

/-! ### Cores -/

/-- A core's own activity: acceptance (R257), handler starts (R258), the end of a reservation's window (R211), a grow (R212). -/
def State.autoCore (s : State) (e : Nat × CoreS) : Option State :=
  let core := e.1
  let c := e.2
  if (s.firstTaken core [] c.offers).isSome then some (s.accept core)
  else match s.startReserved core with
    | some x => some x
    | none =>
      if c.handlers ≠ [] ∧ (s.startStrand core).isSome ∧
          ((s.startable core).isSome ∨ ((s.handlersOf core).findSome? (s.reserveFor core)).isSome) then some (s.startNext core)
      else if c.reservations.any fun r => decide (r.since + 1000 * r.window ≤ s.die.dtime) && !c.ready r then some (s.reservationTimeout core)
      else
        let x := s.growOffer core
        if (x.coreS core).lat ≠ c.lat then some x else none

/-! ### The Timetable -/

/-- A job's own activity. -/
def State.autoJob (s : State) (e : Nat × Job) : Option State :=
  let h := handleOf e
  let j := e.2
  if !j.live then none
  else if j.state == .pending && decide (j.release ≤ s.die.dtime) && (j.count == 0 || j.earlyOk) then some (s.modDie fun d => d.releaseJob h)
  else if j.state != .exiting && j.pend == 0 && decide (j.deadline ≤ s.die.dtime) && !s.die.frozen j.vf 2 then some (s.abandon h 2 0)
  else if j.state == .exiting && decide (j.exitAt + j.budget ≤ s.die.dtime) then some (s.endJob h j.pend 0)
  else if j.state == .dispatching && j.slots != [] && s.strandsOf h == [] then
    match j.placed with
    | some x => if ((s.coreS x.1).reservations.any fun r => r.job == h && !(s.coreS x.1).ready r) then none else some (s.resume h x.1)
    | none => none
  else none

/-- VFs whose server register has been written. -/
def Die.serverVfs (d : Die) : List Nat :=
  (d.mmio.filter fun e => decide (0x200004000000 ≤ e.1 ∧ e.1 < 0x200004002000) && e.1 % 32 == 0).map fun e => (e.1 - 0x200004000000) / 32

/-- A VF's server (R367): exhausted, it is stepped on; while it is suspended its preemptible jobs are pre-empted. -/
def State.autoServer (s : State) (v : Nat) : Option State :=
  if !s.die.exhausted v then none
  else if s.die.suspended v then
    (if s.die.jobs.any fun e => e.2.vf == v && e.2.preemptible && e.2.preempt == 0 && s.canSave (handleOf e) e.2 then some (s.preemptVf v) else none)
  else some (s.serverExhausted v)

/-! ### Clearance, engines and the rest of the die -/

/-- The next stage of an order whose time has come (R413 to R415). -/
def State.autoOrder (s : State) (p : Nat) : Option State :=
  let x := match s.die.stage p with
    | 1 => s.clearanceDecide p
    | 2 => s.clearanceStop p
    | 3 => s.clearanceHorizon p
    | 4 => s.clearanceVacancy p
    | _ => s
  if x.die.stage p ≠ s.die.stage p then some x else none

/-- One command's next activity (R387 to R397). -/
def State.autoCmd (s : State) (c : Cmd) : Option State :=
  if c.done.isSome then
    (let x := s.complete c.engine
    if x.die.cmds = s.die.cmds then none else some x)
  else
    let mine := s.die.cmds.filter fun x => x.engine == c.engine && x.done.isNone
    let cls := engClass c.engine
    let d := s.die
    let x : Die :=
      if cls = 0 then (if (mine.take 4).contains c then d.ferry c else d)
      else if mine.head? ≠ some c then d
      else match cls with
        | 1 => d.ldpcDecode c
        | 2 => d.ldpcEncode c
        | 3 => if c.op = 0 then d.polarEncode c else d.polarDecode c
        | _ => if c.frame = [] then d.txBuild c else if d.txLate c then d.txExpire c.engine else d.txLaunch c.engine
    if x.cmds ≠ d.cmds then some (s.withDie x) else none

/-- A submission queue whose stop is complete (R443). -/
def Die.autoQueue (d : Die) : Option Die :=
  (d.sqs.find? fun e => e.2.stop && !e.2.stopped).map fun e => { d with sqs := sset Sq.reset d.sqs e.1 { e.2 with stopped := true } }

/-- The migration engine's next state (Table 24.7). -/
def State.autoMig (s : State) : Option State :=
  let m := s.die.mig
  if m.state = 2 then some (s.modDie fun d => d.modMig fun m => { m with state := 3, ticket := Config.ticket m.vf d.clock % 2 ^ 128 })
  else if m.state ≠ 1 then none
  else if s.migQuiet m.vf then some (s.modDie fun d => d.modMig fun m => { m with state := 2 })
  else if m.since + 100000000 ≤ s.die.dtime then some (s.modDie fun d => d.migResume.modMig fun m => { m with state := 5, why := 4 })
  else none

/-- Keys, the CSM's size, walks, posted writes, SFU requests, queues and migration. -/
def State.autoDie (s : State) : Option State :=
  match s.die.keyBusy with
  | some o => some (s.modDie fun d => d.setReg (mkeyAddr o) 0)
  | none =>
    if bits (s.die.reg l2cfg) 8 8 = 1 then some (s.modDie fun d => d.setReg l2cfg (putBits (d.reg l2cfg) 8 8 0))
    else match s.die.walks with
      | w :: _ => some (s.walkReturn w.1)
      | [] => match s.settlePosted with
      | some x => some x
      | none => match s.die.settleReport with
      | some d => some (s.withDie d)
      | none => match s.die.sfu.find? fun r => !r.served with
        | some r => some (s.sfuServe (r.strand / 32))
        | none => match s.die.sfu with
          | r :: _ => some (s.sfuReturn (r.strand / 32) false)
          | [] => match s.die.autoQueue with
            | some d => some (s.withDie d)
            | none => s.autoMig

/-- The first activity that has something to do. -/
def State.auto (s : State) : Option State :=
  match s.autoDie with
  | some x => some x
  | none => match ((s.meId, s.me) :: s.others).findSome? s.autoStrand with
    | some x => some x
    | none => match s.die.cores.findSome? s.autoCore with
      | some x => some x
      | none => match s.die.jobs.findSome? s.autoJob with
        | some x => some x
        | none => match s.die.serverVfs.findSome? s.autoServer with
          | some x => some x
          | none => match (s.die.orders.map (·.1)).findSome? s.autoOrder with
            | some x => some x
            | none => match s.die.cmds.findSome? s.autoCmd with
              | some x => some x
              | none => s.nextPlace.map s.popFor

/-! ### Which strand issues (R207) -/

/-- The strand can issue: its instruction does not wait for the vector queue (R207), and its issue would not leave it waiting as before. -/
def State.canIssue (s : State) (i : Nat) (t : Strand) : Bool :=
  t.id.kind != .free && match t.run.wait with
    | .ready => !t.ctx.busy || match (s.focus i).fetch with
      | .word w _ => !t.ctx.held w
      | _ => false
    | .stopped | .saving | .restoring | .exit | .host => false
    | .park => t.takesAsync
    | w => t.takesAsync || (!t.inQueue && match (s.focus i).issue true with
      | .next x => (x.strand i).run.wait != w
      | _ => true)

/-- The strands that can issue. -/
def State.issuers (s : State) : List (Nat × Strand) := ((s.meId, s.me) :: s.others).filter fun e => s.canIssue e.1 e.2

/-- The one whose last issue is least recent; of those that have not issued, the lowest (R207). -/
def leastRecent : List (Nat × Strand) → Option Nat
  | [] => none
  | e :: l => some (l.foldl (fun b x =>
      if x.2.run.lastIssue < b.2.run.lastIssue ∨ (x.2.run.lastIssue = b.2.run.lastIssue ∧ x.1 < b.1) then x else b) e).1

/-- The cores of a list of strands. -/
def coresIn (l : List (Nat × Strand)) : List Nat := (l.map (·.1 / 8)).eraseDups

/-- The strand that issues in this step: on the only core that can, or on one that is free (log 1). No core issues at 115 °C (R436). -/
def State.chooseStrand (s : State) : Option Nat :=
  if s.die.pkg.hot then none
  else
    let l := s.issuers
    match coresIn l with
    | [] => none
    | [_] => leastRecent l
    | cs => leastRecent (l.filter fun e => some (e.1 / 8) == cs[Config.nextCore s.die.clock % cs.length]?)

/-! ### One step's work -/

/-- Work that the step before left. -/
def State.doDue (s : State) (d : Due) : Out :=
  match d with
  | .strandFailed i => .next (s.failStrand i 3)
  | .issue i => s.issueFrom i false
  | .beat i q n => .next (s.beat i q n)
  | .probe i q => .next (s.probe i q)
  | .vector i => .next (s.at i fun s => s.vectorNext.getD s)
  | .reissue i => .next (s.at i fun s => s.queueRep.getD s)
  | .regWrite fw pa n v => .next (s.regWrite fw pa n v)
  | .record c a => .next (s.modDie fun d => d.errorRecord c 2048 a)
  | .report vf q n h st w t => .next (s.modDie fun d => d.report vf q n h st w t)

/-- The machine goes on of itself: the boot ROM's next step, an activity of the die, or an instruction. -/
def State.advance (s : State) : Out :=
  if s.die.bootStep < 8 then .next s.boot
  else if s.die.bootStep = 14 then .fault .bootStopped
  else match s.auto with
    | some x => .next x
    | none => match s.chooseStrand with
      | some i => s.issueFrom i true
      | none => .next s

end Sys2Proof.Machine
end

