-- ==== Sys2Proof/Machine/Step.lean ====
section
/-! DEFINITION. One step of the machine (log 1), and the placing of an instruction where the next step fetches. -/

namespace Sys2Proof.Machine

/-- ONE STEP: time passes; then the work that the step before left, else the next event from outside, else what the machine does of
itself. -/
def step (s : State) : Host.Outcome State Fault Refusal :=
  let s := s.tick
  match s.die.due, s.agenda with
  | d :: rest, _ => (s.modDie fun x => { x with due := rest }).doDue d
  | [], i :: rest => exec i { s with agenda := rest }
  | [], [] => s.advance

/-- The strand that `withFetchWord` runs: firmware of the Tollhouse column, with every lane group (R18, R454). -/
def probeStrand : Strand :=
  { Strand.empty with
    pc := 0x1000
    priv := .firmware
    ctx := VCtx.fresh 0xF
    id := ⟨.column, 0, 0, 1, 0, 1, 4⟩ }

/-- The directory entry, the two table entries and the leaf (Table 18.4) that map the first GiB for ASID 0. -/
def probeTables (m : List Host.Cell) : List Host.Cell :=
  ssetAll 0 (ssetAll 0 (ssetAll 0 (ssetAll 0 m 0x40000 (leBytes 8 0x41001)) 0x41000 (leBytes 8 0x42001)) 0x42000 (leBytes 8 0xBF))
    0x80000 (leBytes 8 0x40001)

/-- The state in which the next step fetches the word at PC 0x1000, owner 0: a directory at 0x80000, a root table at 0x40000 and tables below it
at 0x41000 and 0x42000, whose one leaf maps the first GiB, every access allowed. -/
def State.withFetchWord (s : State) (_nbits w : Nat) : State :=
  { s with
    me := probeStrand
    meId := 0
    others := []
    agenda := []
    die := { s.die with
      due := []
      width := 2
      mmio := sset 0 (sset 0 s.die.mmio 0x200003000000 0x80001) 0x20000A000000 8
      cores := sset CoreS.empty s.die.cores 0 { CoreS.empty with lat := List.replicate 4 ⟨some 0, none⟩ }
      mem := { s.die.mem with bytes := ssetAll 0 (probeTables s.die.mem.bytes) 0x1000 (leBytes 4 w) } } }

end Sys2Proof.Machine
end

