-- ==== Sys2Proof/Safety.lean ====
section
/-! DEFINITION. What claims call a safe state and a safe run: the memories and the register file in their canonical form, and a machine
that goes on. -/

namespace Sys2Proof.Machine

/-- Every sparse list of the memories is in its canonical form: keys strictly rising, no entry at its default. -/
def Mem.wf (m : Mem) : Bool :=
  swf 0 m.bytes && swf 0 m.keys && swf 0 m.gens && swf 0 m.otags && swf 0 m.unclean && swf false m.errs
    && swf Line.none m.lines && swf [] m.under

/-- The memories and the memory-mapped registers are in their canonical form. -/
def Die.wf (d : Die) : Bool := d.mem.wf && swf 0 d.mmio

/-- The canonical form of a state. -/
def State.wf (s : State) : Prop := s.die.wf = true

/-- The step of a state goes on. -/
def State.goesOn (s : State) : Prop := ∃ t, step s = .next t

/-- `n` steps from a state go on. -/
def State.safeFor : Nat → State → Prop
  | 0, _ => True
  | n + 1, s => ∃ t, step s = .next t ∧ t.safeFor n

end Sys2Proof.Machine
end

