-- ==== Sys2Proof/Claims/Scalar.lean ====
section
/-! DEFINITION. The vocabulary of the statements about scalar instructions: the state after, and the results that the spec's tables give,
as numbers. -/

namespace Sys2Proof.Claims

open Sys2Proof.Machine

/-! ### Vocabulary: states after -/

/-- The issuing strand has retired at `pc`: nothing else of it, and nothing else of the machine, has changed. -/
def retiredAt (s : State) (pc : Word) : State :=
  { s with me := { s.me with pc := pc, run := { s.me.run with wait := .ready, retired := s.die.clock } } }

/-- The issuing strand has retired at the next PC. -/
def retired (s : State) : State := retiredAt s (s.me.pc + 4)

/-- The scalar registers after a write of `rd`: `s0` holds nothing (R14). -/
def regsAfter (t : Strand) (d : Fin 32) (v : Word) : Vector Word 32 := if d = 0 then t.regs else t.regs.set d v

/-- The issuing strand has written `rd` and retired; nothing else has changed. -/
def wrote (s : State) (d : Fin 32) (v : Word) : State :=
  retired { s with me := { s.me with regs := regsAfter s.me d v } }

/-- It has also ORed flags into FCSR[4:0]. -/
def wroteFlags (s : State) (d : Fin 32) (v : Word) (f : Flags) : State :=
  wrote { s with me := { s.me with fcsr := s.me.fcsr ||| f.zeroExtend 9 } } d v

/-- A vector instruction has retired: VSTART is zero (R23). -/
def retiredVec (s : State) : State := retired { s with me := { s.me with ctx := { s.me.ctx with vstart := 0 } } }

/-- A state, with what `t` notes of the words that the issuing strand has stored to since its last XPFENCE: the record for R327 (log 80). -/
def noting (t x : State) : State := { x with me := { x.me with run := { x.me.run with unfenced := t.me.run.unfenced } } }

/-- The issuing strand waits: its instruction has not retired. -/
def waits (s t : State) (w : Wait) : Prop := t.me.run.wait = w ∧ t.me.pc = s.me.pc

/-- The issuing strand has taken a synchronous exception with this code and TVAL (R199). -/
def trapped (s t : State) (code : Nat) (tval : Word) : Prop :=
  t.me.trap.tcause = BitVec.ofNat 9 code ∧ t.me.trap.tpc = s.me.pc ∧ t.me.trap.tval = tval ∧ t.me.trap.pprv = s.me.priv
    ∧ t.me.trap.hold = true ∧ t.me.regs = s.me.regs

/-! ### Vocabulary: integer results (Tables 4.2, 4.3, 4.4) -/

/-- A scalar register as an unsigned and as a signed number, and its low 32 bits so. -/
def u (s : State) (r : Fin 32) : Nat := (s.reg r).toNat
def z (s : State) (r : Fin 32) : Int := (s.reg r).toInt
def uw (s : State) (r : Fin 32) : Nat := u s r % 2 ^ 32
def zw (s : State) (r : Fin 32) : Int := ((u s r : Int) + 2 ^ 31) % 2 ^ 32 - 2 ^ 31

/-- A 32-bit result, sign-extended (R82). -/
def sx (x : Int) : Word := BitVec.ofInt 64 ((x + 2 ^ 31) % 2 ^ 32 - 2 ^ 31)

/-- The 64-bit form wraps modulo 2^64, the .W form is `sx` (R82, R84). -/
def res (w : Bool) (narrow wide : Int) : Word := if w then sx narrow else BitVec.ofInt 64 wide

/-- What a truth value writes. -/
def bit01 (p : Prop) [Decidable p] : Word := if p then 1 else 0

/-- imm16 of R54, as a signed and as an unsigned number. -/
def simm (i : Fin 65536) : Int := if i.val < 32768 then i.val else (i.val : Int) - 65536
/-- imm21 of R54 as a signed number. -/
def simm21 (i : Fin 2097152) : Int := if i.val < 1048576 then i.val else (i.val : Int) - 2097152

/-- The shifts and rotates by `n`, of the whole register and of its low word (Table 4.2). -/
def shlR (s : State) (a : Fin 32) (w : Bool) (n : Nat) : Word := res w (uw s a * 2 ^ (n % 32) : Nat) (u s a * 2 ^ (n % 64) : Nat)
def shrR (s : State) (a : Fin 32) (w : Bool) (n : Nat) : Word := res w (uw s a / 2 ^ (n % 32) : Nat) (u s a / 2 ^ (n % 64) : Nat)
def sarR (s : State) (a : Fin 32) (w : Bool) (n : Nat) : Word := res w (zw s a / 2 ^ (n % 32)) (z s a / 2 ^ (n % 64))
def rotR (s : State) (a : Fin 32) (w : Bool) (n : Nat) : Word :=
  res w (uw s a / 2 ^ (n % 32) + uw s a * 2 ^ (32 - n % 32) : Nat) (u s a / 2 ^ (n % 64) + u s a * 2 ^ (64 - n % 64) : Nat)

/-- The destination and the value that Table 4.2 and R86 give an ALU operation of registers. -/
def aluRule (s : State) : Instr → Option (Fin 32 × Word)
  | .add d a b w => some (d, res w (u s a + u s b) (u s a + u s b))
  | .sub d a b w => some (d, res w (u s a - u s b) (u s a - u s b))
  | .and d a b => some (d, s.reg a &&& s.reg b)
  | .or d a b => some (d, s.reg a ||| s.reg b)
  | .xor d a b => some (d, s.reg a ^^^ s.reg b)
  | .andn d a b => some (d, s.reg a &&& ~~~s.reg b)
  | .orn d a b => some (d, s.reg a ||| ~~~s.reg b)
  | .sll d a b w => some (d, shlR s a w (u s b))
  | .srl d a b w => some (d, shrR s a w (u s b))
  | .sra d a b w => some (d, sarR s a w (u s b))
  | .rotr d a b w => some (d, rotR s a w (u s b))
  | .slt d a b => some (d, bit01 (z s a < z s b))
  | .sltu d a b => some (d, bit01 (u s a < u s b))
  | .min d a b => some (d, BitVec.ofInt 64 (min (z s a) (z s b)))
  | .max d a b => some (d, BitVec.ofInt 64 (max (z s a) (z s b)))
  | .minu d a b => some (d, BitVec.ofNat 64 (min (u s a) (u s b)))
  | .maxu d a b => some (d, BitVec.ofNat 64 (max (u s a) (u s b)))
  | .shadd d a b w => some (d, BitVec.ofInt 64 (if w then u s b + 4 * zw s a else u s b + 8 * u s a))
  | .cmovz d a b => some (d, if u s b = 0 then s.reg a else s.reg d)
  | .cmovnz d a b => some (d, if u s b = 0 then s.reg d else s.reg a)
  | _ => none

/-- Multiplication, division, counts and extensions (Tables 4.2, 4.3). -/
def mulDivRule (s : State) : Instr → Option (Fin 32 × Word)
  | .mul d a b w => some (d, res w (u s a * u s b) (u s a * u s b))
  | .mulh d a b => some (d, BitVec.ofInt 64 (z s a * z s b / 2 ^ 64))
  | .mulhu d a b => some (d, BitVec.ofInt 64 (u s a * u s b / 2 ^ 64))
  | .div d a b w => some (d, res w (if zw s b = 0 then -1 else Int.tdiv (zw s a) (zw s b)) (if z s b = 0 then -1 else Int.tdiv (z s a) (z s b)))
  | .divu d a b w => some (d, res w (if uw s b = 0 then -1 else uw s a / uw s b) (if u s b = 0 then -1 else u s a / u s b))
  | .rem d a b w => some (d, res w (if zw s b = 0 then zw s a else zw s a - zw s b * Int.tdiv (zw s a) (zw s b))
      (if z s b = 0 then z s a else z s a - z s b * Int.tdiv (z s a) (z s b)))
  | .remu d a b w => some (d, res w (uw s a - uw s b * (uw s a / uw s b)) (u s a - u s b * (u s a / u s b)))
  | .clz d a w => some (d, BitVec.ofNat 64 (if w then (List.range 32).countP fun k => uw s a < 2 ^ k
      else (List.range 64).countP fun k => u s a < 2 ^ k))
  | .ctz d a w => some (d, BitVec.ofNat 64 (if w then (List.range 32).countP fun k => uw s a % 2 ^ (k + 1) = 0
      else (List.range 64).countP fun k => u s a % 2 ^ (k + 1) = 0))
  | .popc d a w => some (d, BitVec.ofNat 64 ((List.range (if w then 32 else 64)).map fun k => u s a / 2 ^ k % 2).sum)
  | .brev d a => some (d, BitVec.ofNat 64 ((List.range 64).map fun k => 2 ^ (63 - k) * (u s a / 2 ^ k % 2)).sum)
  | .sext d a k =>
    let n := 2 ^ (k.val + 3)
    some (d, BitVec.ofInt 64 (((u s a : Int) + 2 ^ (n - 1)) % 2 ^ n - 2 ^ (n - 1)))
  | .zext d a k => some (d, BitVec.ofNat 64 (u s a % 2 ^ 2 ^ (k.val + 3)))
  | _ => none

/-- The immediate operations (R87). -/
def immRule (s : State) : Instr → Option (Fin 32 × Word)
  | .addi d a i => some (d, BitVec.ofInt 64 (u s a + simm i))
  | .andi d a i => some (d, s.reg a &&& BitVec.ofNat 64 i)
  | .ori d a i => some (d, s.reg a ||| BitVec.ofNat 64 i)
  | .xori d a i => some (d, s.reg a ^^^ BitVec.ofNat 64 i)
  | .slti d a i => some (d, bit01 (z s a < simm i))
  | .sltiu d a i => some (d, bit01 ((u s a : Int) < simm i % 2 ^ 64))
  | .slli d a w n => some (d, shlR s a w n)
  | .srli d a w n => some (d, shrR s a w n)
  | .srai d a w n => some (d, sarR s a w n)
  | .rotri d a w n => some (d, rotR s a w n)
  | .luh d i => some (d, BitVec.ofInt 64 (simm21 i * 2 ^ 16))
  | .pcadd d i => some (d, BitVec.ofInt 64 (s.me.pc.toNat + simm21 i * 2 ^ 16))
  | _ => none

/-! ### Vocabulary: floating point -/

/-- An exact value rounded into a scalar format (R39, R94), with the flags of the value and of the rounding. -/
def roundTo (s : State) (f : Fmt) (rz : Bool) (x : FV × Flags) : Nat × Flags :=
  ((x.1.round f (s.me.scalarMode rz) false).1, (x.1.round f (s.me.scalarMode rz) false).2 ||| x.2)

/-- The integer of a register under an integer type code of Table 3.4. -/
def intOf (s : State) (a : Fin 32) (t : Fin 4) : Int :=
  if t = 0 then zw s a else if t = 1 then uw s a else if t = 2 then z s a else u s a

/-- The bounds of an integer type code. -/
def intMin (t : Fin 4) : Int := if t = 0 then -2 ^ 31 else if t = 2 then -2 ^ 63 else 0
def intMax (t : Fin 4) : Int := if t = 0 then 2 ^ 31 - 1 else if t = 1 then 2 ^ 32 - 1 else if t = 2 then 2 ^ 63 - 1 else 2 ^ 64 - 1

/-- The lesser of two operands' bits, or with `g` the greater (R37). -/
def minMaxBits (s : State) (f : Fmt) (g : Bool) (a b : Fin 32) : Nat :=
  let x := s.fp f a
  let y := s.fp f b
  if x.isNan && y.isNan then f.nanBits
  else if x.isNan then fpBits f (s.reg b)
  else if y.isNan then fpBits f (s.reg a)
  else if (x.lt y || (x.eq y && x.sign && !y.sign)) != g then fpBits f (s.reg a)
  else fpBits f (s.reg b)

/-- Table 4.10, from the bits of a format. -/
def classOf (f : Fmt) (b : Nat) : Nat :=
  let neg := b / 2 ^ f.signPos % 2 = 1
  let m := b % 2 ^ f.signPos
  if m = 0 then (if neg then 8 else 16)
  else if m < 2 ^ f.frac then (if neg then 4 else 32)
  else if m < f.infBits then (if neg then 2 else 64)
  else if m = f.infBits then (if neg then 1 else 128)
  else if m < f.infBits + 2 ^ (f.frac - 1) then 256 else 512

/-- The destination, the bits and the flags of a scalar FP instruction (R94 to R97). -/
def fpRule (s : State) : Instr → Option (Fin 32 × Nat × Flags)
  | .fadd d a b f z => some (d, roundTo s (fmtOf f) z (sumFV [s.fp (fmtOf f) a, s.fp (fmtOf f) b]))
  | .fsub d a b f z => some (d, roundTo s (fmtOf f) z (sumFV [s.fp (fmtOf f) a, (s.fp (fmtOf f) b).neg]))
  | .fmul d a b f z => some (d, roundTo s (fmtOf f) z ((s.fp (fmtOf f) a).mul (s.fp (fmtOf f) b)))
  | .fdiv d a b f z => some (d, roundTo s (fmtOf f) z ((s.fp (fmtOf f) a).div (s.fp (fmtOf f) b)))
  | .fsqrt d a f z => some (d, roundTo s (fmtOf f) z (s.fp (fmtOf f) a).sqrt)
  | .fmadd d a b f z => some (d, roundTo s (fmtOf f) z (dotFV [s.fp (fmtOf f) d] [(s.fp (fmtOf f) a, s.fp (fmtOf f) b)]))
  | .fmin d a b f => some (d, minMaxBits s (fmtOf f) false a b, (s.fp (fmtOf f) a).sigFlag ||| (s.fp (fmtOf f) b).sigFlag)
  | .fmax d a b f => some (d, minMaxBits s (fmtOf f) true a b, (s.fp (fmtOf f) a).sigFlag ||| (s.fp (fmtOf f) b).sigFlag)
  | .feq d a b f => some (d, if (s.fp (fmtOf f) a).eq (s.fp (fmtOf f) b) then 1 else 0,
      if (s.fp (fmtOf f) a).isSig || (s.fp (fmtOf f) b).isSig then fNV else 0)
  | .flt d a b f => some (d, if (s.fp (fmtOf f) a).lt (s.fp (fmtOf f) b) then 1 else 0,
      if (s.fp (fmtOf f) a).isNan || (s.fp (fmtOf f) b).isNan then fNV else 0)
  | .fle d a b f => some (d, if (s.fp (fmtOf f) a).lt (s.fp (fmtOf f) b) || (s.fp (fmtOf f) a).eq (s.fp (fmtOf f) b) then 1 else 0,
      if (s.fp (fmtOf f) a).isNan || (s.fp (fmtOf f) b).isNan then fNV else 0)
  | .fclass d a f => some (d, classOf (fmtOf f) (fpBits (fmtOf f) (s.reg a)), 0)
  | .fcvtI d a f z t =>
    let r := (s.fp (fmtOf f) a).toInt (s.me.scalarMode z) (intMin t) (intMax t)
    some (d, (r.1 % 2 ^ 64).toNat, r.2)
  | .fcvtF d a f z t => some (d, roundTo s (fmtOf f) z (FV.ofInt (intOf s a t), 0))
  | .fcvt d a f z g => some (d, roundTo s (fmtOf f) z (s.fp (fmtOf g) a, (s.fp (fmtOf g) a).sigFlag))
  | _ => none

/-! ### Vocabulary: branches -/

/-- The condition and the signed word offset of a conditional branch (R98). -/
def branchRule (s : State) : Instr → Option (Bool × Int)
  | .beqz a o => some (decide (z s a = 0), toSigned 18 o)
  | .bnez a o => some (decide (z s a ≠ 0), toSigned 18 o)
  | .bltz a o => some (decide (z s a < 0), toSigned 18 o)
  | .bgez a o => some (decide (0 ≤ z s a), toSigned 18 o)
  | .bgtz a o => some (decide (0 < z s a), toSigned 18 o)
  | .blez a o => some (decide (z s a ≤ 0), toSigned 18 o)
  | .beq a b o => some (decide (u s a = u s b), toSigned 13 o)
  | .bne a b o => some (decide (u s a ≠ u s b), toSigned 13 o)
  | .blt a b o => some (decide (z s a < z s b), toSigned 13 o)
  | .bge a b o => some (decide (z s b ≤ z s a), toSigned 13 o)
  | .bltu a b o => some (decide (u s a < u s b), toSigned 13 o)
  | .bgeu a b o => some (decide (u s b ≤ u s a), toSigned 13 o)
  | .j o => some (true, toSigned 26 o)
  | _ => none

/-- PC + 4 × off. -/
def targetOf (s : State) (off : Int) : Word := s.me.pc + BitVec.ofInt 64 (4 * off)

/-- Bits [63:54] of a target are zero (R83). -/
abbrev inRange (t : Word) : Prop := t.toNat < 2 ^ 54

/-! ### Vocabulary: rounding -/

/-- The rational number that a finite value is; infinities and NaNs have none. -/
def ratOf : FV → Option Rat
  | .fin n m e => some ((if n then -1 else 1) * m * (2 : Rat) ^ e)
  | _ => none

/-- The rational number that the bits of a format encode. -/
def ratBits (f : Fmt) (b : Nat) : Option Rat := ratOf (FV.ofBits f b)

/-- The distance of two rationals. -/
def apart (x y : Rat) : Rat := if x ≤ y then y - x else x - y

/-- The magnitude of a rational. -/
def magnitude (x : Rat) : Rat := apart 0 x

/-- `x` rounded into `f` by a mode, bits and flags. -/
def rounded (f : Fmt) (m : Mode) (sat : Bool) (n : Bool) (k : Nat) (e : Int) : Nat × Flags := (FV.fin n k e).round f m sat

end Sys2Proof.Claims
end

