-- ==== Sys2Proof/Claims/Memory.lean ====
section
/-! DEFINITION. The vocabulary of the statements about memory, AMOs, the CSRs and the strands. -/

namespace Sys2Proof.Claims

open Sys2Proof.Machine

/-! ### Vocabulary: memory -/

/-- The byte at a physical address of a memory of the die as an owner reads it: LPDDR 6 through the owner's key (R303, R424), an on-die memory
with its unclean granules zero (R309). -/
def seen (d : Die) (o a : Nat) : Byte := if a < 0x4000000000 then d.mem.lpByte o a else d.mem.dieByte a

/-- A physical address names a memory of the die: LPDDR 6, the CSM, a CSP or a CLM (R300). -/
def isMemory (d : Die) (pa : Nat) : Prop :=
  match d.target pa with
  | .lpddr | .csm _ | .csp _ _ | .clm _ _ => True
  | _ => False

/-- No dirty sector of the L2 would be refused at its controller when it is written back (R406), so that no eviction loses data. -/
def writesBack (d : Die) : Prop :=
  ∀ a : Nat, ∀ k < 4, (sget Line.none d.mem.lines a).dirty.getLsbD k = true →
    d.admits (0x400 + lpController (512 * a + 128 * k)) (sget Line.none d.mem.lines a).owner true = true

/-- The 4 KiB block of an on-die address belongs to an owner, or the address is one of LPDDR 6 (R228, R309). -/
abbrev holdsBlock (d : Die) (o pa : Nat) : Prop := pa < 0x4000000000 ∨ sget 0 d.mem.otags (pa / 4096) = o + 1

/-- A request lies within one 128-byte sector. -/
abbrev inSector (pa n : Nat) : Prop := pa % 128 + n ≤ 128

/-- The translation of an access of the issuing strand (R83, R88): it is in range, aligned and allowed, at a physical address with a memory
type, in the state with the caches and the accessed and dirty bits that this leaves. -/
def translatesTo (s : State) (va n : Nat) (a : Acc) (pa mt : Nat) (s' : State) (amo : Bool := false) : Prop :=
  s.resolveScalar va n a amo = .inl (.ok (pa, mt, s'))

/-- The address of a load or a store, a + sext(imm13) (R88). -/
def eaOf (s : State) (a : Fin 32) (i : Fin 8192) : Nat := (s.reg a + BitVec.ofInt 64 (toSigned 13 i)).toNat

/-- The physical address that Table 7.2 gives a local-window offset on a core; none elsewhere in the window. -/
def windowAt (core off : Nat) : Option Nat :=
  if off < 0x40000 then some (0x120000000000 + 0x40000 * core + off)
  else if 0x10000000 ≤ off ∧ off < 0x10200000 then some (0x110000000000 + 0x200000 * (core / 4) + (off - 0x10000000))
  else none

/-- A cached translation serves an access and admits it (R341, R342), and its A bit, and for a write its D bit, is set: it is the one that the
lookup finds, of the owner and the ASID, for the page of `va`. -/
def leafServes (s : State) (va : Nat) (a : Acc) (c : Copy) : Prop :=
  s.die.findCopy s.core s.me.id.owner s.me.xasid.toNat va [] = some c
  ∧ (a.reads = true → pteBit c.pte 1 = true) ∧ (a.writes = true → pteBit c.pte 2 = true) ∧ a ≠ .fetch
  ∧ pteBit c.pte 4 = true ∧ (a.writes = true → pteBit c.pte 5 = true)

/-- The bytes of a size code (R62). -/
def sizeBytes (c : Fin 8) : Nat := 2 ^ (c.val % 4)

/-- The n low bytes of a value, little-endian (R9). -/
def bytesOf (n v : Nat) : List Byte := (List.range n).map fun i => BitVec.ofNat 8 (v / 256 ^ i)

/-- The number that bytes are, little-endian (R9). -/
def numOf (bs : List Byte) : Nat := ((List.range bs.length).map fun i => (bs.getD i 0).toNat * 256 ^ i).sum

/-- A loaded value, sign-extended for the codes B, H, W and zero-extended for the others (R88). -/
def loaded (c : Fin 8) (bs : List Byte) : Word :=
  let x := numOf bs
  if c.val < 4 ∧ 2 ^ (8 * sizeBytes c - 1) ≤ x then BitVec.ofInt 64 ((x : Int) - 2 ^ (8 * sizeBytes c)) else BitVec.ofNat 64 x

/-- A sign-extended result of n bytes. -/
def sextOf (n x : Nat) : Word := BitVec.ofInt 64 (((x : Int) + 2 ^ (8 * n - 1)) % 2 ^ (8 * n) - 2 ^ (8 * n - 1))

/-- The address and the bytes of an AMO. -/
def amoBytes (w : Bool) : Nat := if w then 8 else 4

/-- What an AMO writes in memory, or none (R91). -/
def amoNew (op : Amo) (n old b c : Nat) : Option Nat :=
  let sg (x : Nat) : Int := toSigned (8 * n) x
  match op with
  | .lda => none
  | .sta | .swap => some b
  | .cas => if old = c then some b else none
  | .fadd => some ((old + b) % 2 ^ (8 * n))
  | .fand => some (old &&& b)
  | .for => some (old ||| b)
  | .fxor => some (old ^^^ b)
  | .fmin => some (if sg b < sg old then b else old)
  | .fmax => some (if sg old < sg b then b else old)
  | .fminu => some (min old b)
  | .fmaxu => some (max old b)
  | .faddf => some ((sumFV [FV.ofBits .f32 old, FV.ofBits .f32 b]).1.round .f32 .rne false).1

/-- The AMO of an instruction: its operation, rd, the address and data registers, its width, its order and its scope. -/
def amoOf : Instr → Option (Amo × Fin 32 × Fin 32 × Fin 32 × Bool × Fin 4 × Fin 8)
  | .lda d a w o c => some (.lda, d, a, 0, w, o, c)
  | .sta a b w o c => some (.sta, 0, a, b, w, o, c)
  | .swap d a b w o c => some (.swap, d, a, b, w, o, c)
  | .cas d a b w o c => some (.cas, d, a, b, w, o, c)
  | .amoFadd d a b w o c => some (.fadd, d, a, b, w, o, c)
  | .amoFand d a b w o c => some (.fand, d, a, b, w, o, c)
  | .amoFor d a b w o c => some (.for, d, a, b, w, o, c)
  | .amoFxor d a b w o c => some (.fxor, d, a, b, w, o, c)
  | .amoFmin d a b w o c => some (.fmin, d, a, b, w, o, c)
  | .amoFmax d a b w o c => some (.fmax, d, a, b, w, o, c)
  | .amoFminu d a b w o c => some (.fminu, d, a, b, w, o, c)
  | .amoFmaxu d a b w o c => some (.fmaxu, d, a, b, w, o, c)
  | .amoFaddf d a b o c => some (.faddf, d, a, b, false, o, c)
  | _ => none

/-- Every posted write that the issuing strand has sent has performed (R319). -/
def storesDone (s : State) : Prop := ∀ p ∈ s.die.posted, p.source ≠ s.meId

/-- The state after the order of an AMO that performs: an sc one draws a ticket (R93), and at scope .y every earlier request of the strand to the
host comes before every later one (R330). -/
def sequenced (s : State) (o : Fin 4) (c : Fin 8) : State :=
  if o ≠ 3 then s
  else
    let log := s.me.run.hostLog.map fun e => if e.load || e.store then { e with loads := true, stores := true } else e
    { s with
      die := { s.die with tickets := s.die.tickets + 1 }
      me := if c = 4 then { s.me with run := { s.me.run with hostLog := log } } else s.me }

/-! ### Vocabulary: control and status registers -/

/-- popcount(GM) (Table 1.6). -/
def groups (s : State) : Nat := ((List.range 4).filter fun i => s.me.ctx.gm.getLsbD i).length

/-- What a CSR reads (Table 1.3 with the field maps of Tables 1.4 to 1.9, 10.3, 10.4, 14.10, 18.1 and 18.2); none for a number that is not
allocated. -/
def csrValue (s : State) (n : Nat) : Option Word :=
  let t := s.me
  let lease (v : Nat) : Option Word := some (BitVec.ofNat 64 (if t.ctx.gm = 0 then 0 else v))
  if n = 0x000 then some (t.fcsr.zeroExtend 64)
  else if n = 0x010 then some (BitVec.ofNat 64 t.ctx.vl)
  else if n = 0x011 then some (t.ctx.vmc.zeroExtend 64)
  else if n = 0x012 then some (BitVec.ofNat 64 t.ctx.vstart)
  else if n = 0x100 then some t.trap.stvec
  else if n = 0x101 then some t.trap.sscratch
  else if n = 0x140 then some (t.trap.tcause.zeroExtend 64)
  else if n = 0x141 then some t.trap.tpc
  else if n = 0x142 then some t.trap.tval
  else if n = 0x143 then some t.trap.telem
  else if n = 0x144 then some (t.trap.tidx3.zeroExtend 64)
  else if n = 0x145 then some (BitVec.ofNat 64 ((if t.trap.hold then 0x100 else 0) + 0x10 * t.priv.code + t.trap.pprv.code))
  else if n = 0x180 then some (t.xasid.zeroExtend 64)
  else if n = 0x300 then some t.trap.ftvec
  else if n = 0x301 then some t.trap.fscratch
  else if n = 0x382 then some (t.fxsel.zeroExtend 64)
  else if n = 0xC00 then some (BitVec.ofNat 64 s.die.dtime)
  else if n = 0xC01 then some (t.id.job.zeroExtend 64)
  else if n = 0xC10 then some (BitVec.ofNat 64 (64 * groups s))
  else if n = 0xC11 then lease (groups s * 2 ^ 16 + 64 * 2 ^ 8 + 16 * groups s)
  else if n = 0xC12 then lease (64 * (t.id.prefG - 1) + 16 * (t.id.minG - 1) + t.ctx.gm.toNat)
  else if n = 0xC13 then some (BitVec.ofNat 64 t.ctx.strip)
  else if n = 0xC14 then some (BitVec.ofNat 64 t.ctx.stripn)
  else if 0xC20 ≤ n ∧ n < 0xC40 then some ((sget 0 t.ctx.pix (n - 0xC20)).zeroExtend 64)
  else if 0x040 ≤ n ∧ n < 0x050 then some (BitVec.ofNat 64 (sget 0 t.dom (n - 0x040)))
  else if n = 0x380 then some (BitVec.ofNat 64 (s.coreS s.core).clat)
  else if n = 0x381 then some (BitVec.ofNat 64 ((s.coreS s.core).wdog.toNat * 2 ^ 16 + (s.coreS s.core).rgwin.toNat))
  else none

/-- The state after a write to a writable CSR that holds no domain slot (R20, R22, R24, R209, R336, Tables 1.3 to 1.9); none for another number. -/
def csrAfter (s : State) (n : Nat) (w : Word) : Option State :=
  let t := s.me
  let top := 2 ^ bits t.ctx.vmc.toNat 5 4 * (64 * groups s)
  let rounding : BitVec 9 := if w.getLsbD 7 then (w.truncate 9 &&& 0x11F) ||| (t.fcsr &&& 0xE0) else w.truncate 9
  let prior : Priv := if w.getLsbD 0 then (if w.getLsbD 1 then .firmware else .supervisor) else .user
  let trapSet (x : Trap) : Option State := some { s with me := { t with trap := x } }
  let ctxSet (x : VCtx) : Option State := some { s with me := { t with ctx := x } }
  let core := { s.coreS s.core with wdog := BitVec.ofNat 16 (w.toNat / 2 ^ 16), rgwin := w.truncate 16 }
  if n = 0x000 then some { s with me := { t with fcsr := rounding } }
  else if n = 0x010 then ctxSet { t.ctx with vl := min w.toNat top }
  else if n = 0x011 then ctxSet { t.ctx with vmc := w.truncate 7, vl := min t.ctx.vl (2 ^ bits w.toNat 5 4 * (64 * groups s)) }
  else if n = 0x012 then ctxSet { t.ctx with vstart := w.toNat }
  else if n = 0x100 then trapSet { t.trap with stvec := w &&& ~~~3 }
  else if n = 0x101 then trapSet { t.trap with sscratch := w }
  else if n = 0x140 then trapSet { t.trap with tcause := w.truncate 9 }
  else if n = 0x141 then trapSet { t.trap with tpc := w }
  else if n = 0x142 then trapSet { t.trap with tval := w }
  else if n = 0x143 then trapSet { t.trap with telem := w }
  else if n = 0x144 then trapSet { t.trap with tidx3 := w.truncate 63 }
  else if n = 0x145 then trapSet { t.trap with hold := w.getLsbD 8, pprv := prior }
  else if n = 0x180 then some { s with me := { t with xasid := w.truncate 16 } }
  else if n = 0x300 then trapSet { t.trap with ftvec := w &&& ~~~3 }
  else if n = 0x301 then trapSet { t.trap with fscratch := w }
  else if n = 0x380 then some s
  else if n = 0x381 then some { s with die := { s.die with cores := sset CoreS.empty s.die.cores s.core core } }
  else if n = 0x382 then some { s with me := { t with fxsel := w.truncate 9 } }
  else none

/-- The numbers that Tables 1.3, 10.3, 10.4, 14.10, 18.1 and 18.2 allocate (R20). -/
def csrKnown (n : Nat) : Bool :=
  [0x000, 0x010, 0x011, 0x012, 0x100, 0x101, 0x140, 0x141, 0x142, 0x143, 0x144, 0x145, 0x180, 0x300, 0x301, 0x380, 0x381, 0x382, 0xC00, 0xC01,
    0xC10, 0xC11, 0xC12, 0xC13, 0xC14].contains n || decide (0xC20 ≤ n ∧ n < 0xC40) || decide (0x040 ≤ n ∧ n < 0x050)

/-- The privilege of a CSR is held (R19). -/
abbrev csrAllowed (s : State) (n : Nat) : Prop := n / 2 ^ 8 % 4 ≤ s.me.priv.code

/-- The CSR is one of the vector context, which needs a lease to be written (R20). -/
abbrev csrNeedsLease (n : Nat) : Prop := n = 0x010 ∨ n = 0x011 ∨ n = 0x012

/-! ### Vocabulary: events of one strand -/

/-- No strand but `i` has changed, and the same strand is the issuing one. -/
def onlyStrand (s t : State) (i : Nat) : Prop := t.meId = s.meId ∧ ∀ j, j ≠ i → t.strand j = s.strand j

end Sys2Proof.Claims
end

