-- ==== Sys2Proof/Claims/Events.lean ====
section
/-! DEFINITION. The vocabulary of the statements about messages, jobs, engines and the other events of the die. -/

namespace Sys2Proof.Claims

open Sys2Proof.Machine

/-- Nothing of any strand has changed, nor what is to happen next. -/
def sameStrands (s t : State) : Prop := t.me = s.me ∧ t.meId = s.meId ∧ t.others = s.others ∧ t.agenda = s.agenda

/-- The state with another die. -/
def onDie (s : State) (d : Die) : State := { s with die := d }

/-- The state with more work left for the next steps. -/
def withDue (s : State) (d : Due) : State := onDie s { s.die with due := s.die.due ++ [d] }

/-- Every register but those at `as` reads as before. -/
def regsKept (d d' : Die) (as : List Nat) : Prop := ∀ a, a ∉ as → d'.reg a = d.reg a

/-- What a core holds, and the state with that replaced. -/
def coreOf (s : State) (c : Nat) : CoreS := sget CoreS.empty s.die.cores c
def onCore (s : State) (c : Nat) (x : CoreS) : State := onDie s { s.die with cores := sset CoreS.empty s.die.cores c x }

/-- Handler slots taken: by every message in the queue, those that wait on a reservation among them (R257). -/
def handlersHeld (c : CoreS) : Nat := c.handlers.length

/-- The message that a strand sends: its owner, ASID, core and strand in the header, and six registers (R248, R252, R253). -/
def msgOf (s : State) (cont twin : Bool) (lmin lpref target : Nat) (n : Fin 32) : Msg where
  owner := s.me.id.owner
  asid := s.me.xasid.toNat
  score := s.meId / 8
  sstr := s.meId % 8
  twin := twin
  lmin := lmin
  lpref := lpref
  orig := 0
  cont := cont
  target := target
  payload := (List.range 6).map fun i => s.me.reg (Fin.ofNat 32 (n.val + i))
  job := s.me.id.job.toNat
  noJob := s.me.id.kind == .column

/-- The state codes of Table 19.2. -/
def stateCode : JState → Nat
  | .pending => 1
  | .ready => 2
  | .dispatching => 3
  | .running => 4
  | .saved => 5
  | .checkpointed => 6
  | .exiting => 7
  | .ended => 8

/-- (DEADLINE, handle) compared (R368, R370). -/
def sooner (a b : Nat × Job) : Prop :=
  a.2.deadline < b.2.deadline ∨ a.2.deadline = b.2.deadline ∧ a.2.gen * 65536 + a.1 < b.2.gen * 65536 + b.1

/-! ### Invalidations (R104, R105, R346, R347) -/

/-- The copy is of the owner and the ASID of the invalidation, and with no `.all` it covers an address of the range (R104, R346). -/
abbrev namedBy (i : Inval) (c : Copy) : Prop :=
  c.owner = i.owner ∧ c.asid = i.asid
    ∧ (i.all = true ∨ i.count ≠ 0 ∧ c.vbase < i.base + 4096 * i.count ∧ i.base < c.vbase + 2 ^ c.size)

/-- The strand with the copies of a set gone from its descriptors, and from those of queued instructions that have not made their probe. -/
def pagesDropped (p : Copy → Prop) [DecidablePred p] (t : Strand) : Strand :=
  let kept (d : Desc) : Desc := { d with xlat := d.xlat.filter fun c => decide ¬p c }
  { t with ctx := { t.ctx with
    sd := t.ctx.sd.map fun e => (e.1, kept e.2)
    queue := t.ctx.queue.map fun q => if q.probed = true then q else { q with desc := kept q.desc } } }

/-- Another strand lies within a scope of a strand: its core, its cluster, or the die (Table 17.2). -/
def near (scope me other : Nat) : Prop :=
  (scope = 1 ∧ me / 8 = other / 8) ∨ (scope = 2 ∧ me / 32 = other / 32) ∨ 3 ≤ scope

/-- A strand has accesses to make or to complete through a copy that an invalidation dropped: a queued vector instruction that had made its
probe; at die scope a request to a window that has not left the die, and at system scope one that has not completed (R347). -/
def usesDropped (scope : Nat) (v : Inval) (t : Strand) : Prop :=
  (∃ q ∈ t.ctx.queue, q.probed = true ∧ q.probedAt ≤ v.stamp ∧ ∃ c ∈ q.desc.xlat, namedBy v c)
    ∨ (3 ≤ scope ∧ ∃ q, t.run.hostReq = some q ∧ q.made ≤ v.stamp ∧ namedBy v q.copy ∧ (4 ≤ scope ∨ q.phase ≠ .sent))

/-- Something that a TLBSYNC of a scope waits for is outstanding for an invalidation (R105, R345, R347): a walk that it marked (walkers lie at
die scope), an access of a strand of the scope, or a posted write that has not performed. -/
def outstanding (s : State) (scope : Nat) (v : Inval) : Prop :=
  (3 ≤ scope ∧ ∃ e ∈ s.die.walks, ∃ w ∈ e.2, v ∈ w.marks)
    ∨ (∃ e ∈ s.others, near scope s.meId e.1 ∧ usesDropped scope v e.2)
    ∨ (∃ p ∈ s.die.posted, (p.source = s.meId ∨ near scope s.meId p.source) ∧ (p.twin = true ∨ p.held ≠ none) ∧ p.made ≤ v.stamp
        ∧ (namedBy v p.copy ∨ 2048 ≤ p.source ∧ p.owner = v.owner))

/-! ### Barriers (R291 to R293) -/

/-- The counter that a slot value of a strand names: LEVEL and ID, and the strand, core, cluster or die (Table 14.11). -/
def counterKey (strand v : Nat) : Nat :=
  2 ^ 20 * (v / 2 ^ 30 % 4) + 64 * [strand, strand / 8, strand / 32, 0].getD (v / 2 ^ 30 % 4) 0 + v / 2 ^ 24 % 64

/-- The slot of a BAR. -/
def barOf : Instr → Option Nat
  | .bar0 => some 0
  | .bar1 => some 1
  | .bar2 => some 2
  | .bar3 => some 3
  | .bar4 => some 4
  | .bar5 => some 5
  | .bar6 => some 6
  | .bar7 => some 7
  | .bar8 => some 8
  | .bar9 => some 9
  | .bar10 => some 10
  | .bar11 => some 11
  | .bar12 => some 12
  | .bar13 => some 13
  | .bar14 => some 14
  | .bar15 => some 15
  | _ => none

/-- The issuing strand has arrived at the domain of its slot `d`: one arrival more and ARR set; at the last the phase has advanced, and no
slot of that counter has ARR. Nothing else of a slot or a counter has changed. -/
def arrived (s t : State) (d : Nat) : Prop :=
  let v := sget 0 s.me.dom d
  let k := counterKey s.meId v
  let b := sget Barrier.free s.die.barriers k
  let last := b.arrivals + 1 = b.count
  t.meId = s.meId
    ∧ sget Barrier.free t.die.barriers k = (if last then { b with phase := (b.phase + 1) % 2 ^ 32, arrivals := 0 }
        else { b with arrivals := b.arrivals + 1 })
    ∧ (∀ n, n ≠ k → sget Barrier.free t.die.barriers n = sget Barrier.free s.die.barriers n)
    ∧ (∀ j n, sget 0 (t.strand j).dom n =
        let w := sget 0 (s.strand j).dom n
        if last then (if w < 2 ^ 64 ∧ w % 2 = 1 ∧ counterKey j w = k then w - 2 * (w / 2 % 2) else w)
        else if j = s.meId ∧ n = d then v + 2 else w)
    ∧ (∀ j, j ≠ s.meId → (t.strand j).pc = (s.strand j).pc ∧ (t.strand j).regs = (s.strand j).regs ∧ (t.strand j).run = (s.strand j).run)

/-! ### Fronthaul (R398, R399) -/

/-- Rule r of port p (Table 20.7). -/
def portRule (d : Die) (p r : Nat) : Nat :=
  d.reg (0x200005000000 + 0x1000 * p + 16 * r + 8) * 2 ^ 64 + d.reg (0x200005000000 + 0x1000 * p + 16 * r)

/-- The rule is valid and takes a section of the plane with that eAxC, symbol and first PRB (Table 20.7). -/
def ruleTakes (x : Nat) (cplane : Bool) (eaxc sym prb : Nat) : Bool :=
  decide (x / 2 ^ 64 % 2 = 1 ∧ (x / 2 ^ 66 % 4 = 2 ∨ x / 2 ^ 66 % 4 = if cplane then 1 else 0)
    ∧ (eaxc ^^^ (x / 2 ^ 112 % 2 ^ 16)) &&& (x / 2 ^ 96 % 2 ^ 16) = 0
    ∧ x / 2 ^ 92 % 16 ≤ sym ∧ sym ≤ x / 2 ^ 88 % 16 ∧ x / 2 ^ 78 % 1024 ≤ prb ∧ prb ≤ x / 2 ^ 68 % 1024)

/-- A port has dropped a frame or a section and counted it. -/
def dropped (s : State) (p : Nat) : State :=
  onDie s { s.die with ports := { s.die.ports with drops := sset 0 s.die.ports.drops p (sget 0 s.die.ports.drops p + 1) } }

/-- The number that bytes make, the most significant first. -/
def bigEndian (bs : List Byte) : Nat := bs.foldl (fun x b => 256 * x + b.toNat) 0

/-- PRBs decompressed (R399): each has an exponent byte and 24 mantissas of m bits, the most significant bit first, and becomes 24 16-bit
components, saturated. -/
def expandedPrbs (m num : Nat) (bs : List Byte) : List Byte :=
  (List.range num).flatMap fun i =>
    let prb := (bs.drop ((1 + 3 * m) * i)).take (1 + 3 * m)
    let e := (prb.getD 0 0).toNat % 16
    (List.range 24).flatMap fun n =>
      let x : Int := toSigned m (bigEndian (prb.drop 1) / 2 ^ (m * (23 - n)) % 2 ^ m) * (2 ^ e : Nat)
      let y := (max (-32768) (min 32767 x) % 65536).toNat
      [BitVec.ofNat 8 y, BitVec.ofNat 8 (y / 256)]

/-- 16-bit components from network order to memory order. -/
def swappedPairs (bs : List Byte) : List Byte :=
  (List.range bs.length).map fun i => bs.getD (if i % 2 = 0 then i + 1 else i - 1) 0

/-! ### Engines (R387 to R391) -/

/-- The first unfinished command of an engine is `c`, with that OP. -/
def pending (d : Die) (e op : Nat) (c : Cmd) : Prop :=
  ∃ pre post, d.cmds = pre ++ c :: post ∧ c.engine = e ∧ c.done = none ∧ dw c.words 1 % 256 = op ∧ ∀ x ∈ pre, x.engine ≠ e ∨ x.done ≠ none

/-- A command has finished with a status, its progress and doubleword 2 of its completion: no failing VA. -/
def finished (d : Die) (c : Cmd) (status prog info : Nat) : Die :=
  { d with cmds := d.cmds.replace c { c with done := some (status, prog, info, 0) } }

/-- The event of a ferry operation, by its OP (Table 20.4). -/
def ferryEvent (e op : Nat) (i : Instr) : Prop :=
  op = 0 ∧ i = .ferryCopy e ∨ op = 1 ∧ i = .ferryCopy3 e ∨ op = 2 ∧ i = .ferryGather e ∨ op = 3 ∧ i = .ferryScatter e
    ∨ op = 4 ∧ i = .ferryFill e ∨ op = 5 ∧ i = .ferryMigrate e ∨ op = 6 ∧ i = .ferryUpdate e

/-- A VA moved by a signed displacement. -/
def moved (va : Nat) (x : Int) : Nat := ((va + x) % 2 ^ 64).toNat

/-- `n` bytes from a source to a destination, each within one sector and granted: the die after. -/
def oneCopy (c : Cmd) (src dst n : Nat) (d : Die) : Option (Nat × Die) :=
  if n ≤ 128 - src % 128 ∧ n ≤ 128 - dst % 128 then
    match d.engPlace c src .read with
    | .ok a d => match d.engPlace c dst .write with
      | .ok b d => match d.engRead c a n with
        | .ok (bs, d) => some (n, d.engWrite c b bs)
        | .error _ => none
      | _ => none
    | _ => none
  else none

/-- The index that GATHER and SCATTER read for element `k`. -/
def oneIndex (c : Cmd) (k : Nat) (d : Die) : Option (Int × Die) :=
  match d.engPlace c (moved (dw c.words 4) (4 * k)) .read with
  | .ok a d => match d.engRead c a 4 with
    | .ok (bs, d) => some (toSigned 32 (leVal bs), d)
    | .error _ => none
  | _ => none

/-- An address of LPDDR 6 or the CSM, whose near-bank units perform updates (R310). -/
def nearBanked (d : Die) (pa : Nat) : Bool :=
  match d.target pa with
  | .lpddr | .csm _ => true
  | _ => false

/-- The rest of the run at offset `b` of a ferry command's destination sequence, where it lies within one sector (R391): COPY and COPY3 from
source to destination with the strides of both dimensions, GATHER from and SCATTER to the base plus the index times the size, FILL with the
pattern byte of each offset, MIGRATE from frame to frame, UPDATE by the near-bank operation on one word. -/
def ferryPieceOf (c : Cmd) (b : Nat) (d : Die) : Option (Nat × Die) :=
  let w (i : Nat) : Nat := dw c.words i
  let len := c.runLen
  let i := b / len
  let off := b % len
  let len1 := if w 4 / 2 ^ 32 % 65536 = 0 then 1 else w 4 / 2 ^ 32 % 65536
  let x : Int := (i % len1 : Nat)
  let y : Int := (i / len1 : Nat)
  let at3 (p q : Nat) : Nat := moved (w p) (x * toSigned 32 (w q % 2 ^ 32) + y * toSigned 32 (w q / 2 ^ 32 % 2 ^ 32) + off)
  match w 1 % 256 with
  | 0 => oneCopy c (moved (w 2) off) (moved (w 3) off) (len - off) d
  | 1 => oneCopy c (at3 2 5) (at3 3 6) (len - off) d
  | 2 => (oneIndex c i d).bind fun r => oneCopy c (moved (w 2) (r.1 * len + off)) (moved (w 3) b) (len - off) r.2
  | 3 => (oneIndex c i d).bind fun r => oneCopy c (moved (w 2) b) (moved (w 3) (r.1 * len + off)) (len - off) r.2
  | 4 =>
    let dst := moved (w 3) off
    if len - off ≤ 128 - dst % 128 then match d.engPlace c dst .write with
      | .ok a d => some (len - off, d.engWrite c a ((List.range (len - off)).map fun n => BitVec.ofNat 8 (w 2 / 2 ^ (8 * ((off + n) % 8)))))
      | _ => none
    else none
  | 5 =>
    if len - off ≤ 128 ∧ d.admits (tableOf (w 2 + off) .lpddr) c.owner false = true ∧ d.admits (tableOf (w 3 + off) .lpddr) c.owner true = true then
      match d.engRead c (w 2 + off) (len - off) with
      | .ok (bs, d) => some (len - off, d.engWrite c (w 3 + off) bs)
      | .error _ => none
    else none
  | 6 => match d.engPlace c (moved (w 2) off) .read with
    | .ok a d => match d.engPlace c (moved (w 3) off) .rmw with
      | .ok b d => match d.engRead c a 4 with
        | .ok (bs, d) =>
          if nearBanked d b then match d.amoAt c.owner b 4 (Amo.ofVector (w 1 / 2 ^ 32 % 16)) (leVal bs) 0 with
            | .ok (_, d) => some (4, d)
            | .error _ => none
          else none
        | .error _ => none
      | _ => none
    | _ => none
  | _ => none

/-- An operand of a coding or transmit command is read whole; operands, each a doubleword, a length and an access, are probed whole (R390). -/
def readsOperand (d : Die) (c : Cmd) (i n : Nat) (bs : List Byte) (d' : Die) : Prop := Die.operand c n (dw c.words i) n d = .ok bs d'
def probesOperands (d : Die) (c : Cmd) (ops : List (Nat × Nat × Acc)) (d' : Die) : Prop :=
  ops.foldl (fun p o => Probe.operand c o.2.2 o.2.1 (dw c.words o.1) o.2.1 p) ⟨none, false, d⟩ = ⟨none, false, d'⟩

/-- The end of a transmit command's launch window (R396). -/
def windowEnd (c : Cmd) : Nat :=
  dw c.words 3 + (if dw c.words 4 / 2 ^ 32 % 65536 = 0 then 1000 else dw c.words 4 / 2 ^ 32 % 65536)

/-! ### Walks (R338, R339) -/

/-- A directory entry that names a table: V set, bits [63:48] and [11:1] zero (Table 18.3). -/
abbrev dirEntry (p : Nat) : Prop := p % 4096 = 1 ∧ p / 2 ^ 48 % 2 ^ 16 = 0

/-- A table entry of level 4, 3, 2 or 1 that names a table of LPDDR 6: V set, and every other bit but the frame zero, SW aside (Table 18.4). -/
abbrev tableEntry (p : Nat) : Prop :=
  p % 2 = 1 ∧ p / 2 % 64 = 0 ∧ p / 2 ^ 7 % 2 = 0 ∧ p / 2 ^ 8 % 16 = 0 ∧ p / 2 ^ 48 % 16 = 0 ∧ p / 2 ^ 56 % 256 = 0
    ∧ p / 2 ^ 12 % 2 ^ 36 * 4096 < Config.lpddrBytes

end Sys2Proof.Claims
end

