-- ==== Sys2Proof/Claims/Package.lean ====
section
/-! DEFINITION. The vocabulary of the statements about Clearance orders, firmware's registers, the package and the links. -/

namespace Sys2Proof.Claims

open Sys2Proof.Machine

/-! ### Partitions and orders (R404, R408, R409) -/

/-- The engine classes: the low bit of their slot count in PRES (Table 21.2), the low bit and the width of their instances in CLRRES
(Table 21.4), and how many instances there are; the transmit ports by the fronthaul mode (R384). -/
def engineFields (d : Die) : List (Nat × Nat × Nat × Nat) :=
  [(24, 0, 16, 16), (30, 16, 16, 16), (36, 32, 8, 8), (42, 40, 4, 4),
    (48, 44, 16, if d.reg 0x200005010000 / 16 % 4 = 0 then 8 else if d.reg 0x200005010000 / 16 % 4 = 1 then 16 else 4)]

/-- Bits [lo + n − 1:lo] of a register. -/
def regField (d : Die) (a lo n : Nat) : Nat := d.reg a / 2 ^ lo % 2 ^ n

/-- The registers of a partition and of its order slot. -/
def pclu (p : Nat) : Nat := 0x200006100000 + 64 * p
def pres (p : Nat) : Nat := 0x200006100008 + 64 * p
def slot (p : Nat) : Nat := 0x200007000000 + 64 * p
def slotCtl (p : Nat) : Nat := 0x200007000018 + 64 * p

/-- The order of a partition is active. -/
abbrev activeOrder (d : Die) (p : Nat) : Prop := regField d (slotCtl p) 8 4 = 1

/-- W, B and H of an order (R409, R410). -/
def orderW (d : Die) (p : Nat) : Nat :=
  2000 + ((List.range 16).countP (regField d (slotCtl p) 48 16).testBit * (12 - regField d 0x200002000000 0 4) * 2 ^ 20 + 689) / 690
def orderB (d : Die) (p : Nat) : Nat :=
  1500 + 1000 * (if regField d (slotCtl p) 28 6 = 0 then 5 else regField d (slotCtl p) 28 6)
def orderH (d : Die) (p : Nat) : Nat := d.reg (slot p + 16) - orderW d p

/-- Two masks share a bit. -/
abbrev meets (a b : Nat) : Prop := a &&& b ≠ 0
/-- A mask holds a bit that another does not. -/
abbrev exceeds (a b : Nat) : Prop := a &&& b ≠ a

/-- WHY an order is rejected, by the checks of R409 in their order; 0 where it is accepted. -/
def orderWhy (d : Die) (p : Nat) : Nat :=
  let dst := regField d (slotCtl p) 24 4
  let slots (e : Nat × Nat × Nat × Nat) : Nat := regField d (pres p) e.1 6
  let named (e : Nat × Nat × Nat × Nat) : Nat := regField d (slot p + 8) e.2.1 e.2.2.1
  if 50 < regField d (slotCtl p) 28 6 ∨ dst = 0 ∨ 12 < dst ∨ dst = p
    ∨ ∃ e ∈ engineFields d, slots e ≠ 0 ∧ named e ≠ 0 ∧ ¬∀ k < e.2.2.2, (named e).testBit k = true then 1
  else if exceeds (d.reg (slot p)) (d.reg (pclu p)) ∨ exceeds (regField d (slotCtl p) 48 16) (regField d (pres p) 0 16)
    ∨ ∃ e ∈ engineFields d, named e ≠ 0 ∧ (slots e = 0 ∨ 2 ^ e.2.2.2 ≤ named e) then 2
  else if ∃ q < 13, q ≠ 0 ∧ q ≠ p ∧ activeOrder d q ∧ (meets (d.reg (slot p)) (d.reg (slot q))
    ∨ meets (regField d (slotCtl p) 48 16) (regField d (slotCtl q) 48 16)
    ∨ meets (regField d (slot p + 8) 0 60) (regField d (slot q + 8) 0 60)) then 3
  else if d.reg (slot p + 16) < d.dtime + orderW d p + orderB d p + 1000 then 4
  else 0

/-- What the model keeps of an order beside its registers. -/
def orderOf (d : Die) (p : Nat) : Order := sget ⟨0, 0, []⟩ d.orders p

/-- The job holds a strand on a core of a cluster that the order of `p` names. -/
abbrev holdsNamed (s : State) (p h : Nat) : Prop := ∃ i ∈ s.strandsOf h, (s.die.reg (slot p)).testBit (i / 32) = true

/-- E of a job, from its manifest and its root context (R412); none is infinity. -/
def estimateOf (s : State) (j : Job) (m : Manifest) (c : VCtx) : Option Nat :=
  let g := max 1 (c.g * c.vlmax)
  let avg := 0x200009100000 + 0x800 * j.vf + 8 * j.cls
  if regField s.die avg 48 16 = 0 then none
  else some (max (regField s.die avg 0 48 - m.run)
    (if m.stripn = 0 then 0 else (s.die.dtime - m.loopT + m.strip) / (m.strip + 1) * ((m.stripn + g - 1) / g)))

/-- Two partitions share a cluster or a colour, or a class has more than 32 slots in all (R404). -/
abbrev partitionClash (d : Die) : Prop :=
  (∃ p < 13, ∃ q < 13, p ≠ 0 ∧ q ≠ 0 ∧ p ≠ q ∧ (meets (d.reg (pclu p)) (d.reg (pclu q)) ∨ meets (regField d (pres p) 0 16) (regField d (pres q) 0 16)))
    ∨ ∃ e ∈ [24, 30, 36, 42, 48], 32 < ((List.range 12).map fun p => regField d (pres (p + 1)) e 6).sum

/-! ### Rescaling (R419, R428) -/

/-- The sum of rates `q / t`, over the product of every `t`. -/
def rateSum (us : List (Nat × Nat × Nat)) (sel : Nat → Bool) : Nat :=
  ((us.filter fun u => sel u.2.2).map fun u => u.1 * ((us.foldl (fun n x => n * x.2.1) 1) / u.2.1)).sum

/-- The rates exceed the capacity `cap / den`. -/
abbrev overCommitted (cap den : Nat) (us : List (Nat × Nat × Nat)) : Prop :=
  cap * us.foldl (fun n x => n * x.2.1) 1 < den * rateSum us fun _ => true

/-- The new Q of an entry (Q, T, GCLS). -/
def rescaledQ (cap den : Nat) (us : List (Nat × Nat × Nat)) (u : Nat × Nat × Nat) : Nat :=
  let all := cap * us.foldl (fun n x => n * x.2.1) 1
  let u0 := den * rateSum us (· == 0)
  let ur := den * rateSum us (· != 0)
  if u0 ≤ all then (if u.2.2 = 0 then u.1 else u.1 * (all - u0) / ur) else if u.2.2 = 0 then u.1 * all / u0 else 0

/-- The enabled servers of a partition, as (Q, T, GCLS), with T at least 1. -/
def serversOf (d : Die) (p : Nat) : List Nat :=
  (List.range 256).filter fun v => regField d (0x200006110000 + 8 * v) 0 4 == p && regField d (0x200004000000 + 32 * v) 0 1 == 1
def serverRate (d : Die) (v : Nat) : Nat × Nat × Nat :=
  let a := 0x200004000000 + 32 * v
  (regField d a 16 16, max 1 (regField d a 32 20), regField d (0x200006110000 + 8 * v) 5 2)

/-! ### Boot (R431) -/

/-- A little-endian number of a table. -/
def tableNumber (t : List Nat) (off n : Nat) : Nat := ((List.range n).map fun k => t.getD (off + k) 0 % 256 * 256 ^ k).sum

/-- The boot ROM accepts a configuration table of bytes (R430, R431). -/
def acceptedTable (t : List Nat) : Prop :=
  let width := t.getD 6 0
  t.length = 1780 ∧ tableNumber t 0 4 = 0x54434D59 ∧ tableNumber t 4 2 = 1 ∧ 2 ≤ width ∧ width ≤ 8 ∧ t.getD 22 0 < 3
    ∧ (∀ k, 23 ≤ k → k < 64 → t.getD k 0 = 0) ∧ (∀ i < 8, width ≤ i → t.getD (8 + i) 0 = 0)
    ∧ (∀ i < width, t.getD (8 + i) 0 < 64 ∧ ((t.getD (8 + i) 0).testBit 5 = true → t.getD (8 + i) 0 = 32))
    ∧ (∀ b < 5, ((List.range width).countP fun i => (t.getD (8 + i) 0).testBit b) = 1)
    ∧ Config.signatureOk t = true

/-- The state with another package. -/
def withPkg (s : State) (p : Pkg) : State := onDie s { s.die with pkg := p }
/-- The state with a register of the die written. -/
def withReg (s : State) (a v : Nat) : State := onDie s (s.die.setReg a v)

/-! ### The links (R108, R438 to R445) -/

/-- A strand with no request of it outstanding, and with an answer that its instruction takes when it executes again. -/
def answered (t : Strand) : Strand := { t with run := { t.run with hostReq := none } }
def handed (t : Strand) (x : LinkData) : Strand :=
  { t with run := { t.run with hostReq := none, wait := .ready, linkData := t.run.linkData ++ [x] } }

/-- A strand whose request failed has taken a trap with a code at the address it asked for: at VF supervisor from user where there is a vector,
else at firmware (R18, R199). -/
def faulted (t t' : Strand) (code : Nat) (va : Word) : Prop :=
  t'.trap = { t.trap with tcause := BitVec.ofNat 9 code, tpc := t.pc, tval := va, telem := 0, tidx3 := 0, pprv := t.priv, hold := true }
    ∧ t'.regs = t.regs ∧ t'.run.hostReq = none
    ∧ t'.pc = if t.priv = .user ∧ t.trap.stvec ≠ 0 then t.trap.stvec else t.trap.ftvec

/-- The request of strand `i` has failed with a code: a cancelled one is discarded, one that an instruction takes when it executes again hands it
the code, any other traps. -/
def requestFails (s t : State) (i : Nat) (q : HostReq) (code : Nat) : Prop :=
  onlyStrand s t i ∧ t.die = s.die ∧ t.agenda = s.agenda
    ∧ (q.cancelled = true → t.strand i = answered (s.strand i))
    ∧ (q.cancelled = false → q.reg = 33 → t.strand i = handed (s.strand i) ⟨q.va, code, 0⟩)
    ∧ (q.cancelled = false → q.reg ≠ 33 → faulted (s.strand i) (t.strand i) code q.va)

/-- The request of strand `i` is in a phase from now on. -/
def inPhase (s t : State) (i : Nat) (q : HostReq) (p : LinkPhase) : Prop :=
  onlyStrand s t i ∧ t.agenda = s.agenda
    ∧ t.strand i = { s.strand i with run := { (s.strand i).run with since := s.die.dtime, hostReq := some { q with phase := p } } }

/-- A reply to a request of the host or the twin has left the die. -/
def replied (s : State) (twin : Bool) (o : Nat) (good : Bool) (addr size a : Nat) : State :=
  onDie s { s.die with sent := ⟨twin, o, .reply good, addr, size, a, 0, 0, false⟩ :: s.die.sent }

/-- Submission queue `q` of a VF, and the state with it replaced. -/
def queueOf (s : State) (v q : Nat) : Sq := sget Sq.reset s.die.sqs (16 * v + q)
def onQueue (s : State) (v q : Nat) (x : Sq) : State := onDie s { s.die with sqs := sset Sq.reset s.die.sqs (16 * v + q) x }

/-- The state with another migration engine. -/
def withMig (s : State) (m : Mig) : State := onDie s { s.die with mig := m }

/-- A request from outside into device memory: a read of up to 8 bytes within a sector, or a write; where it is refused, the reply says so. -/
def outsideRule (s t : State) (twin : Bool) (o pa : Nat) (data : List Nat) : Prop :=
  let n := min 8 (128 - pa % 128)
  (∀ bs d, data = [] → s.die.physRead o pa n = .ok (bs, d) → t = replied (onDie s d) twin o true pa bs.length (leVal bs))
    ∧ (∀ e, data = [] → s.die.physRead o pa n = .error e → t = replied s twin o false pa 0 0)
    ∧ (∀ d, data ≠ [] → data.length ≤ 128 - pa % 128 → s.die.physWrite o pa (data.map (BitVec.ofNat 8)) = .ok d → t = onDie s d)
    ∧ (∀ e, data ≠ [] → data.length ≤ 128 - pa % 128 → s.die.physWrite o pa (data.map (BitVec.ofNat 8)) = .error e →
        t = replied s twin o false pa 0 0)

/-- An AMO from outside: an operand of 4 or 8 bytes, for CAS two of them, at its performing point; where it is refused, the reply says so. -/
def outsideAtomic (s t : State) (twin : Bool) (o pa : Nat) (op : Amo) (data : List Nat) : Prop :=
  let bs : List Byte := data.map (BitVec.ofNat 8)
  let n := if op = .cas then data.length / 2 else data.length
  let formed := (n = 4 ∨ n = 8) ∧ pa % n = 0 ∧ (op = .faddf → n = 4 ∧ pa < 0x110000000000)
  (¬formed → t = replied s twin o false pa 0 0)
    ∧ (formed → ∀ e, s.die.amoAt o pa n op (leVal (bs.take n)) (leVal (bs.drop n)) = .error e → t = replied s twin o false pa 0 0)
    ∧ (formed → ∀ old d, s.die.amoAt o pa n op (leVal (bs.take n)) (leVal (bs.drop n)) = .ok (old, d) →
        t = replied (onDie s d) twin o true pa n old)

/-- The posted write `p`, before the posted writes `l`, is discarded with a code: an error record, which its strand takes asynchronously. -/
def discarded (s t : State) (p : Posted) (l : List Posted) (code : Nat) : Prop :=
  (regField s.die 0x20000A000200 0 1 = 0 →
      t.die = { s.die with posted := l, errlog := ⟨code, min p.source 2048, p.va⟩ :: s.die.errlog })
    ∧ (2048 ≤ p.source → sameStrands s t)
    ∧ (p.source < 2048 → onlyStrand s t p.source
        ∧ t.strand p.source = { s.strand p.source with run := { (s.strand p.source).run with
            causes := (s.strand p.source).run.causes ++ [⟨code, p.va⟩] } })

end Sys2Proof.Claims
end

