-- ==== Sys2Proof/Claims/Vector.lean ====
section
/-! DEFINITION. The vocabulary of the statements about vector and matrix instructions. -/

namespace Sys2Proof.Claims

open Sys2Proof.Machine

/-- A vector instruction that has written the context `c` and raised the flags `f` has retired; nothing else has changed. -/
def vecWrote (s : State) (c : VCtx) (f : Flags) : State :=
  retiredVec { s with me := { s.me with ctx := c, fcsr := s.me.fcsr ||| f.zeroExtend 9 } }

/-- The words of the group at register `r`, and where the word of an index of a group lies: in register r + n / VLMAX (R27). -/
def wordAt (c : VCtx) (r n : Nat) : Nat := (sget 0 c.v (256 * (r + n / (64 * c.k)) + n % (64 * c.k))).toNat

/-- Element `e` of the group at register `r` under a tag (Table 1.10): part of a word, or two words with re in the lower. -/
def elemOf (c : VCtx) (r : Nat) (t : Tag) (e : Nat) : Nat :=
  if t = .cf32 then wordAt c r (2 * e) + 2 ^ 32 * wordAt c r (2 * e + 1)
  else wordAt c r (e / (32 / t.ebits)) / 2 ^ (t.ebits * (e % (32 / t.ebits))) % 2 ^ t.ebits

/-- A destination has all its elements below VL inside its registers, in whole words of each unit: its words below the tail fit. -/
abbrev destFits (c : VCtx) (d : Dest) : Prop :=
  c.gm ≠ 0 ∧ 0 < d.per ∧ (d.half = true → d.lay = .cf32) ∧ (if d.lay = .cf32 then d.per = 1 else d.per % (32 / d.lay.ebits) = 0)
    ∧ d.tailFrom c.vl ≤ d.size * (64 * c.k)

/-- Unit `u` (a word, or a complex element of two words) is active, VSTART aside (R23, R31). -/
def unitActive (c : VCtx) (half : Bool) (u : Nat) : Bool :=
  !c.vmc.getLsbD 0 || xor ((sget 0 c.masks 0).getLsbD (if half then 2 * u else u)) (c.vmc.getLsbD 1)

/-- What element `e` of a destination holds after an element-wise instruction (R23, R111): below VSTART the old value, below VL the result
where its unit is active and else zero with IPOL or the old value, from there on zero with TPOL or the old value. -/
def elementAfter (c : VCtx) (d : Dest) (f : Nat → Nat × Flags) (e : Nat) : Nat :=
  let m := if d.half then 2 else 1
  let old := elemOf c d.reg d.lay e
  if c.vl ≤ c.vstart ∨ e / d.per < c.vstart / m then old
  else if e / d.per < c.vl / m then
    (if d.every || unitActive c d.half (e / d.per) then (f e).1 % 2 ^ d.lay.ebits else if c.vmc.getLsbD 2 then 0 else old)
  else if c.vmc.getLsbD 3 then 0 else old

/-- The tag of the group at a register. -/
def tagAt (c : VCtx) (r : Nat) : Tag := sget .raw c.tags r

/-- The plan of an element-wise instruction: its checks in a context, then its destination and its elements. -/
def elementPlan (s : State) : Instr → Option (VCtx → Except Nat Plan)
  | .vadd d a b z => some (AOp.add.plan (s.rnd z) d a (vb b))
  | .vsub d a b z => some (AOp.sub.plan (s.rnd z) d a (vb b))
  | .vrsub d a b z => some (AOp.rsub.plan (s.rnd z) d a (vb b))
  | .vmul d a b z => some (AOp.mul.plan (s.rnd z) d a (vb b))
  | .vmulh d a b z => some (AOp.mulh.plan (s.rnd z) d a (vb b))
  | .vmin d a b z => some (AOp.min.plan (s.rnd z) d a (vb b))
  | .vmax d a b z => some (AOp.max.plan (s.rnd z) d a (vb b))
  | .vsadd d a b z => some (AOp.sadd.plan (s.rnd z) d a (vb b))
  | .vssub d a b z => some (AOp.ssub.plan (s.rnd z) d a (vb b))
  | .vavg d a b z => some (AOp.avg.plan (s.rnd z) d a (vb b))
  | .vdiv d a b z => some (AOp.div.plan (s.rnd z) d a (vb b))
  | .vaddVs d a b z => some (AOp.add.plan (s.rnd z) d a (s.vs b))
  | .vsubVs d a b z => some (AOp.sub.plan (s.rnd z) d a (s.vs b))
  | .vrsubVs d a b z => some (AOp.rsub.plan (s.rnd z) d a (s.vs b))
  | .vmulVs d a b z => some (AOp.mul.plan (s.rnd z) d a (s.vs b))
  | .vmulhVs d a b z => some (AOp.mulh.plan (s.rnd z) d a (s.vs b))
  | .vminVs d a b z => some (AOp.min.plan (s.rnd z) d a (s.vs b))
  | .vmaxVs d a b z => some (AOp.max.plan (s.rnd z) d a (s.vs b))
  | .vsaddVs d a b z => some (AOp.sadd.plan (s.rnd z) d a (s.vs b))
  | .vssubVs d a b z => some (AOp.ssub.plan (s.rnd z) d a (s.vs b))
  | .vavgVs d a b z => some (AOp.avg.plan (s.rnd z) d a (s.vs b))
  | .vdivVs d a b z => some (AOp.div.plan (s.rnd z) d a (s.vs b))
  | .vabs d a => some (AOp.abs.plan1 (s.rnd false) d a)
  | .vneg d a => some (AOp.neg.plan1 (s.rnd false) d a)
  | .vand d a b => some (planBitwise (· &&& ·) d a (vb b))
  | .vandVs d a b => some (planBitwise (· &&& ·) d a (s.vs b))
  | .vor d a b => some (planBitwise (· ||| ·) d a (vb b))
  | .vorVs d a b => some (planBitwise (· ||| ·) d a (s.vs b))
  | .vxor d a b => some (planBitwise (· ^^^ ·) d a (vb b))
  | .vxorVs d a b => some (planBitwise (· ^^^ ·) d a (s.vs b))
  | .vandn d a b => some (planBitwise andNot d a (vb b))
  | .vandnVs d a b => some (planBitwise andNot d a (s.vs b))
  | .vsll d a b => some (planShift shl d a (vb b))
  | .vsllVs d a b => some (planShift shl d a (s.vs b))
  | .vsrl d a b => some (planShift shr d a (vb b))
  | .vsrlVs d a b => some (planShift shr d a (s.vs b))
  | .vsra d a b => some (planShift sar d a (vb b))
  | .vsraVs d a b => some (planShift sar d a (s.vs b))
  | .vcvt d a z => some (planCvt (s.rnd z) d a)
  | .vclass d a => some (planClass d a)
  | .vsel d a b => some (planSel (s.rnd false) d a b)
  | .vfma d a b c z => some (planFma false false false (s.rnd z) d a b c)
  | .vfms d a b c z => some (planFma false true false (s.rnd z) d a b c)
  | .vfnma d a b c z => some (planFma true false false (s.rnd z) d a b c)
  | .vfnms d a b c z => some (planFma true true false (s.rnd z) d a b c)
  | .vmacc d a b z => some (planFma false false true (s.rnd z) d a b d)
  | .vdot2 d a b c z => some (planDot2 (s.rnd z) d a b c)
  | .viota d a => some (planIndex d fun c n => c.countBelow false (c.mbit a) n)
  | .vid d => some (planIndex d fun _ n => n)
  | .vslideup d a b => some (planPermute (fun _ n => if (s.reg b).toNat ≤ n then some (n - (s.reg b).toNat) else none) none d a)
  | .vslidedn d a b => some (planPermute (fun _ n => some (n + (s.reg b).toNat)) none d a)
  | .vrgather d a b => some (planPermute (fun c n => some (c.word b n)) (some b.val) d a)
  | .vexpand d a => some (planPermute (fun c n => some (c.countBelow (c.tag a == .cf32) (fun _ => true) n)) none d a)
  | .vshuf d a p => some (planPermute (fun c n => some (shufSource p (c.vl / unitWords (c.tag a == .cf32)) n)) none d a)
  | .vxch d a x => some (planPermute (fun _ n => some (n ^^^ 2 ^ x.val)) none d a)
  | .vbcast d a b => some (planPermute (fun _ _ => some (s.reg b).toNat) none d a)
  | .vcmul d a b z n y x => some (planCmul n y x (s.rnd z) d a b)
  | .vcmac d a b z n y x => some (planCmac n y x (s.rnd z) d a b)
  | .vcmag2 d a z => some (planMag2 (s.rnd z) d a)
  | .vconj d a z => some (planConj (s.rnd z) d a)
  | .vqmul d a b n y x => some (planQmul n y x d a b)
  | .vqscl d a b => some (planQscl (s.reg b).toInt d a)
  | _ => none

/-! ### Operands of one tag -/

/-- The integer of an element under an integer tag. -/
def asInt (t : Tag) (x : Nat) : Int :=
  if t = .i32 ∨ t = .i16 ∨ t = .i8 then toSigned t.ebits x else ((x % 2 ^ t.ebits : Nat) : Int)

/-- An integer in `w` bits, wrapped. -/
def wrapTo (w : Nat) (x : Int) : Nat := (x % 2 ^ w).toNat

/-- Saturation in an integer tag (R35). -/
def saturated (t : Tag) (x : Int) : Int :=
  let signed : Bool := t = .i32 ∨ t = .i16 ∨ t = .i8
  let lo : Int := if signed then -2 ^ (t.ebits - 1) else 0
  let hi : Int := if signed then 2 ^ (t.ebits - 1) - 1 else 2 ^ t.ebits - 1
  max lo (min hi x)

/-- The second operand of a VOP or VOPS form (R31, R110): an element of a group, or the low bits of a scalar register. -/
def second (s : State) (t : Tag) (b : Fin 32) (scalar : Bool) (e : Nat) : Nat :=
  if scalar then (s.reg b).toNat % 2 ^ t.ebits else elemOf s.me.ctx b t e

/-- The integer operations of Table 5.3: vd, va, the second operand, whether it is scalar, and the exact result. -/
def vecIntOp : Instr → Option (Fin 32 × Fin 32 × Fin 32 × Bool × (Tag → Int → Int → Int))
  | .vadd d a b _ => some (d, a, b, false, fun _ x y => x + y)
  | .vaddVs d a b _ => some (d, a, b, true, fun _ x y => x + y)
  | .vsub d a b _ => some (d, a, b, false, fun _ x y => x - y)
  | .vsubVs d a b _ => some (d, a, b, true, fun _ x y => x - y)
  | .vrsub d a b _ => some (d, a, b, false, fun _ x y => y - x)
  | .vrsubVs d a b _ => some (d, a, b, true, fun _ x y => y - x)
  | .vmul d a b _ => some (d, a, b, false, fun _ x y => x * y)
  | .vmulVs d a b _ => some (d, a, b, true, fun _ x y => x * y)
  | .vmulh d a b _ => some (d, a, b, false, fun t x y => x * y / 2 ^ t.ebits)
  | .vmulhVs d a b _ => some (d, a, b, true, fun t x y => x * y / 2 ^ t.ebits)
  | .vmin d a b _ => some (d, a, b, false, fun _ x y => min x y)
  | .vminVs d a b _ => some (d, a, b, true, fun _ x y => min x y)
  | .vmax d a b _ => some (d, a, b, false, fun _ x y => max x y)
  | .vmaxVs d a b _ => some (d, a, b, true, fun _ x y => max x y)
  | .vsadd d a b _ => some (d, a, b, false, fun t x y => saturated t (x + y))
  | .vsaddVs d a b _ => some (d, a, b, true, fun t x y => saturated t (x + y))
  | .vssub d a b _ => some (d, a, b, false, fun t x y => saturated t (x - y))
  | .vssubVs d a b _ => some (d, a, b, true, fun t x y => saturated t (x - y))
  | .vavg d a b _ => some (d, a, b, false, fun _ x y => (x + y + 1) / 2)
  | .vavgVs d a b _ => some (d, a, b, true, fun _ x y => (x + y + 1) / 2)
  | .vdiv d a b _ => some (d, a, b, false, fun _ x y => if y = 0 then -1 else Int.tdiv x y)
  | .vdivVs d a b _ => some (d, a, b, true, fun _ x y => if y = 0 then -1 else Int.tdiv x y)
  | _ => none

/-- The floating-point operations of Table 5.3, with RZ. -/
def vecFloatOp : Instr → Option (Fin 32 × Fin 32 × Fin 32 × Bool × Bool × (FV → FV → FV × Flags))
  | .vadd d a b z => some (d, a, b, false, z, fun x y => sumFV [x, y])
  | .vaddVs d a b z => some (d, a, b, true, z, fun x y => sumFV [x, y])
  | .vsub d a b z => some (d, a, b, false, z, fun x y => sumFV [x, y.neg])
  | .vsubVs d a b z => some (d, a, b, true, z, fun x y => sumFV [x, y.neg])
  | .vrsub d a b z => some (d, a, b, false, z, fun x y => sumFV [y, x.neg])
  | .vrsubVs d a b z => some (d, a, b, true, z, fun x y => sumFV [y, x.neg])
  | .vmul d a b z => some (d, a, b, false, z, fun x y => x.mul y)
  | .vmulVs d a b z => some (d, a, b, true, z, fun x y => x.mul y)
  | .vdiv d a b z => some (d, a, b, false, z, fun x y => x.div y)
  | .vdivVs d a b z => some (d, a, b, true, z, fun x y => x.div y)
  | .vmin d a b z => some (d, a, b, false, z, fun x y => FV.minMax false x y)
  | .vminVs d a b z => some (d, a, b, true, z, fun x y => FV.minMax false x y)
  | .vmax d a b z => some (d, a, b, false, z, fun x y => FV.minMax true x y)
  | .vmaxVs d a b z => some (d, a, b, true, z, fun x y => FV.minMax true x y)
  | _ => none

/-- The bitwise operations (R129). -/
def vecBitOp : Instr → Option (Fin 32 × Fin 32 × Fin 32 × Bool × (Nat → Nat → Nat))
  | .vand d a b => some (d, a, b, false, fun x y => x &&& y)
  | .vandVs d a b => some (d, a, b, true, fun x y => x &&& y)
  | .vor d a b => some (d, a, b, false, fun x y => x ||| y)
  | .vorVs d a b => some (d, a, b, true, fun x y => x ||| y)
  | .vxor d a b => some (d, a, b, false, fun x y => x ^^^ y)
  | .vxorVs d a b => some (d, a, b, true, fun x y => x ^^^ y)
  | .vandn d a b => some (d, a, b, false, fun x y => x - (x &&& y))
  | .vandnVs d a b => some (d, a, b, true, fun x y => x - (x &&& y))
  | _ => none

/-- The shifts (R130). -/
def vecShiftOp : Instr → Option (Fin 32 × Fin 32 × Fin 32 × Bool × (Tag → Nat → Nat → Nat))
  | .vsll d a b => some (d, a, b, false, fun t x y => x * 2 ^ (y % t.ebits))
  | .vsllVs d a b => some (d, a, b, true, fun t x y => x * 2 ^ (y % t.ebits))
  | .vsrl d a b => some (d, a, b, false, fun t x y => x / 2 ^ (y % t.ebits))
  | .vsrlVs d a b => some (d, a, b, true, fun t x y => x / 2 ^ (y % t.ebits))
  | .vsra d a b => some (d, a, b, false, fun t x y => wrapTo t.ebits (toSigned t.ebits x / 2 ^ (y % t.ebits)))
  | .vsraVs d a b => some (d, a, b, true, fun t x y => wrapTo t.ebits (toSigned t.ebits x / 2 ^ (y % t.ebits)))
  | _ => none

/-- The fused operations (R136): vd, va, vb, vc, RZ, whether the product and the third operand are negated. -/
def vecFmaOp : Instr → Option (Fin 32 × Fin 32 × Fin 32 × Fin 32 × Bool × Bool × Bool)
  | .vfma d a b c z => some (d, a, b, c, z, false, false)
  | .vfms d a b c z => some (d, a, b, c, z, false, true)
  | .vfnma d a b c z => some (d, a, b, c, z, true, false)
  | .vfnms d a b c z => some (d, a, b, c, z, true, true)
  | .vmacc d a b z => some (d, a, b, d, z, false, false)
  | _ => none

/-- The compares (R133). -/
def vecCompare : Instr → Option (Rel × Fin 32 × Fin 32 × Fin 32 × Bool)
  | .vcmpeq m a b => some (.eq, m, a, b, false)
  | .vcmpeqVs m a b => some (.eq, m, a, b, true)
  | .vcmpne m a b => some (.ne, m, a, b, false)
  | .vcmpneVs m a b => some (.ne, m, a, b, true)
  | .vcmplt m a b => some (.lt, m, a, b, false)
  | .vcmpltVs m a b => some (.lt, m, a, b, true)
  | .vcmple m a b => some (.le, m, a, b, false)
  | .vcmpleVs m a b => some (.le, m, a, b, true)
  | _ => none

/-- A register starts a group (R27). -/
abbrev aligned (s : State) (r : Fin 32) : Prop := r.val % s.me.ctx.g = 0

/-- The registers hold operands of one tag in whole groups, and vd, aligned too, has that tag or raw, with a lease held. -/
abbrev uniform (s : State) (t : Tag) (d : Fin 32) (rs : List (Fin 32)) : Prop :=
  s.me.ctx.gm ≠ 0 ∧ aligned s d ∧ (tagAt s.me.ctx d = t ∨ tagAt s.me.ctx d = .raw) ∧ ∀ r ∈ rs, aligned s r ∧ tagAt s.me.ctx r = t

/-- The registers that a second operand reads. -/
def readRegs (a b : Fin 32) (scalar : Bool) : List (Fin 32) := if scalar then [a] else [a, b]

/-- The result of an element-wise instruction with operands of one tag `t`: element e is `f e`, with the flags of the active elements. -/
def vecResult (s : State) (d : Fin 32) (t : Tag) (f : Nat → Nat × Flags) : State :=
  let r := s.me.ctx.elementWise ⟨d, s.me.ctx.g, t, t, false, 32 / t.ebits, false⟩ f
  vecWrote s r.1 r.2

/-- An exact value rounded once into a format in the effective vector mode (R24, R39). -/
def roundV (s : State) (z : Bool) (f : Fmt) (x : FV × Flags) : Nat × Flags :=
  let q := x.1.round f (s.me.vectorMode z) s.me.sat8
  (q.1, x.2 ||| q.2)

/-- Real floating-point tags with their formats. -/
def floatTag (t : Tag) : Option Fmt :=
  match t with
  | .f32 => some .f32 | .bf16 => some .bf16 | .f16 => some .f16 | .e4m3 => some .e4m3 | .e5m2 => some .e5m2
  | _ => none

/-- Integer tags. -/
abbrev intTag (t : Tag) : Prop := t ∈ [Tag.i32, .ui32, .i16, .ui16, .i8, .ui8]

/-! ### Permutes -/

/-- A word of va by position, zero at or beyond VL (R142). -/
def vaWord (s : State) (a : Fin 32) (p : Nat) : Nat := if p < s.me.ctx.vl then wordAt s.me.ctx a p else 0

/-- The words below n that are active, VSTART aside (R145). -/
def activeBelow (s : State) (n : Nat) : Nat := (List.range (min n s.me.ctx.vl)).countP (unitActive s.me.ctx false)

/-- The number whose `w` binary digits are those of n in the reverse order. -/
def reversedBits (w n : Nat) : Nat := ((List.range w).map fun i => n / 2 ^ i % 2 * 2 ^ (w - 1 - i)).sum

/-- The source of destination word n under the patterns of Table 5.8, with P the largest power of two not above VL. -/
def shufFrom (s : State) (pat n : Nat) : Nat :=
  let w := Nat.log2 s.me.ctx.vl
  if s.me.ctx.vl = 0 ∨ 2 ^ w ≤ n then n
  else if pat = 0 then reversedBits w n
  else if pat = 1 then (if w = 0 then n else n / 2 + n % 2 * 2 ^ (w - 1))
  else if pat = 2 then (if w = 0 then n else n * 2 % 2 ^ w + n / 2 ^ (w - 1))
  else if pat = 3 then (if n % 2 = 0 then n + 1 else n - 1)
  else if 2 ^ w < 16 then n
  else n / 16 * 16 + 4 * (n % 4) + n / 4 % 4

/-- The word permutes: vd, va, a vector index register, and word n of the result (R143 to R147). -/
def permuteRule (s : State) : Instr → Option (Fin 32 × Fin 32 × Option (Fin 32) × (Nat → Nat))
  | .vslideup d a b => some (d, a, none, fun n => if (s.reg b).toNat ≤ n then vaWord s a (n - (s.reg b).toNat) else wordAt s.me.ctx d n)
  | .vslidedn d a b => some (d, a, none, fun n => vaWord s a (n + (s.reg b).toNat))
  | .vrgather d a b => some (d, a, some b, fun n => vaWord s a (wordAt s.me.ctx b n))
  | .vexpand d a => some (d, a, none, fun n => vaWord s a (activeBelow s n))
  | .vshuf d a p => some (d, a, none, fun n => vaWord s a (shufFrom s p n))
  | .vxch d a x => some (d, a, none, fun n => vaWord s a (n ^^^ 2 ^ x.val))
  | .vbcast d a b => some (d, a, none, fun _ => vaWord s a (s.reg b).toNat)
  | _ => none

/-! ### Complex elements -/

/-- The components of an element of a floating-point complex tag. -/
def reOf (t : Tag) (x : Nat) : FV := if t = .cf32 then FV.ofBits .f32 (x % 2 ^ 32) else FV.ofBits .bf16 (x % 2 ^ 16)
def imOf (t : Tag) (x : Nat) : FV := if t = .cf32 then FV.ofBits .f32 (x / 2 ^ 32) else FV.ofBits .bf16 (x / 2 ^ 16)

/-- A complex element from two exact components, each rounded once (R42, R152). -/
def complexV (s : State) (z : Bool) (t : Tag) (re im : FV × Flags) : Nat × Flags :=
  let f : Fmt := if t = .cf32 then .f32 else .bf16
  let x := roundV s z f re
  let y := roundV s z f im
  (x.1 + (if t = .cf32 then 2 ^ 32 else 2 ^ 16) * y.1, re.2 ||| im.2 ||| x.2 ||| y.2)

/-- The destination of complex elements of a tag: with cf32 an element is two words. -/
def complexDest (s : State) (d : Fin 32) (t : Tag) : Dest := ⟨d, s.me.ctx.g, t, t, t == .cf32, 1, false⟩

/-! ### Masks and scalars -/

/-- Bit `n` of a mask register. -/
def maskBit (c : VCtx) (m n : Nat) : Bool := (sget 0 c.masks m).getLsbD n

/-- Bit `n` of a mask destination: below VSTART the old bit, below VL the result where active and else 0 with IPOL or the old bit, up to
G·VLMAX 0 with TPOL or the old bit (R133, R138, R139). -/
def maskAfter (c : VCtx) (m : Nat) (active f : Nat → Bool) (n : Nat) : Bool :=
  let old := maskBit c m n
  if c.vl ≤ c.vstart ∨ n < c.vstart then old
  else if n < c.vl then (if active n then f n else if c.vmc.getLsbD 2 then false else old)
  else if n < c.g * (64 * c.k) then (if c.vmc.getLsbD 3 then false else old) else old

/-- An instruction that writes mask register `m` has retired: its bits are `b`, no other mask register and nothing else has changed. -/
def maskWrote (s t : State) (m : Nat) (f : Flags) (b : Nat → Bool) : Prop :=
  t = vecWrote s { s.me.ctx with masks := t.me.ctx.masks } f ∧ (∀ n < 2048, maskBit t.me.ctx m n = b n)
  ∧ ∀ k, k ≠ m → sget 0 t.me.ctx.masks k = sget 0 s.me.ctx.masks k

/-- The mask operations over all bits below VL: md and bit n (R138). -/
def maskRule (s : State) : Instr → Option (Fin 32 × (Nat → Bool))
  | .mand d a b => some (d, fun n => maskBit s.me.ctx a n && maskBit s.me.ctx b n)
  | .mor d a b => some (d, fun n => maskBit s.me.ctx a n || maskBit s.me.ctx b n)
  | .mxor d a b => some (d, fun n => maskBit s.me.ctx a n != maskBit s.me.ctx b n)
  | .mandn d a b => some (d, fun n => maskBit s.me.ctx a n && !maskBit s.me.ctx b n)
  | .mnot d a => some (d, fun n => !maskBit s.me.ctx a n)
  | .mmov d a => some (d, fun n => maskBit s.me.ctx a n)
  | .mset d a => some (d, fun n => decide (n < (s.reg a).toNat))
  | _ => none

/-- An active set bit below n, VSTART aside (R139). -/
def setBelow (s : State) (a : Fin 32) (n : Nat) : Bool := (List.range n).any fun k => maskBit s.me.ctx a k && unitActive s.me.ctx false k

/-- The mask scans: md, ms and bit n (R139). -/
def scanRule (s : State) : Instr → Option (Fin 32 × Fin 32 × (Nat → Bool))
  | .msbf d a => some (d, a, fun n => !setBelow s a (n + 1))
  | .msif d a => some (d, a, fun n => !setBelow s a n)
  | .msof d a => some (d, a, fun n => setBelow s a (n + 1) && !setBelow s a n)
  | _ => none

/-- The reductions: whether they are SUM, SUMO, MIN or MAX, RZ, rd, va and the scalar that holds the initial value. -/
def reduceOp : Instr → Option (Red × Bool × Fin 32 × Fin 32 × Fin 32)
  | .vredsum d a b z => some (.sum, z, d, a, b)
  | .vredsumo d a b z => some (.sumo, z, d, a, b)
  | .vredmin d a b z => some (.min, z, d, a, b)
  | .vredmax d a b z => some (.max, z, d, a, b)
  | _ => none

/-- The integers of the active elements from VSTART to VL (R148). -/
def activeInts (s : State) (t : Tag) (a : Fin 32) : List Int :=
  ((List.range (s.me.ctx.vl * (32 / t.ebits))).filter fun e =>
    decide (s.me.ctx.vstart ≤ e / (32 / t.ebits)) && unitActive s.me.ctx false (e / (32 / t.ebits))).map fun e => asInt t (elemOf s.me.ctx a t e)

/-! ### Descriptors and contexts -/

/-- A descriptor of the context. -/
def sdOf (s : State) (n : Fin 16) : Desc := sget Desc.zero s.me.ctx.sd n

/-- Field f of a descriptor as SDGET reads it (R168, Table 7.1). -/
def fieldOf (d : Desc) (f : Fin 16) : Word :=
  if f = 0 then d.base
  else if f = 1 then BitVec.ofNat 64 d.space.toNat
  else if f = 2 then BitVec.ofNat 64 d.tag.toNat
  else if f = 3 then BitVec.ofNat 64 d.len0.toNat
  else if f = 4 then BitVec.ofNat 64 d.len1.toNat
  else if f = 5 then BitVec.ofNat 64 d.len2.toNat
  else if f = 6 then BitVec.ofInt 64 d.stride0.toInt
  else if f = 7 then BitVec.ofInt 64 d.stride1.toInt
  else if f = 8 then BitVec.ofInt 64 d.stride2.toInt
  else if f = 9 then BitVec.ofNat 64 d.i0.toNat
  else if f = 10 then BitVec.ofNat 64 d.i1.toNat
  else BitVec.ofNat 64 d.i2.toNat

/-- Field f of a descriptor written with `w` (R168): the low bits of its width; a length not above its index clears the index; a write of BASE,
SPACE, TAG, a length or a stride drops the kept translations. -/
def withField (d : Desc) (f : Fin 16) (w : Word) : Desc :=
  let cut (len i : BitVec 21) : BitVec 21 := if i.toNat < len.toNat then i else 0
  if f = 0 then { d with base := w, xlat := [] }
  else if f = 1 then { d with space := BitVec.ofNat 2 w.toNat, xlat := [] }
  else if f = 2 then { d with tag := BitVec.ofNat 4 w.toNat, xlat := [] }
  else if f = 3 then { d with len0 := BitVec.ofNat 21 w.toNat, i0 := cut (BitVec.ofNat 21 w.toNat) d.i0, xlat := [] }
  else if f = 4 then { d with len1 := BitVec.ofNat 21 w.toNat, i1 := cut (BitVec.ofNat 21 w.toNat) d.i1, xlat := [] }
  else if f = 5 then { d with len2 := BitVec.ofNat 21 w.toNat, i2 := cut (BitVec.ofNat 21 w.toNat) d.i2, xlat := [] }
  else if f = 6 then { d with stride0 := BitVec.ofNat 32 w.toNat, xlat := [] }
  else if f = 7 then { d with stride1 := BitVec.ofNat 32 w.toNat, xlat := [] }
  else if f = 8 then { d with stride2 := BitVec.ofNat 32 w.toNat, xlat := [] }
  else if f = 9 then { d with i0 := BitVec.ofNat 21 w.toNat }
  else if f = 10 then { d with i1 := BitVec.ofNat 21 w.toNat }
  else { d with i2 := BitVec.ofNat 21 w.toNat }

/-- The issuing strand with another context. -/
def withCtx (s : State) (c : VCtx) : State := { s with me := { s.me with ctx := c } }

/-- G·VLMAX of the context. -/
def topOf (c : VCtx) : Nat := c.g * (64 * c.k)

/-- The strand has no lane change pending (R211, R212). -/
def nothingPending (s : State) : Prop :=
  ∀ e ∈ (s.coreS (s.meId / 8)).lat, (e.own = some s.meId → e.pend = none) ∧ (e.own = none → e.pend ≠ some s.meId)

/-! ### The special-function unit -/

/-- The functions of one operand: the function, RZ, vd and va. -/
def sfuOp : Instr → Option (SfuOp × Bool × Fin 32 × Fin 32)
  | .sfRcp d a z => some (.rcp, z, d, a)
  | .sfRsq d a z => some (.rsq, z, d, a)
  | .sfSqrt d a z => some (.sqrt, z, d, a)
  | .sfExp2 d a z => some (.exp2, z, d, a)
  | .sfLog2 d a z => some (.log2, z, d, a)
  | .sfSinpi d a z => some (.sinpi, z, d, a)
  | .sfCospi d a z => some (.cospi, z, d, a)
  | _ => none

/-! ### Vector memory in the core-local memory -/

/-- A sweep's position p steps on from a descriptor's own: its byte offset (R165, R171). -/
def sweepOffset (d : Desc) (p : Nat) : Nat :=
  let len (l : BitVec 21) : Nat := if l = 0 then 1 else l.toNat
  let x := (d.i0.toNat + len d.len0 * (d.i1.toNat + len d.len1 * d.i2.toNat) + p) % (len d.len0 * len d.len1 * len d.len2)
  (((d.base.toNat : Int) + (x % len d.len0 : Nat) * d.stride0.toInt + (x / len d.len0 % len d.len1 : Nat) * d.stride1.toInt
    + (x / len d.len0 / len d.len1 : Nat) * d.stride2.toInt) % 2 ^ 64).toNat

/-- The offset of an index x (R171). -/
def indexOffset (d : Desc) (x : Int) : Nat := (((d.base.toNat : Int) + x * d.stride0.toInt) % 2 ^ 64).toNat

/-- The physical address of an offset of the strand's CLM (Table 7.2). -/
def clmAddr (s : State) (off : Nat) : Nat := 0x120000000000 + 0x40000 * (s.meId / 8) + off

/-- A word of the strand's CLM that it may read and write, in a block that its owner holds, without an error. -/
abbrev clmWord (s : State) (off : Nat) : Prop :=
  off < 0x40000 ∧ off % 4 = 0 ∧ s.die.admits (0x200 + s.meId / 8) s.me.id.owner false = true
  ∧ s.die.admits (0x200 + s.meId / 8) s.me.id.owner true = true
  ∧ holdsBlock s.die s.me.id.owner (clmAddr s off) ∧ sget false s.die.mem.errs (clmAddr s off / 8) = false

/-- The 32-bit word there (R9). -/
def clmValue (s : State) (off : Nat) : Nat := numOf ((List.range 4).map fun i => s.die.mem.dieByte (clmAddr s off + i))

/-- Where element n of a load or store lies: swept, or indexed by a register (R171). -/
def elemOffset (s : State) (sd : Fin 16) (idx : Option (Fin 32)) (n : Nat) : Nat :=
  match idx with
  | none => sweepOffset (sdOf s sd) n
  | some r => indexOffset (sdOf s sd) (if tagAt s.me.ctx r = .i32 then toSigned 32 (wordAt s.me.ctx r n) else wordAt s.me.ctx r n)

/-- Element n is active (R23). -/
abbrev elemActive (s : State) (n : Nat) : Prop := s.me.ctx.vstart ≤ n ∧ n < s.me.ctx.vl ∧ unitActive s.me.ctx false n = true

/-- A vector memory instruction of words in the CLM: SPACE = 1, the tag of one-word elements, a lease, the strand on a core, registers in whole
groups, a proper index register, nothing pending for the strand, and every active element a word that it may access. -/
def clmReady (s : State) (v : Fin 32) (sd : Fin 16) (idx : Option (Fin 32)) (tag : Tag) : Prop :=
  s.meId < 2048 ∧ s.me.ctx.gm ≠ 0 ∧ s.me.run.linkData = [] ∧ (sdOf s sd).space = 1 ∧ Tag.ofCode (sdOf s sd).tag.toNat = some tag
  ∧ tag ≠ .cf32 ∧ aligned s v ∧ swf .raw s.me.ctx.tags = true
  ∧ (∀ r, idx = some r → aligned s r ∧ tagAt s.me.ctx r ∈ [Tag.i32, .ui32, .raw])
  ∧ ∀ n, elemActive s n → clmWord s (elemOffset s sd idx n)

/-- The descriptor after a sweep of VL steps (R171). -/
def sweptBy (d : Desc) (n : Nat) : Desc :=
  let len (l : BitVec 21) : Nat := if l = 0 then 1 else l.toNat
  let x := (d.i0.toNat + len d.len0 * (d.i1.toNat + len d.len1 * d.i2.toNat) + n) % (len d.len0 * len d.len1 * len d.len2)
  { d with
    i0 := BitVec.ofNat 21 (x % len d.len0)
    i1 := BitVec.ofNat 21 (x / len d.len0 % len d.len1)
    i2 := BitVec.ofNat 21 (x / len d.len0 / len d.len1) }

/-- The context after a load of words: vd by R111 with the descriptor's tag, and the position moved on where it swept. -/
def loadedCtx (s : State) (v : Fin 32) (sd : Fin 16) (idx : Option (Fin 32)) (tag : Tag) : VCtx :=
  let c := (s.me.ctx.elementWise ⟨v, s.me.ctx.g, .raw, tag, false, 1, false⟩ fun n => (clmValue s (elemOffset s sd idx n), 0)).1
  if idx.isNone then { c with sd := sset Desc.zero c.sd sd (sweptBy (sdOf s sd) s.me.ctx.vl) } else c

/-- The context after a store: the position moved on where it swept. -/
def storedCtx (s : State) (sd : Fin 16) (idx : Option (Fin 32)) : VCtx :=
  if idx.isNone then { s.me.ctx with sd := sset Desc.zero s.me.ctx.sd sd (sweptBy (sdOf s sd) s.me.ctx.vl) } else s.me.ctx

/-- The loads: vd, sd, the index register, and whether each element draws a ticket (R176, R186). -/
def vecLoad : Instr → Option (Fin 32 × Fin 16 × Option (Fin 32) × Bool)
  | .vld d sd c => some (d, sd, none, c)
  | .vgath d sd i c => some (d, sd, some i, c)
  | .vldff d sd => some (d, sd, none, false)
  | _ => none

/-- The stores. -/
def vecStore : Instr → Option (Fin 32 × Fin 16 × Option (Fin 32) × Bool)
  | .vst v sd c => some (v, sd, none, c)
  | .vstu v sd => some (v, sd, none, false)
  | .vscat v sd i c => some (v, sd, some i, c)
  | .vscatu v sd i => some (v, sd, some i, false)
  | _ => none

/-- The atomics: vt, sd, the index register, the operation, whether each element draws a ticket, and whether vt takes the old values. -/
def vecAtomic : Instr → Option (Fin 32 × Fin 16 × Fin 32 × Fin 16 × Bool × Bool)
  | .vamo d sd i c p => some (d, sd, i, p, c, true)
  | .vredm v sd i p => some (v, sd, i, p, false, false)
  | _ => none

/-- The new word of a vector atomic (R71, R180): FADD, FAND, FOR, FXOR, FMIN, FMAX, FMINU, FMAXU. -/
def atomicWord (p : Fin 16) (old b : Nat) : Nat :=
  let op : Amo := match p.val with | 0 => .fadd | 1 => .fand | 2 => .for | 3 => .fxor | 4 => .fmin | 5 => .fmax | 6 => .fminu | _ => .fmaxu
  (amoNew op 4 old b 0).getD old

/-- The tickets that the elements of an sc order draw. -/
def ticketsOf (s : State) (sc : Bool) : Nat :=
  if sc then ((s.me.ctx.units false).filter (s.me.ctx.unitOn false)).length else 0

/-- The number of a VPREF. -/
def prefOf : Instr → Option (Fin 16)
  | .vpref0 => some 0
  | .vpref1 => some 1
  | .vpref2 => some 2
  | .vpref3 => some 3
  | .vpref4 => some 4
  | .vpref5 => some 5
  | .vpref6 => some 6
  | .vpref7 => some 7
  | .vpref8 => some 8
  | .vpref9 => some 9
  | .vpref10 => some 10
  | .vpref11 => some 11
  | .vpref12 => some 12
  | .vpref13 => some 13
  | .vpref14 => some 14
  | .vpref15 => some 15
  | _ => none

/-! ### Records (R182) -/

/-- The elements that a record covers, and the elements that VSTCMP stores (R183): of an active word, with a bit that is not zero. -/
def recordCovers (t : Tag) (vl : Nat) : Nat := if t = .cf32 then vl / 2 else vl * (32 / t.ebits)
def recordStores (s : State) (v : Fin 32) (t : Tag) : List Nat :=
  (List.range (recordCovers t s.me.ctx.vl)).filter fun j =>
    unitActive s.me.ctx false (if t = .cf32 then 2 * j else j / (32 / t.ebits)) && elemOf s.me.ctx v t j != 0

/-- The bytes of a record (Table 7.9): c, the number of stored elements, the bytes m of the bitmask, the tag, version 1 and the bytes of the values;
the bitmask; the values. -/
def recordBytes (t : Tag) (c : Nat) (js : List Nat) (value : Nat → Nat) : List Byte :=
  let e := t.ebits / 8
  let m := 16 * ((c + 127) / 128)
  bytesOf 4 c ++ bytesOf 4 js.length ++ bytesOf 2 m ++ bytesOf 1 t.code ++ bytesOf 1 1 ++ bytesOf 4 (js.length * e)
    ++ bytesOf m (js.map fun j => 2 ^ j).sum ++ js.flatMap fun j => bytesOf e (value j)

/-- The bytes of the CLM that the strand's owner sees from an offset on. -/
def clmBytes (s : State) (off n : Nat) : List Byte := (List.range n).map fun i => s.die.mem.dieByte (clmAddr s (off + i))

/-- A record instruction in the CLM: SPACE = 1, BASE a multiple of 16, a tag, VSTART = 0, vd or vt aligned, and `n` bytes of words there that the
strand may access. -/
def recordReady (s : State) (v : Fin 32) (sd : Fin 16) (t : Tag) (n : Nat) : Prop :=
  s.meId < 2048 ∧ s.me.ctx.gm ≠ 0 ∧ s.me.run.linkData = [] ∧ (sdOf s sd).space = 1 ∧ Tag.ofCode (sdOf s sd).tag.toNat = some t
  ∧ (sdOf s sd).base.toNat % 16 = 0 ∧ s.me.ctx.vstart = 0 ∧ aligned s v ∧ swf .raw s.me.ctx.tags = true
  ∧ ∀ i < (n + 3) / 4, clmWord s ((sdOf s sd).base.toNat + 4 * i)

/-- The bytes that the values of a record may take: LEN0 steps (R182). -/
def recordRoom (d : Desc) : Nat := (if d.len0 = 0 then 1 else d.len0.toNat) * (if d.tag = 14 then 8 else 4)

/-! ### Matrix -/

/-- Column j of row r of tile z. -/
def cellAt (c : VCtx) (z r j : Nat) : Nat := (sget 0 c.tiles (4096 * z + 64 * r + j)).toNat

/-- Word j of the B operand: of a quarter of a register, or of the ring latch (R234). -/
def bWord (s : State) (b : Fin 32) (q : Fin 4) (rl : Bool) (j : Nat) : Nat :=
  if rl then (sget 0 (s.coreS (s.meId / 8)).latch.cur j).toNat else wordAt s.me.ctx b (16 * s.me.ctx.k * q + j)

/-- Row r is active for quarter p: word 16k·p + r of the mask is (R235). -/
abbrev rowActive (s : State) (p : Fin 4) (r : Nat) : Prop := r < 16 * s.me.ctx.k ∧ elemActive s (16 * s.me.ctx.k * p + r)

/-- The B operand can be read: a quarter that begins at a multiple of 64 words, or the strand's own ring latch (R234, R243). -/
abbrev bReady (s : State) (q : Fin 4) (rl : Bool) : Prop :=
  if rl then (s.coreS (s.meId / 8)).latch.owner = some s.meId else q.val * s.me.ctx.k % 4 = 0

/-- The tag of the B operand. -/
def bTag (s : State) (b : Fin 32) (rl : Bool) : Tag := if rl then (s.coreS (s.meId / 8)).latch.tag else tagAt s.me.ctx b

/-- Part t of a word under a floating-point tag of `n` bits. -/
def partOf (f : Fmt) (n w t : Nat) : FV := FV.ofBits f (w / 2 ^ (n * t) % 2 ^ n)

/-- An instruction of the matrix unit has retired that changed tiles alone: cell (r, j) of tile z is `f z r j`. -/
def tileWrote (s t : State) (fl : Flags) (f : Nat → Nat → Nat → Nat) : Prop :=
  t = vecWrote s { s.me.ctx with tiles := t.me.ctx.tiles, dirty := t.me.ctx.dirty } fl
  ∧ ∀ z < 4, ∀ r < 64, ∀ j < 64, cellAt t.me.ctx z r j = f z r j

end Sys2Proof.Claims
end

