-- ==== Sys2Proof/Certificates/Slice0/Obligations.lean ====
section
/-! DEFINITION. The statements for the provers. -/

open Sys2Proof Sys2Proof.Machine Sys2Proof.Claims

/-- Words written from the encoding tables decode to their instructions. Eight words written bit by bit from Tables 3.1 to 3.8,
one each of the formats A, I, M, BZ, V, W, L and T, decode to the instructions they stand for, and the words 0x00000000 and
0xFFFFFFFF to none. (03_encoding.md Tables 3.1 to 3.8; R53; R60) -/
def Obligations.SpecWordsDecode : Prop :=
  -- A: major 000100, rd 00011, ra 00001, rb 00010, W 0, op 0000000001
  decodeWord 0b00010000011000010001000000000001 = .ok (.sub 3 1 2 false)
  -- I: major 000101, rd 00101, ra 00110, imm16 1111111111111100
  ∧ decodeWord 0b00010100101001101111111111111100 = .ok (.addi 5 6 0xFFFC)
  -- M: major 001100, rd 00111, ra 01000, size 110, imm13 0000000010000
  ∧ decodeWord 0b00110000111010001100000000010000 = .ok (.ld 7 8 6 16)
  -- BZ: major 010000, cond 010, ra 01001, off18 all ones
  ∧ decodeWord 0b01000001001001111111111111111111 = .ok (.bltz 9 0x3FFFF)
  -- V: major 100001, vd 00100, va 01000, vb 01100, op 000011, mod 10000 (RZ)
  ∧ decodeWord 0b10000100100010000110000001110000 = .ok (.vmul 4 8 12 true)
  -- W: major 100011, vd 00001, va 00010, vb 00011, vc 00100, op 000, mod 000
  ∧ decodeWord 0b10001100001000100001100100000000 = .ok (.vfma 1 2 3 4 false)
  -- L: major 101000, v 00110, sd 0011, vi 00000, op 00000, mod 0000000
  ∧ decodeWord 0b10100000110001100000000000000000 = .ok (.vld 6 3 false)
  -- T: major 101010, ac 10, va 00001, vb 00010, qa 01, qb 00, op 0001, RL 0, RZ 0, 0000
  ∧ decodeWord 0b10101010000010001001000001000000 = .ok (.mopa 2 1 2 1 0 false false)
  ∧ (∀ i, decodeWord 0 ≠ .ok i) ∧ (∀ i, decodeWord 0xFFFFFFFF ≠ .ok i)

/-- Decoding the word of a well-formed instruction gives it back. For every well-formed instruction that has a word, with every
operand at every value its encoding admits, decoding the encoded word gives that instruction. (03_encoding.md; R53; R55; R56) -/
def Obligations.EncodedInstructionsDecode : Prop :=
  ∀ i : Instr, WellFormed i → i.hasWord = true → decodeWord (encode i) = .ok i

/-- Every word that decodes is the encoding of a well-formed instruction. A 32-bit word that the decoder accepts decodes to a
well-formed instruction whose encoding is exactly that word: no unused bit is ignored, no reserved encoding falls through to a
neighbour, and no word has two meanings. (03_encoding.md; R55; R57; R58) -/
def Obligations.DecodedWordsAreEncodings : Prop :=
  ∀ w < 2 ^ 32, ∀ i : Instr, decodeWord w = .ok i → WellFormed i ∧ i.hasWord = true ∧ encode i = w

/-- A step runs the instruction whose word it fetches. Where nothing is due and no event is on the agenda, the boot ROM is done
and the machine has nothing else to do of itself, the chosen strand becomes the issuing one; if no asynchronous trap is due to it,
its vector queue is empty and no repetition runs or captures, and the word fetched at its PC decodes to i, the step is exec of i
at that state (an instruction that is no vector instruction of the queue, or that traps, leaves exactly that state; one of the
queue that retires shows itself complete in PIX 0 where VL is not 0; one that has to wait enters the queue and goes on from
there). Which strand is chosen and that time passes first are the model's (logs 1 and 3). (03_encoding.md R53 and R57;
08_strand_control_and_faults.md R200; 10_core.md R207) -/
def Obligations.StepRunsDecodedInstruction : Prop :=
  ∀ (s f : State) (n w : Nat) (i : Instr),
    s.tick.die.due = [] → s.tick.agenda = [] → 8 ≤ s.tick.die.bootStep → s.tick.die.bootStep ≠ 14 → s.tick.auto = none →
    s.tick.chooseStrand = some n → (s.tick.strand n).issuable = true → (s.tick.focus n).me.takesAsync = false →
    (s.tick.strand n).inQueue = false →
    ((s.tick.focus n).modMe fun t => { t with run := { t.run with lastIssue := s.tick.die.clock } }).fetch = .word w f →
    f.me.ctx.queue = [] → f.me.ctx.rep.running = false → f.me.ctx.rep.toCapture = 0 → decodeWord w = .ok i →
    let g : State := { f with me := { f.me with run := { f.me.run with entering := false } } }
    (queued w = false → step s = exec i g)
    ∧ (queued w = true → ∀ t, exec i g = .next t →
        (t.trapped = true → step s = .next t)
        ∧ (t.trapped = false → t.passed f.me.pc = true → step s = .next (if f.me.ctx.vl = 0 then t else
            let x := BitVec.ofNat 18 (4096 * (destReg w).getD 0 + wordCount f.me.ctx.k w f.me.ctx.vl % 4096)
            { t with me := { t.me with ctx := { t.me.ctx with pix := sset 0 t.me.ctx.pix 0 x } } }))
        ∧ (t.trapped = false → t.passed f.me.pc = false → step s = .next (match (g.issueQueued w).me.ctx.queue with
            | q :: _ => ((g.issueQueued w).runSlot q q.vl).getD (g.issueQueued w)
            | [] => t)))

/-- No instruction and no event ends the run. Executing any constructor of the opcode table in any state answers a next state: no
instruction ends in a fault of the model or in a refusal. (INDEX.md; opcode_table.json; R57) -/
def Obligations.EveryInstructionAnswersNext : Prop :=
  ∀ (i : Instr) (s : State), ∃ t, exec i s = .next t

/-- A step goes on in every state but one in which the boot ROM has stopped. From every state a step answers a next state, unless
after the passage of time nothing is due, no event is on the agenda and BOOTST is 14 (LPDDR 6 training failed): then, and only
then, the machine stops. (23_package.md R432; R57) -/
def Obligations.StepGoesOnUnlessBootStopped : Prop :=
  (∀ s : State, s.tick.die.bootStep ≠ 14 → s.goesOn)
  ∧ (∀ s : State, s.tick.die.due = [] → s.tick.agenda = [] → s.tick.die.bootStep = 14 → step s = .fault .bootStopped)
  ∧ (∀ s : State, ∀ r, step s = .fault r → s.tick.die.bootStep = 14) ∧ (∀ s : State, ∀ r, step s ≠ .refused r)

/-- Every step keeps the memories and the registers of the die in their canonical form. From every state whose memory lists
(bytes, keys, key generations, owner tags, unclean granules, poisoned sectors, L2 lines and the data under dirty lines) and whose
memory-mapped registers are in canonical form (keys strictly rising, no entry at its default), a step that answers a next state,
whatever instruction or event it runs, leaves them in canonical form. ResetState says that they are in it after reset. The form is
the model's own (log 5); it makes equal memories equal data. (16_die_memory.md; R228; R303; R309) -/
def Obligations.EveryStepKeepsCanonicalForm : Prop :=
  ∀ s t : State, s.wf → step s = .next t → t.wf

/-- What reset leaves. After power-on the CSRs that Table 1.3 and Table 10.4 give a reset value read it, BRCTL.LOG2S is 16, JSRV.T
is 1,000, JPART.PROMO is 40, BOOTST is 0, no memory byte is listed and every memory and register list is in its canonical form.
(The scalar registers and the PC read zero: the model's choice, log 4; unlisted memory reads zero: log 5.) (01_strand_state.md
Table 1.3; 10_core.md Table 10.4; 14_cluster.md Table 14.5; 19_timetable.md Tables 19.4 and 19.6; 21_partitions_and_clearance.md;
23_package.md R432) -/
def Obligations.ResetState : Prop :=
  (∀ n ∈ [0x000, 0x010, 0x011, 0x012, 0x140, 0x141, 0x142, 0x143, 0x144, 0x145, 0x180, 0x300, 0x301, 0x382, 0xC13, 0xC14, 0xC20, 0xC3F],
    State.reset.csrRead n = 0)
  ∧ State.reset.csrRead 0x381 = 0x40000014
  ∧ State.reset.die.reg 0x200001000000 / 2 ^ 16 = 1 ∧ State.reset.die.reg 0x200004000000 = 1000 * 2 ^ 32
  ∧ State.reset.die.reg 0x200004002010 = 40 ∧ State.reset.die.bootStep = 0
  ∧ State.reset.die.mem.bytes = [] ∧ State.reset.wf ∧ (∀ r, State.reset.reg r = 0)

/-- What taking a synchronous exception saves and where it goes. A synchronous trap with values v writes TCAUSE, TPC, TVAL, TELEM,
TIDX3 and PPRV, sets HOLD, and leaves every scalar register, FCSR, the memories and every other strand as they were. From user it
enters VF supervisor at STVEC; from VF supervisor and firmware, or where STVEC is zero, it enters firmware at FTVEC; where FTVEC
is zero too the strand stops and its failure is left to the Timetable. mf and VSTART are written where the cause names them and
are unchanged otherwise. (08_strand_control_and_faults.md R199, R202 and Table 8.6; R18) -/
def Obligations.SynchronousTrapEntry : Prop :=
  ∀ (s : State) (v : TrapVals),
    let t := s.trapWith v
    let toSup := s.me.priv = .user ∧ s.me.trap.stvec ≠ 0
    t.me.trap = { s.me.trap with
        tcause := BitVec.ofNat 9 v.code, tpc := s.me.pc, tval := v.tval, telem := BitVec.ofNat 64 v.telem, tidx3 := v.tidx3,
        pprv := s.me.priv, hold := true }
    ∧ t.me.regs = s.me.regs ∧ t.me.fcsr = s.me.fcsr ∧ t.me.dom = s.me.dom ∧ t.me.id = s.me.id ∧ t.me.xasid = s.me.xasid
    ∧ t.others = s.others ∧ t.meId = s.meId ∧ t.agenda = s.agenda
    ∧ (v.mf = none → t.me.ctx.mf = s.me.ctx.mf) ∧ (v.vstart = none → t.me.ctx.vstart = s.me.ctx.vstart)
    ∧ (∀ n, v.vstart = some n → t.me.ctx.vstart = n) ∧ (∀ m, v.mf = some m → t.me.ctx.mf = m.1)
    ∧ t.me.ctx.v = s.me.ctx.v ∧ t.me.ctx.masks = s.me.ctx.masks ∧ t.me.ctx.sd = s.me.ctx.sd ∧ t.me.ctx.vl = s.me.ctx.vl
    ∧ (toSup → t.me.priv = .supervisor ∧ t.me.pc = s.me.trap.stvec ∧ t.die = s.die)
    ∧ (¬toSup → s.me.trap.ftvec ≠ 0 → t.me.priv = .firmware ∧ t.me.pc = s.me.trap.ftvec ∧ t.die = s.die)
    ∧ (¬toSup → s.me.trap.ftvec = 0 → t.me.run.wait = .stopped ∧ t.die.due = s.die.due ++ [.strandFailed s.meId])

/-- ECALL and BREAK take their traps. ECALL traps with TCAUSE.CODE 0x08 and BREAK with 0x09, both with TVAL 0 and TPC the PC of
the instruction, entered at the level of R18: from user at VF supervisor, otherwise at firmware. (R101) -/
def Obligations.CallAndBreakTrap : Prop :=
  ∀ (s : State) (i : Instr) (code : Nat), (i = .ecall ∧ code = 8) ∨ (i = .brk ∧ code = 9) →
    ∃ t, exec i s = .next t ∧ trapped s t code 0 ∧ t.me.trap.telem = 0 ∧ t.others = s.others
      ∧ (s.me.priv = .user → s.me.trap.stvec ≠ 0 → t = { s with me := t.me } ∧ t.me.priv = .supervisor ∧ t.me.pc = s.me.trap.stvec)
      ∧ (s.me.priv ≠ .user → s.me.trap.ftvec ≠ 0 → t = { s with me := t.me } ∧ t.me.priv = .firmware ∧ t.me.pc = s.me.trap.ftvec)

/-- TRAPRET returns, or faults in the order of its checks. At user privilege TRAPRET faults with code 0x02. Above it, PPRV above
the privilege faults with 0x02, a target with bits [63:54] set with 0x10 and TVAL the target, a misaligned target with 0x03.
Otherwise the privilege becomes PPRV, HOLD is cleared and the PC is TPC, and, where no repetition is suspended, nothing else
changes. (R102) -/
def Obligations.TrapReturn : Prop :=
  ∀ s : State, ∃ t, exec .trapret s = .next t ∧
    (s.me.priv = .user ∨ s.me.priv.code < s.me.trap.pprv.code → trapped s t 0x02 (BitVec.ofNat 64 (encode .trapret)))
    ∧ (s.me.priv ≠ .user → s.me.trap.pprv.code ≤ s.me.priv.code →
        (¬inRange s.me.trap.tpc → trapped s t 0x10 s.me.trap.tpc)
        ∧ (inRange s.me.trap.tpc → s.me.trap.tpc.toNat % 4 ≠ 0 → trapped s t 0x03 s.me.trap.tpc)
        ∧ (inRange s.me.trap.tpc → s.me.trap.tpc.toNat % 4 = 0 → t.me.priv = s.me.trap.pprv ∧ t.me.trap = { s.me.trap with hold := false }
            ∧ t.me.regs = s.me.regs ∧ t.die = s.die ∧ t.others = s.others
            ∧ (s.me.ctx.rep.suspended = false →
                t = retiredAt { s with me := { s.me with priv := s.me.trap.pprv, trap := { s.me.trap with hold := false } } } s.me.trap.tpc)))

/-- Asynchronous causes, the HOLD bit that keeps them back, and the watchdog. For a live strand with a cause due and HOLD = 0,
ASYNC_TRAP_ENTRY sets TCAUSE to ASYNC and the code, TPC to its PC and TVAL to the address of the record, leaves TELEM, TIDX3,
VSTART and the scalar registers unchanged, sets HOLD and enters the handler; with HOLD = 1 it changes nothing. TPRV_HOLD_CLEAR
clears HOLD alone. SYNC_TRAP_ENTRY is the synchronous entry with its values. POSTED_STORE_ERROR makes a cause due after those
already due. WATCHDOG_EXPIRY makes cause 0x7F due to a strand that is watched and has none; WATCHDOG_RESET leaves the failure of a
strand whose watchdog cause stays held to the Timetable. No other strand changes. REGISTER_FILE_ERROR of a strand that has
stopped, or of none, changes nothing; of a live one it writes an error record with code 0x70 that names the register and the word;
for a vector register the vector state of the context is zeroed and the job abandoned with status ABANDONED; for a scalar one the
job of a root strand ends ABANDONED with no exit routine, where it has no children, the job of another strand is abandoned, and a
strand of the column stops, its requests dropped, its domains left and its ring latch released. (08_strand_control_and_faults.md
R200 and R201; R89; R199; R229; R230) -/
def Obligations.TrapEvents : Prop :=
  (∀ (s : State) (i : Nat) (c : Cause) (cs : List Cause), (s.strand i).alive = true → (s.strand i).run.causes = c :: cs →
      (s.strand i).trap.hold = false → (s.strand i).priv = .user → (s.strand i).trap.stvec ≠ 0 →
      ∃ t, exec (.asyncTrapEntry i) s = .next t ∧ onlyStrand s t i ∧ t.die = s.die
        ∧ (t.strand i).priv = .supervisor ∧ (t.strand i).pc = (s.strand i).trap.stvec ∧ (t.strand i).run.causes = cs
        ∧ (t.strand i).trap = { (s.strand i).trap with
            tcause := BitVec.ofNat 9 (0x100 + c.code), tpc := (s.strand i).pc, tval := BitVec.ofNat 64 c.addr, pprv := .user, hold := true }
        ∧ (t.strand i).ctx = { (s.strand i).ctx with rep := { (s.strand i).ctx.rep with
            suspended := (s.strand i).ctx.rep.suspended || decide (0 < (s.strand i).ctx.rep.toCapture) } } ∧ (t.strand i).regs = (s.strand i).regs)
  ∧ (∀ (s : State) (i : Nat), (s.strand i).trap.hold = true → ∃ t, exec (.asyncTrapEntry i) s = .next t ∧ t = s)
  ∧ (∀ (s : State) (i : Nat), ∃ t, exec (.tprvHoldClear i) s = .next t ∧ onlyStrand s t i ∧ t.die = s.die
      ∧ t.strand i = { s.strand i with trap := { (s.strand i).trap with hold := false } })
  ∧ (∀ (s : State) (i code tval telem : Nat), (s.strand i).alive = true → (s.strand i).priv = .user → (s.strand i).trap.stvec ≠ 0 →
      code < 256 → ∃ t, exec (.syncTrapEntry i code tval telem) s = .next t ∧ onlyStrand s t i ∧ t.die = s.die
        ∧ (t.strand i).priv = .supervisor ∧ (t.strand i).pc = (s.strand i).trap.stvec ∧ (t.strand i).regs = (s.strand i).regs
        ∧ (t.strand i).trap = { (s.strand i).trap with
            tcause := BitVec.ofNat 9 code, tpc := (s.strand i).pc, tval := BitVec.ofNat 64 tval, telem := BitVec.ofNat 64 telem, tidx3 := 0,
            pprv := .user, hold := true })
  ∧ (∀ (s : State) (i code addr : Nat), (s.strand i).alive = true → code < 256 → ∃ t, exec (.postedStoreError i code addr) s = .next t
      ∧ onlyStrand s t i ∧ t.die = s.die.errorRecord code i addr
      ∧ t.strand i = { s.strand i with run := { (s.strand i).run with causes := (s.strand i).run.causes ++ [Cause.mk code addr] } })
  ∧ (∀ (s : State) (i : Nat), (s.strand i).watched = true → (s.strand i).run.watchdog = false →
      ∃ t, exec (.watchdogExpiry i) s = .next t ∧ onlyStrand s t i ∧ t.die = s.die ∧ t.strand i = { s.strand i with
        run := { (s.strand i).run with causes := (s.strand i).run.causes ++ [Cause.mk 0x7F 0], watchdog := true, watchdogAt := s.die.clock } })
  ∧ (∀ (s : State) (i : Nat), (s.strand i).watched = true → (s.strand i).run.watchdog = true →
      ∃ t, exec (.watchdogReset i) s = .next t ∧ t.me = s.me ∧ t.others = s.others ∧ t.die.due = s.die.due ++ [.strandFailed i]
        ∧ t.die.errlog = ⟨0x7F, i, 0⟩ :: s.die.errlog)
  ∧ (∀ (s : State) (i r w : Nat), let x := s.strand i
      let h := x.id.job.toNat
      let reported (n : Nat) : State := { s with die := s.die.errorRecord 0x70 i n }
      let word := 65536 * r + w
      let zero : Strand := { x with ctx := { x.ctx with v := [], tiles := [], dirty := 0, masks := [], mf := 0, mfc := [] } }
      (x.alive = false → ∀ b, exec (.registerFileError i b r w) s = .next s)
      ∧ (x.alive = true → exec (.registerFileError i false r w) s = .next (((reported word).setStrand i zero).abandon h 2 2))
      ∧ (x.alive = true → x.id.kind = .column →
          exec (.registerFileError i true r w) s = .next (((reported (2 ^ 32 + word)).detach i).modStrand i Strand.stop))
      ∧ (x.alive = true → x.id.kind = .root → (∀ e ∈ s.die.jobs, e.2.parent ≠ h) →
          exec (.registerFileError i true r w) s = .next (((reported (2 ^ 32 + word)).modDie fun d => d.cancelCmds h).endJob h 2 0))
      ∧ (x.alive = true → x.id.kind = .aux ∨ x.id.kind = .child →
          exec (.registerFileError i true r w) s = .next ((reported (2 ^ 32 + word)).abandon h 2 2)))

/-- The ALU operations of registers write the results of Table 4.2. ADD, SUB, the logical operations, the shifts and rotates, the
comparisons, minima and maxima, SHADD and the conditional moves, each in its 64-bit and its .W form, write the number that Table
4.2 and R86 give, wrapped to 64 bits or sign-extended from 32, to rd (nothing where rd is s0), and retire: no other register, no
flag, no CSR, no byte of memory and no other strand changes. (R86) -/
def Obligations.IntegerRegisterResults : Prop :=
  ∀ (s : State) (i : Instr) (d : Fin 32) (v : Word), aluRule s i = some (d, v) → exec i s = .next (wrote s d v)

/-- Multiplication, division, counting, extension and the immediate operations write the results of Tables 4.2 and 4.3 and R87.
For the well-formed instructions MUL, MULH, MULHU, DIV, DIVU, REM, REMU, CLZ, CTZ, POPC, BREV, SEXT and ZEXT: quotients truncate
toward zero, a remainder is a − b × quotient, division by zero and −2^63 by −1 give the results of Table 4.3 in 64 and in 32 bits,
the high products are exact, and rd alone is written. ADDI, ANDI, ORI, XORI, SLTI, SLTIU, SLLI, SRLI, SRAI, ROTRI, LUH and PCADD,
with the immediate widened by R54, write their result to rd and retire, with no fault and nothing else changed. (R85; R87) -/
def Obligations.MultiplyDivideAndImmediateResults : Prop :=
  (∀ (s : State) (i : Instr) (d : Fin 32) (v : Word), WellFormed i → mulDivRule s i = some (d, v) → exec i s = .next (wrote s d v))
  ∧ ∀ (s : State) (i : Instr) (d : Fin 32) (v : Word), immRule s i = some (d, v) → exec i s = .next (wrote s d v)

/-- The scalar floating-point instructions write one rounding of the exact result and OR its flags. FADD, FSUB, FMUL, FDIV, FSQRT,
FMADD, FMIN, FMAX, FEQ, FLT, FLE, FCLASS and the three conversions, in every format, write to rd, zero-extended, the exact result
of their operands rounded once in the effective mode of R39 (an operand or the canonical NaN for the minimum and maximum, 0 or 1
for the comparisons, the one-hot class for FCLASS, a clamped integer for FCVT.I), OR the flags of that result into FCSR[4:0], and
change nothing else. (R94; R95; R96; R97; R36; R37; R40; R24) -/
def Obligations.ScalarFloatResults : Prop :=
  ∀ (s : State) (i : Instr) (d : Fin 32) (b : Nat) (f : Flags), fpRule s i = some (d, b, f) →
    exec i s = .next (wroteFlags s d (BitVec.ofNat 64 b) f)

/-- Round to nearest even gives the nearest number of the format, the directed roundings the neighbour on their side. For every
format and every non-zero dyadic x. Where rounding to nearest gives the bits of a finite number y, no finite number of the format
is nearer to x than y; where another is as near, the last bit of y is 0; and NX is raised exactly where y differs from x. Rounding
toward zero gives a finite number y no further from zero than x, and none of the format lies between y and x. In F32, BF16 and
F16, where rounding toward +∞ (−∞) gives a finite number y, y is not below (above) x and no number of the format lies between x
and y. (R39; R33; R34; R41) -/
def Obligations.RoundedResults : Prop :=
  (∀ (f : Fmt) (sat n : Bool) (k : Nat) (e : Int) (x y : Rat), k ≠ 0 → ratOf (.fin n k e) = some x →
    ratBits f (rounded f .rne sat n k e).1 = some y →
    (∀ (c : Nat) (w : Rat), c < 2 ^ (f.signPos + 1) → ratBits f c = some w →
      apart x y ≤ apart x w ∧ (w ≠ y → apart x w = apart x y → (rounded f .rne sat n k e).1 % 2 = 0))
    ∧ ((rounded f .rne sat n k e).2 &&& fNX ≠ 0 ↔ y ≠ x))
  ∧ ∀ (f : Fmt) (sat n : Bool) (k : Nat) (e : Int) (x : Rat), k ≠ 0 → ratOf (.fin n k e) = some x →
    (∃ y, ratBits f (rounded f .rtz sat n k e).1 = some y ∧ magnitude y ≤ magnitude x
      ∧ ∀ (c : Nat) (w : Rat), ratBits f c = some w → magnitude w ≤ magnitude x → magnitude w ≤ magnitude y)
    ∧ (f ≠ .e4m3 → f ≠ .e5m2 →
      (∀ y, ratBits f (rounded f .rup sat n k e).1 = some y → x ≤ y ∧ ∀ (c : Nat) (w : Rat), ratBits f c = some w → x ≤ w → y ≤ w)
      ∧ (∀ y, ratBits f (rounded f .rdn sat n k e).1 = some y → y ≤ x ∧ ∀ (c : Nat) (w : Rat), ratBits f c = some w → w ≤ x → w ≤ y))

/-- Where branches and jumps go and what they write. A conditional branch (BEQZ, BNEZ, BLTZ, BGEZ, BGTZ, BLEZ, BEQ, BNE, BLT, BGE,
BLTU, BGEU) whose condition fails, retires at PC + 4; one whose condition holds, and J and JAL, go to PC + 4 × sext(off), and
fault with code 0x10 and TVAL the target where bits [63:54] of it are not zero (for a branch, by R83: log 20); JAL writes PC + 4
to s1. Nothing else changes. (R98; R99; R83; R81) -/
def Obligations.BranchesAndJumps : Prop :=
  (∀ (s : State) (i : Instr) (c : Bool) (off : Int), branchRule s i = some (c, off) →
    (c = false → exec i s = .next (retired s))
    ∧ (c = true → inRange (targetOf s off) → exec i s = .next (retiredAt s (targetOf s off)))
    ∧ (c = true → ¬inRange (targetOf s off) → ∃ t, exec i s = .next t ∧ trapped s t 0x10 (targetOf s off)))
  ∧ (∀ (s : State) (o : Fin 67108864),
      let dest := targetOf s (toSigned 26 o)
      (inRange dest → exec (.jal o) s = .next (retiredAt { s with me := { s.me with regs := s.me.regs.set 1 (s.me.pc + 4) } } dest))
      ∧ (¬inRange dest → ∃ t, exec (.jal o) s = .next t ∧ trapped s t 0x10 dest))

/-- JALR: the target, its two checks in their order, the link. With t = a + sext(imm16), read before rd is written: where bits
[63:54] of t are not zero JALR faults with code 0x10 and TVAL t; else where t[1:0] ≠ 0 it faults with code 0x03 and TVAL t; else
it writes PC + 4 to rd (nothing for s0) and goes to t, with nothing else changed. A fault writes no register. (R99) -/
def Obligations.JumpToRegister : Prop :=
  ∀ (s : State) (d a : Fin 32) (i : Fin 65536),
    let t := BitVec.ofInt 64 (u s a + simm i)
    (¬inRange t → ∃ x, exec (.jalr d a i) s = .next x ∧ trapped s x 0x10 t)
    ∧ (inRange t → t.toNat % 4 ≠ 0 → ∃ x, exec (.jalr d a i) s = .next x ∧ trapped s x 0x03 t)
    ∧ (inRange t → t.toNat % 4 = 0 →
        exec (.jalr d a i) s = .next (retiredAt { s with me := { s.me with regs := regsAfter s.me d (s.me.pc + 4) } } t))

/-- A read answers the bytes that its owner sees, and changes no byte that anyone sees. Where a read within one sector of a memory
of the die (LPDDR 6 through the L2, CSM, CSP, CLM) is answered, the 4 KiB block of an on-die address belongs to its owner, and no
dirty sector of the L2 would be refused when it is written back: the answer is byte by byte what the owner sees at those
addresses, and afterwards every owner sees at every address what it saw before, whatever the L2 evicted. The target admitted the
owner to read (R405). (R300; R302; R303; R405; R228; R309) -/
def Obligations.MemoryReads : Prop :=
  ∀ (d d' : Die) (o pa n : Nat) (bs : List Byte), d.physRead o pa n = .ok (bs, d') → inSector pa n → writesBack d → holdsBlock d o pa →
    bs = (List.range n).map (fun i => seen d o (pa + i)) ∧ (∀ p a : Nat, seen d' p a = seen d p a)
    ∧ isMemory d pa ∧ d.admits (tableOf pa (d.target pa)) o false = true

/-- A write changes exactly its bytes. Where a write within one sector of a memory of the die is carried out, the block of an
on-die address belongs to its owner, and no dirty sector would be refused when it is written back: the owner then sees the bytes
written where they were written and what it saw before at every other address, whatever the L2 evicted; and outside the 16-byte
blocks written, which the owner re-encrypts (R424), every owner sees what it saw before. The target admitted the owner to write.
(R300; R302; R303; R405; R228; R309; R424) -/
def Obligations.MemoryWrites : Prop :=
  ∀ (d d' : Die) (o pa : Nat) (bs : List Byte), d.physWrite o pa bs = .ok d' → inSector pa bs.length → writesBack d → holdsBlock d o pa →
    (∀ i < bs.length, seen d' o (pa + i) = bs.getD i 0)
    ∧ (∀ a : Nat, a < pa ∨ pa + bs.length ≤ a → seen d' o a = seen d o a)
    ∧ (∀ p a : Nat, a / 16 < pa / 16 ∨ (pa + bs.length) / 16 < a / 16 → seen d' p a = seen d p a)
    ∧ isMemory d pa ∧ d.admits (tableOf pa (d.target pa)) o true = true

/-- What an owner writes to memory it reads back. After a write of 1 to 8 bytes inside one doubleword of LPDDR 6, CSM, CSP or CLM,
a read of the same bytes by the same owner, where the memory admits it to read (and at LPDDR 6 its controller does too, and the
sector beneath holds no uncorrectable error), is answered and gives them: no ownership, encryption, eviction or error state of the
machine stands between the two. (R90; R302; R228; R309; R405) -/
def Obligations.WrittenIsReadBack : Prop :=
  ∀ (d d' : Die) (o pa : Nat) (bs : List Byte), d.physWrite o pa bs = .ok d' → 0 < bs.length → pa % 8 + bs.length ≤ 8 →
    d'.admits (tableOf pa (d'.target pa)) o false = true →
    (pa < 0x4000000000 → d'.admits (0x400 + lpController pa) o false = true ∧ sget false d'.mem.errs (errSector pa) = false) →
    ∃ d'', d'.physRead o pa bs.length = .ok (bs, d'')

/-- A block of another owner reads as zero, and a write to it zeroes the rest. Where an owner reads an on-die memory (CSM, CSP or
CLM) in a 4 KiB block whose tag is not its own, every byte answered is zero, the block becomes its own and every byte of the block
then reads as zero; where it writes there, the block becomes its own and holds zero outside the bytes written. (R228; R309) -/
def Obligations.ForeignBlocksReadZero : Prop :=
  (∀ (d d' : Die) (o pa n : Nat) (bs : List Byte), d.physRead o pa n = .ok (bs, d') → 0x4000000000 ≤ pa → inSector pa n → ¬holdsBlock d o pa →
    (∀ b ∈ bs, b = 0) ∧ bs.length = n ∧ holdsBlock d' o pa ∧ (∀ a, a / 4096 = pa / 4096 → seen d' o a = 0))
  ∧ (∀ (d d' : Die) (o pa : Nat) (bs : List Byte), d.physWrite o pa bs = .ok d' → 0x4000000000 ≤ pa → inSector pa bs.length → ¬holdsBlock d o pa →
    holdsBlock d' o pa ∧ (∀ i < bs.length, seen d' o (pa + i) = bs.getD i 0)
    ∧ (∀ a, a / 4096 = pa / 4096 → a < pa ∨ pa + bs.length ≤ a → seen d' o a = 0))

/-- Range, alignment, the local window, cached leaves and their permissions decide a translation. An aligned scalar access of the
issuing strand in the local window goes to its core's CLM or its cluster's CSP by Table 7.2 where their access table admits it,
else faults with 0x12, and with 0x10 in the rest of the window. Outside the window, with the owner's directory enabled, an access
that a cached leaf serves and admits, to memory of the die, goes to the frame and the offset, with the leaf's memory type; in
these cases nothing of the machine changes. Where the leaf found lacks R for a read or W for a write and its address is no hole,
the access faults with 0x11. With the directory disabled it faults with 0x10. (R83; R167; R337; R341; R342; R343; R352) -/
def Obligations.TranslationOfAccesses : Prop :=
  (∀ (s : State) (off n : Nat) (a : Acc), off < 0x10000000000 → off % n = 0 → n ∈ [1, 2, 4, 8] → a ≠ .fetch →
    let va := 0x003FFF0000000000 + off
    (windowAt s.core off = none → s.resolveScalar va n a = .inl (.error (0x10, s)))
    ∧ (∀ pa, windowAt s.core off = some pa →
        (s.die.admitsRW (tableOf pa (s.die.target pa)) s.me.id.owner a.reads a.writes = true → translatesTo s va n a pa 0 s)
        ∧ (s.die.admitsRW (tableOf pa (s.die.target pa)) s.me.id.owner a.reads a.writes = false →
            s.resolveScalar va n a = .inl (.error (0x12, s)))))
  ∧ (∀ (s : State) (va n : Nat) (a : Acc) (c : Copy), va < 2 ^ 54 → va % n = 0 → inWindow va = false →
      s.die.reg (xdirAddr s.me.id.owner) % 2 = 1 →
      (leafServes s va a c → isMemory s.die (pteFrame c.pte + va % 2 ^ c.size) →
        translatesTo s va n a (pteFrame c.pte + va % 2 ^ c.size) (pteMt c.pte) s)
      ∧ (s.die.findCopy s.core s.me.id.owner s.me.xasid.toNat va [] = some c → a ≠ .fetch →
          s.die.target (pteFrame c.pte + va % 2 ^ c.size) ≠ .hole →
          (a.reads = true ∧ pteBit c.pte 1 = false) ∨ (a.writes = true ∧ pteBit c.pte 2 = false) →
          s.resolveScalar va n a = .inl (.error (0x11, s))))
  ∧ (∀ (s : State) (va n : Nat) (a : Acc), va < 2 ^ 54 → va % n = 0 → inWindow va = false →
      s.die.reg (xdirAddr s.me.id.owner) % 2 = 0 → s.resolveScalar va n a = .inl (.error (0x10, s)))

/-- Setting A and D changes the leaf entry and nothing else. Where a cached leaf is found whose A or D bit an access has to set,
its entry lies in a memory block of the owner and still holds the translation's bits (A, D and SW ignored), the walker's update is
carried out, and no dirty sector would be refused when it is written back: afterwards the owner sees the entry with A set, and D
set for a write, its other bits as they were, and every other byte as before. (R343; R344) -/
def Obligations.AccessedAndDirtyBits : Prop :=
  ∀ (d d' : Die) (core o : Nat) (c : Copy) (w : Bool), d.setAD core o c w = .ok (true, d') → (pteBit c.pte 4 = false ∨ (w = true ∧ pteBit c.pte 5 = false)) →
    c.entry % 8 = 0 → writesBack d → holdsBlock d o c.entry →
    let old := numOf ((List.range 8).map fun i => seen d o (c.entry + i))
    let new := numOf ((List.range 8).map fun i => seen d' o (c.entry + i))
    pteBit new 4 = true ∧ (w = true → pteBit new 5 = true) ∧ (w = false → pteBit new 5 = pteBit old 5)
    ∧ (∀ k, k ≠ 4 → k ≠ 5 → pteBit new k = pteBit old k)
    ∧ (∀ k < 64, k ≠ 4 → k ≠ 5 → (k < 52 ∨ 55 < k) → pteBit old k = pteBit c.pte k)
    ∧ (∀ a : Nat, a < c.entry ∨ c.entry + 8 ≤ a → seen d' o a = seen d o a)

/-- What a load writes, and the order of its faults. For every well-formed LD, with va = a + sext(imm13): bits [63:54] not zero
fault with 0x10; else a misaligned va faults with 0x03; else the failure of its translation is its fault, each with TVAL va and rd
unchanged. Where va translates to a memory of the die and the read is answered, rd takes the bytes, sign-extended for B, H, W and
D and zero-extended for BU, HU and WU, and nothing else of the strand changes; where it is refused or meets an uncorrectable error
it faults with that code. A memory-mapped register gives its value (R11). A load from a window of the host or the twin either
faults or waits at its PC with no register changed. (R88; R83; R14; R108; R11) -/
def Obligations.LoadResults : Prop :=
  ∀ (s : State) (d a : Fin 32) (c : Fin 8) (i : Fin 8192), WellFormed (.ld d a c i) →
    let va := eaOf s a i
    let n := sizeBytes c
    let v := BitVec.ofNat 64 va
    (2 ^ 54 ≤ va → ∃ t, exec (.ld d a c i) s = .next t ∧ trapped s t 0x10 v)
    ∧ (va < 2 ^ 54 → va % n ≠ 0 → ∃ t, exec (.ld d a c i) s = .next t ∧ trapped s t 0x03 v)
    ∧ (∀ e s', s.resolveScalar va n .read = .inl (.error (e, s')) → ∃ t, exec (.ld d a c i) s = .next t ∧ trapped s t e v)
    ∧ (∀ pa mt s', translatesTo s va n .read pa mt s' →
        (∀ bs d', isMemory s'.die pa → s'.die.physRead s.me.id.owner pa n = .ok (bs, d') →
          exec (.ld d a c i) s = .next (wrote { s' with die := d' } d (loaded c bs)))
        ∧ (∀ e, isMemory s'.die pa → s'.die.physRead s.me.id.owner pa n = .error e →
          ∃ t, exec (.ld d a c i) s = .next t ∧ trapped s t e v)
        ∧ (∀ x s'', s'.die.target pa = .mmio → s'.mmioRead s.me.id.owner s.me.priv pa n = .ok (x, s'') →
          exec (.ld d a c i) s = .next (wrote s'' d (loaded c (bytesOf n x))))
        ∧ (s'.die.target pa = .hostWindow ∨ s'.die.target pa = .twinWindow →
          ∃ t, exec (.ld d a c i) s = .next t ∧ t.me.regs = s.me.regs ∧ (waits s t .host ∨ trapped s t 0x10 v)))

/-- What a store writes, what it leaves, and the order of its faults. For every well-formed ST, with va = a + sext(imm13): the
faults 0x10 and 0x03 and those of the translation come as for a load. Where va translates to a memory of the die and the write is
carried out, the store retires (the words it changes noted for R327: log 80) with the low bytes of rs at that address; the block
being the owner's and no dirty sector refused, the owner then sees rs[8n-1:0], little-endian, at the n bytes stored and at every
other byte what it saw after the translation; no register, flag or CSR changes. Where the write is refused or meets an
uncorrectable error the store has retired all the same: nothing is written, an error record is, and the cause is due to the strand
with the VA (R89). (R88; R83; R89; R90; R200) -/
def Obligations.StoreEffects : Prop :=
  ∀ (s : State) (r a : Fin 32) (c : Fin 8) (i : Fin 8192), WellFormed (.st r a c i) →
    let va := eaOf s a i
    let n := sizeBytes c
    let v := BitVec.ofNat 64 va
    let bs := bytesOf n (u s r)
    (2 ^ 54 ≤ va → ∃ t, exec (.st r a c i) s = .next t ∧ trapped s t 0x10 v ∧ (s.me.trap.ftvec ≠ 0 → t.die = s.die))
    ∧ (va < 2 ^ 54 → va % n ≠ 0 → ∃ t, exec (.st r a c i) s = .next t ∧ trapped s t 0x03 v ∧ (s.me.trap.ftvec ≠ 0 → t.die = s.die))
    ∧ (∀ e s', s.resolveScalar va n .write = .inl (.error (e, s')) → ∃ t, exec (.st r a c i) s = .next t ∧ trapped s t e v)
    ∧ (∀ pa mt s', translatesTo s va n .write pa mt s' → isMemory s'.die pa →
        (∀ d', s'.die.physWrite s.me.id.owner pa bs = .ok d' → ∃ t, exec (.st r a c i) s = .next t
          ∧ t = noting t (retired { s' with die := d' })
          ∧ (writesBack s'.die → inSector pa n → holdsBlock s'.die s.me.id.owner pa →
              (∀ k < n, seen t.die s.me.id.owner (pa + k) = bs.getD k 0)
              ∧ (∀ x : Nat, x < pa ∨ pa + n ≤ x → seen t.die s.me.id.owner x = seen s'.die s.me.id.owner x)))
        ∧ (∀ e, s'.die.physWrite s.me.id.owner pa bs = .error e → ∃ t, exec (.st r a c i) s = .next t ∧ t.me.pc = s.me.pc + 4
            ∧ t.me.regs = s.me.regs ∧ t.die = s'.die.errorRecord e s.meId va ∧ t.me.run.causes = s.me.run.causes ++ [⟨e, va⟩]))

/-- Every AMO is one read, one combination and one write, and rd takes the old value. For every AMO (LDA, STA, SWAP, CAS, FADD,
FAND, FOR, FXOR, FMIN, FMAX, FMINU, FMAXU, FADDF) of 4 or 8 bytes: a target with bits [63:54] set faults with 0x10, a misaligned
one with 0x03. Where its address translates to LPDDR 6 or CSM, or to a CSP or CLM for any but FADDF (which faults there with
0x11), its owner is admitted, and the reads and writes it makes are answered: memory takes the combination that R91 gives of the
old value, b and, for CAS, rd; rd takes the old value sign-extended (STA writes no register); an sc order draws one ticket and, at
scope .y, orders the strand's requests to the host; nothing else changes. A CAS that finds another value writes nothing. A release
at a scope above .s waits while a posted store of the strand has not performed. (R91; R92; R93; R83; R310) -/
def Obligations.AtomicResults : Prop :=
  ∀ (s : State) (i : Instr) (op : Amo) (d a b : Fin 32) (w : Bool) (o : Fin 4) (c : Fin 8), amoOf i = some (op, d, a, b, w, o, c) →
    let va := u s a
    let n := amoBytes w
    let v := BitVec.ofNat 64 va
    let acc : Acc := if op = .lda then .read else if op = .sta then .write else .rmw
    let held := 2 ≤ o.val ∧ c ≠ 0 ∧ ¬storesDone s
    (held → ∃ t, exec i s = .next t ∧ waits s t .fence ∧ t.me.regs = s.me.regs ∧ t.die = s.die)
    ∧ (¬held → 2 ^ 54 ≤ va → ∃ t, exec i s = .next t ∧ trapped s t 0x10 v)
    ∧ (¬held → va < 2 ^ 54 → va % n ≠ 0 → ∃ t, exec i s = .next t ∧ trapped s t 0x03 v)
    ∧ (∀ pa mt s', ¬held → translatesTo s va n acc pa mt s' true → isMemory s'.die pa →
        (op = .faddf → 0x110000000000 ≤ pa → ∃ t, exec i s = .next t ∧ trapped s t 0x11 v)
        ∧ (op ≠ .faddf ∨ pa < 0x110000000000 →
            s'.die.admitsRW (tableOf pa (s'.die.target pa)) s.me.id.owner acc.reads acc.writes = true →
            (∀ d0 d1, op = .sta → (if s'.die.admits (tableOf pa (s'.die.target pa)) s.me.id.owner false = true
                then ∃ bs, s'.die.physRead s.me.id.owner pa n = .ok (bs, d0) else d0 = s'.die) →
              d0.physWrite s.me.id.owner pa (bytesOf n (u s b)) = .ok d1 →
              exec i s = .next (retired (sequenced { s' with die := d1 } o c)))
            ∧ (∀ bs d1, op ≠ .sta → s'.die.physRead s.me.id.owner pa n = .ok (bs, d1) →
              let old := numOf bs
              match amoNew op n old (u s b % 2 ^ (8 * n)) (u s d % 2 ^ (8 * n)) with
              | none => exec i s = .next (wrote (sequenced { s' with die := d1 } o c) d (sextOf n old))
              | some x => ∀ d2, d1.physWrite s.me.id.owner pa (bytesOf n x) = .ok d2 →
                  exec i s = .next (wrote (sequenced { s' with die := d2 } o c) d (sextOf n old)))))

/-- What the CSR instructions read and write. For a CSR that the privilege reaches: CSRR, and CSRSET and CSRCLR with source s0,
write its value (Table 1.3 and the field maps) to rd and change nothing else. For a writable one that is no domain slot (and,
where it belongs to the vector context, with a lease): CSRW writes a, CSRSWAP writes a and reads, CSRSET and CSRCLR write old | a
and old & ~a and read; the write changes exactly the fields of the tables (VL is clamped to G·VLMAX, a smaller G clamps VL, an RM
of 0b100 or above is kept, STVEC and FTVEC lose bits [1:0], reserved bits and CLAT ignore it) and rd takes the old value. (R19;
R20; R22; R24; R100; R209; R336) -/
def Obligations.CsrAccess : Prop :=
  (∀ (s : State) (c : Fin 4096) (v : Word) (d : Fin 32), csrAllowed s c → csrValue s c = some v →
    exec (.csrr d c) s = .next (wrote s d v) ∧ exec (.csrset d 0 c) s = .next (wrote s d v) ∧ exec (.csrclr d 0 c) s = .next (wrote s d v))
  ∧ (∀ (s : State) (c : Fin 4096) (d a : Fin 32) (old : Word), csrAllowed s c → c.val < 0xC00 → csrValue s c = some old →
      (csrNeedsLease c → s.me.ctx.gm ≠ 0) →
      (∀ t, csrAfter s c (s.reg a) = some t →
        exec (.csrw a c) s = .next (retired t) ∧ exec (.csrswap d a c) s = .next (wrote t d old))
      ∧ (∀ t, a ≠ 0 → csrAfter s c (old ||| s.reg a) = some t → exec (.csrset d a c) s = .next (wrote t d old))
      ∧ (∀ t, a ≠ 0 → csrAfter s c (old &&& ~~~s.reg a) = some t → exec (.csrclr d a c) s = .next (wrote t d old)))

/-- The checks of a CSR instruction, in their order. A CSR instruction below the privilege in bits [9:8] of its number faults with
0x02; else one whose number is not allocated faults with 0x01; else one that writes a read-only CSR (bits [11:10] = 0b11) faults
with 0x01, CSRSET and CSRCLR with source s0 counting as reads. The fault has the instruction word as TVAL and, but for what taking
the exception writes, changes no state of the strand: no register, no FCSR, no vector context, no domain slot. (R19) -/
def Obligations.CsrChecks : Prop :=
  ∀ (s : State) (i : Instr) (c : Fin 4096) (w : Bool) (d a : Fin 32),
    (i = .csrr d c ∧ w = false) ∨ (i = .csrw a c ∧ w = true) ∨ (i = .csrswap d a c ∧ w = true)
      ∨ (i = .csrset d a c ∧ w = decide (a ≠ 0)) ∨ (i = .csrclr d a c ∧ w = decide (a ≠ 0)) →
    let word := BitVec.ofNat 64 (encode i)
    let fault (k : Nat) : Prop := ∃ t, exec i s = .next t ∧ trapped s t k word ∧ t.me.fcsr = s.me.fcsr ∧ t.me.ctx = { s.me.ctx with rep := t.me.ctx.rep } ∧ t.me.dom = s.me.dom
      ∧ t.me.xasid = s.me.xasid ∧ t.others = s.others
    (¬csrAllowed s c → fault 0x02)
    ∧ (csrAllowed s c → csrKnown c = false → fault 0x01)
    ∧ (csrAllowed s c → csrKnown c = true → 0xC00 ≤ c.val → w = true → fault 0x01)

/-- What an element-wise instruction leaves in its destination, its tags, its flags and everything else. For every context,
destination and element function whose elements below VL fit the destination: each element of the destination holds what R23 and
R111 give it (below VSTART its old value; below VL the result where its unit is active under ME, MP and m0, else zero with IPOL or
the old value; from there on zero with TPOL or the old value; with VSTART at or beyond VL, the old value everywhere), the
registers of the destination take its tag, the flags raised are those of the active elements alone, and no word of another
register, no other tag and nothing else of the context changes. (R111; R23; R31; R27; R113) -/
def Obligations.ElementWrites : Prop :=
  ∀ (c : VCtx) (d : Dest) (f : Nat → Nat × Flags), destFits c d →
    let x := c.elementWise d f
    (∀ e : Nat, (if d.lay = .cf32 then 2 * e + 1 else e / (32 / d.lay.ebits)) < d.size * (64 * c.k) →
      elemOf x.1 d.reg d.lay e = elementAfter c d f e)
    ∧ (∀ r : Nat, tagAt x.1 r = if d.reg ≤ r ∧ r < d.reg + d.size then d.tag else tagAt c r)
    ∧ (∀ r n : Nat, n < 64 * c.k → r < d.reg ∨ d.reg + d.size ≤ r → sget 0 x.1.v (256 * r + n) = sget 0 c.v (256 * r + n))
    ∧ x.1 = { c with v := x.1.v, tags := x.1.tags }
    ∧ (∀ k < 5, x.2.getLsbD k = true ↔ ∃ e : Nat, c.vstart / (if d.half then 2 else 1) ≤ e / d.per ∧ e / d.per < c.vl / (if d.half then 2 else 1)
        ∧ c.vstart < c.vl ∧ (d.every || unitActive c d.half (e / d.per)) = true ∧ (f e).2.getLsbD k = true)

/-- Every element-wise vector instruction, in every layout, checks, writes its destination and retires. For each of the 62
element-wise instructions (VOP and VOPS arithmetic, bitwise and shift forms, VABS, VNEG, VCVT, VCLASS, VSEL, VFMA, VFMS, VFNMA,
VFNMS, VMACC, VDOT2, VIOTA, VID, the slides, VRGATHER, VEXPAND, VSHUF, VXCH, VBCAST, VCMUL, VCMAC, VCMAG2, VCONJ, VQMUL, VQSCL):
with a lease, where its checks pass, it writes its destination by R111, ORs the flags of the active elements into FCSR, sets
VSTART to 0 and retires, with nothing else changed; where a check fails it traps with that code and TVAL the instruction word;
without a lease with code 0x01. VMRG does the same as VSEL where no word that selects va (both words of a complex element by its
lower mask bit) has its bit of mf set, and else traps with the cause recorded for the lowest, TVAL 0 and TELEM that word. (R57;
R109; R111; R23; R24; R134; R198) -/
def Obligations.ElementWiseExecution : Prop :=
  (∀ (s : State) (i : Instr) (plan : VCtx → Except Nat Plan), elementPlan s i = some plan →
    (∀ p, s.me.ctx.gm ≠ 0 → plan s.me.ctx = .ok p →
      exec i s = .next (vecWrote s (s.me.ctx.elementWise p.dest p.elem).1 (s.me.ctx.elementWise p.dest p.elem).2))
    ∧ (∀ c, s.me.ctx.gm ≠ 0 → plan s.me.ctx = .error c → ∃ t, exec i s = .next t ∧ trapped s t c (BitVec.ofNat 64 (encode i)))
    ∧ (s.me.ctx.gm = 0 → ∃ t, exec i s = .next t ∧ trapped s t 0x01 (BitVec.ofNat 64 (encode i))))
  ∧ (∀ (s : State) (d a b : Fin 32) (p : Plan), s.me.ctx.gm ≠ 0 → planSel (s.rnd false) d a b s.me.ctx = .ok p →
      let bad (n : Nat) : Prop := s.me.ctx.vstart ≤ n ∧ n < s.me.ctx.vl ∧ s.me.ctx.mf.getLsbD n = true
        ∧ (maskBit s.me.ctx 0 (if p.dest.half then n - n % 2 else n) != s.me.ctx.vmc.getLsbD 1) = true
      ((∀ n, ¬bad n) → exec (.vmrg d a b) s
        = .next (vecWrote s (s.me.ctx.elementWise p.dest p.elem).1 (s.me.ctx.elementWise p.dest p.elem).2))
      ∧ (∀ n, bad n → (∀ m < n, ¬bad m) → ∃ t, exec (.vmrg d a b) s = .next t
          ∧ trapped s t (sget 0 s.me.ctx.mfc n) 0 ∧ t.me.trap.telem = BitVec.ofNat 64 n))

/-- Integer, bitwise, shift, index and Q15 results of vector instructions. With a lease, operands of one integer tag in aligned
groups and vd of that tag or raw: the arithmetic of Table 5.3 in its vector and scalar forms, VABS, VNEG and the fused
multiply-adds write the exact result wrapped (saturated for VSADD and VSSUB) to the tag; the bitwise operations and shifts, also
of raw words, write their bits, the shift amount modulo the width; VSEL selects by m0 and MP alone and VCVT copies; VDOT2 adds two
products a word; VIOTA and VID count and number words as ui32 (VIOTA with vd = va is exception 0x21); VQMUL rounds half up at bit
15 and saturates; VQSCL shifts. Each retires with nothing but vd and its tag changed. (R129; R130; R131; R134; R136; R137; R141;
R161; R162) -/
def Obligations.VectorIntegerResults : Prop :=
  (∀ (s : State) (i : Instr) (t : Tag) (d a b : Fin 32) (sc : Bool) (f : Tag → Int → Int → Int), vecIntOp i = some (d, a, b, sc, f) →
      intTag t → uniform s t d (readRegs a b sc) →
      exec i s = .next (vecResult s d t fun e => (wrapTo t.ebits (f t (asInt t (elemOf s.me.ctx a t e)) (asInt t (second s t b sc e))), 0)))
  ∧ (∀ (s : State) (i : Instr) (t : Tag) (d a b : Fin 32) (sc : Bool) (f : Nat → Nat → Nat), vecBitOp i = some (d, a, b, sc, f) →
      t ≠ .cf32 → uniform s t d (readRegs a b sc) →
      exec i s = .next (vecResult s d t fun e => (f (elemOf s.me.ctx a t e) (second s t b sc e), 0)))
  ∧ (∀ (s : State) (i : Instr) (t : Tag) (d a b : Fin 32) (sc : Bool) (f : Tag → Nat → Nat → Nat), vecShiftOp i = some (d, a, b, sc, f) →
      intTag t ∨ t = .raw → uniform s t d (readRegs a b sc) →
      exec i s = .next (vecResult s d t fun e => (f t (elemOf s.me.ctx a t e) (second s t b sc e), 0)))
  ∧ (∀ (s : State) (i : Instr) (t : Tag) (d a b c : Fin 32) (z n m : Bool), vecFmaOp i = some (d, a, b, c, z, n, m) →
      intTag t → uniform s t d [a, b, c] →
      let x (r : Fin 32) (e : Nat) : Int := asInt t (elemOf s.me.ctx r t e)
      exec i s = .next (vecResult s d t fun e =>
        (wrapTo t.ebits ((if n then -(x a e * x b e) else x a e * x b e) + (if m then -x c e else x c e)), 0)))
  ∧ (∀ (s : State) (t : Tag) (d a : Fin 32), intTag t → uniform s t d [a] →
      exec (.vabs d a) s = .next (vecResult s d t fun e => ((asInt t (elemOf s.me.ctx a t e)).natAbs, 0))
      ∧ exec (.vneg d a) s = .next (vecResult s d t fun e => (wrapTo t.ebits (-asInt t (elemOf s.me.ctx a t e)), 0))
      ∧ ∀ z, exec (.vcvt d a z) s = .next (vecResult s d t fun e => (elemOf s.me.ctx a t e, 0)))
  ∧ (∀ (s : State) (t : Tag) (d a b : Fin 32), intTag t → uniform s t d [a, b] →
      let c := s.me.ctx
      let r := c.elementWise ⟨d, c.g, t, t, false, 32 / t.ebits, true⟩ fun e =>
        (elemOf c (if maskBit c 0 (e / (32 / t.ebits)) != c.vmc.getLsbD 1 then a else b) t e, 0)
      exec (.vsel d a b) s = .next (vecWrote s r.1 r.2))
  ∧ (∀ (s : State) (t : Tag) (d a b c : Fin 32) (z : Bool), t = .i16 ∨ t = .ui16 → s.me.ctx.gm ≠ 0 →
      let w : Tag := if t = .i16 then .i32 else .ui32
      (∀ r ∈ [d, a, b, c], aligned s r) → tagAt s.me.ctx a = t → tagAt s.me.ctx b = t → tagAt s.me.ctx c = w →
      (tagAt s.me.ctx d = w ∨ tagAt s.me.ctx d = .raw) →
      let x (r : Fin 32) (e : Nat) : Int := asInt t (elemOf s.me.ctx r t e)
      exec (.vdot2 d a b c z) s = .next (vecResult s d w fun n =>
        (wrapTo 32 (asInt w (elemOf s.me.ctx c w n) + x a (2 * n) * x b (2 * n) + x a (2 * n + 1) * x b (2 * n + 1)), 0)))
  ∧ (∀ (s : State) (d a : Fin 32), s.me.ctx.gm ≠ 0 → aligned s d →
      exec (.vid d) s = .next (vecResult s d .ui32 fun n => (n, 0))
      ∧ (d ≠ a → exec (.viota d a) s = .next (vecResult s d .ui32 fun n =>
          ((List.range (min n s.me.ctx.vl)).countP fun q => unitActive s.me.ctx false q && maskBit s.me.ctx a q, 0)))
      ∧ (d = a → ∃ t, exec (.viota d a) s = .next t ∧ trapped s t 0x21 (BitVec.ofNat 64 (encode (.viota d a)))))
  ∧ (∀ (s : State) (d a b : Fin 32) (n y x : Bool), uniform s .ci16 d [a, b] →
      let q (v : Int) : Nat := wrapTo 16 (max (-32768) (min 32767 ((v + 16384) / 32768)))
      let g (c : Bool) (v : Int) : Int := if c then -v else v
      let re (r : Fin 32) (e : Nat) : Int := toSigned 16 (elemOf s.me.ctx r .ci16 e % 65536)
      let im (r : Fin 32) (e : Nat) : Int := toSigned 16 (elemOf s.me.ctx r .ci16 e / 65536)
      exec (.vqmul d a b n y x) s = .next (vecResult s d .ci16 fun e =>
        let p := g n (re a e)
        let r := g n (g x (im a e))
        let u := re b e
        let v := g y (im b e)
        (q (p * u - r * v) + 65536 * q (p * v + r * u), 0)))
  ∧ (∀ (s : State) (d a b : Fin 32), uniform s .i16 d [a] →
      let k := min (s.reg b).toInt.natAbs 17
      exec (.vqscl d a b) s = .next (vecResult s d .i16 fun e =>
        let x := toSigned 16 (elemOf s.me.ctx a .i16 e)
        (wrapTo 16 (max (-32768) (min 32767 (if (s.reg b).toInt ≤ 0 then x * 2 ^ k else (x + 2 ^ (k - 1)) / 2 ^ k))), 0)))

/-- Floating-point and complex results of vector instructions. With a lease, operands of one real floating-point tag in aligned
groups and vd of that tag or raw: the arithmetic of Table 5.3, VABS, VNEG, VCVT and the fused multiply-adds write the exact result
rounded once in the effective vector mode (to nearest even, or toward zero with RZ or FCSR.RM = RTZ), with the flags of the
result; VDOT2 of bf16 and f16 rounds c + a₀b₀ + a₁b₁ once to f32; VCLASS writes the class of Table 4.10. For cbf16 and cf32,
VCMUL, VCMAC and VCMAG2 round each component of the exact complex result once, with the conjugate and negate modifiers. (R129;
R132; R135; R136; R137; R155; R156; R42; R24; R39) -/
def Obligations.VectorFloatResults : Prop :=
  (∀ (s : State) (i : Instr) (t : Tag) (f : Fmt) (d a b : Fin 32) (sc z : Bool) (g : FV → FV → FV × Flags),
      vecFloatOp i = some (d, a, b, sc, z, g) → floatTag t = some f → uniform s t d (readRegs a b sc) →
      exec i s = .next (vecResult s d t fun e =>
        roundV s z f (g (FV.ofBits f (elemOf s.me.ctx a t e)) (FV.ofBits f (second s t b sc e)))))
  ∧ (∀ (s : State) (i : Instr) (t : Tag) (f : Fmt) (d a b c : Fin 32) (z n m : Bool), vecFmaOp i = some (d, a, b, c, z, n, m) →
      floatTag t = some f → uniform s t d [a, b, c] →
      let x (r : Fin 32) (e : Nat) : FV := FV.ofBits f (elemOf s.me.ctx r t e)
      exec i s = .next (vecResult s d t fun e =>
        roundV s z f (dotFV [if m then (x c e).neg else x c e] [(if n then (x a e).neg else x a e, x b e)])))
  ∧ (∀ (s : State) (t : Tag) (f : Fmt) (d a : Fin 32) (z : Bool), floatTag t = some f → uniform s t d [a] →
      let x (e : Nat) : FV := FV.ofBits f (elemOf s.me.ctx a t e)
      exec (.vabs d a) s = .next (vecResult s d t fun e => roundV s false f ((x e).abs, (x e).sigFlag))
      ∧ exec (.vneg d a) s = .next (vecResult s d t fun e => roundV s false f ((x e).neg, (x e).sigFlag))
      ∧ (tagAt s.me.ctx d = t → exec (.vcvt d a z) s = .next (vecResult s d t fun e => roundV s z f (x e, (x e).sigFlag))))
  ∧ (∀ (s : State) (t : Tag) (f : Fmt) (d a : Fin 32), t = .f32 ∨ t = .bf16 ∨ t = .f16 → floatTag t = some f → s.me.ctx.gm ≠ 0 →
      aligned s d → aligned s a → tagAt s.me.ctx a = t →
      exec (.vclass d a) s = .next (vecResult s d (if t = .f32 then .ui32 else .ui16) fun e => (classOf f (elemOf s.me.ctx a t e), 0)))
  ∧ (∀ (s : State) (t : Tag) (f : Fmt) (d a b c : Fin 32) (z : Bool), t = .bf16 ∨ t = .f16 → floatTag t = some f → s.me.ctx.gm ≠ 0 →
      (∀ r ∈ [d, a, b, c], aligned s r) → tagAt s.me.ctx a = t → tagAt s.me.ctx b = t → tagAt s.me.ctx c = .f32 →
      (tagAt s.me.ctx d = .f32 ∨ tagAt s.me.ctx d = .raw) →
      let x (r : Fin 32) (e : Nat) : FV := FV.ofBits f (elemOf s.me.ctx r t e)
      exec (.vdot2 d a b c z) s = .next (vecResult s d .f32 fun n => roundV s z .f32 (dotFV [FV.ofBits .f32 (wordAt s.me.ctx c n)]
        [(x a (2 * n), x b (2 * n)), (x a (2 * n + 1), x b (2 * n + 1))])))
  ∧ (∀ (s : State) (t : Tag) (d a b : Fin 32) (z n y x : Bool), t = .cbf16 ∨ t = .cf32 →
      let c := s.me.ctx
      let sg (q : Bool) (v : FV) : FV := if q then v.neg else v
      let ar (e : Nat) : FV := sg n (reOf t (elemOf c a t e))
      let ai (e : Nat) : FV := sg n (sg x (imOf t (elemOf c a t e)))
      let br (e : Nat) : FV := reOf t (elemOf c b t e)
      let bi (e : Nat) : FV := sg y (imOf t (elemOf c b t e))
      let re (e : Nat) : List (FV × FV) := [(ar e, br e), ((ai e).neg, bi e)]
      let im (e : Nat) : List (FV × FV) := [(ar e, bi e), (ai e, br e)]
      (uniform s t d [a, b] →
        let r := c.elementWise (complexDest s d t) fun e => complexV s z t (dotFV [] (re e)) (dotFV [] (im e))
        exec (.vcmul d a b z n y x) s = .next (vecWrote s r.1 r.2))
      ∧ (uniform s t d [a, b, d] →
        let r := c.elementWise (complexDest s d t) fun e =>
          complexV s z t (dotFV [reOf t (elemOf c d t e)] (re e)) (dotFV [imOf t (elemOf c d t e)] (im e))
        exec (.vcmac d a b z n y x) s = .next (vecWrote s r.1 r.2)))
  ∧ (∀ (s : State) (d a : Fin 32) (z : Bool), s.me.ctx.gm ≠ 0 → aligned s d → aligned s a → tagAt s.me.ctx a = .cbf16 →
      (tagAt s.me.ctx d = .f32 ∨ tagAt s.me.ctx d = .raw) →
      exec (.vcmag2 d a z) s = .next (vecResult s d .f32 fun e =>
        let re := reOf .cbf16 (elemOf s.me.ctx a .cbf16 e)
        let im := imOf .cbf16 (elemOf s.me.ctx a .cbf16 e)
        roundV s z .f32 (dotFV [] [(re, re), (im, im)])))

/-- Permutes move words, VCOMPRESS packs them, reductions fold the active elements into rd. With a lease, aligned registers and vd
apart from the sources: VSLIDEUP, VSLIDEDN, VRGATHER, VEXPAND, VSHUF, VXCH and VBCAST write to each word of vd the word of va that
R143 to R147 and Table 5.8 name (zero at or beyond VL), with the tag of va; VCOMPRESS writes the active words in order from word
0. The reductions of an integer tag write the initial value and the active elements folded in 64 bits to rd; VREDSUMO of f32 adds
them in order with a rounding each; VREDSUM, VREDMIN and VREDMAX of every tag write what R148, R149 and the tree of R45 give with
its flags. Only rd, the flags and VSTART change. (R142; R143; R144; R145; R146; R147; R148; R149; R44; R45) -/
def Obligations.PermutesAndReductions : Prop :=
  (∀ (s : State) (i : Instr) (d a : Fin 32) (ix : Option (Fin 32)) (f : Nat → Nat), permuteRule s i = some (d, a, ix, f) →
      s.me.ctx.gm ≠ 0 → aligned s d → aligned s a → d ≠ a → tagAt s.me.ctx a ≠ .cf32 →
      (∀ b, ix = some b → aligned s b ∧ b ≠ d ∧ (intTag (tagAt s.me.ctx b) ∨ tagAt s.me.ctx b = .raw)) →
      let r := s.me.ctx.elementWise ⟨d, s.me.ctx.g, .raw, tagAt s.me.ctx a, false, 1, false⟩ fun n => (f n, 0)
      exec i s = .next (vecWrote s r.1 r.2))
  ∧ (∀ (s : State) (d a : Fin 32), s.me.ctx.gm ≠ 0 → aligned s d → aligned s a → d ≠ a → tagAt s.me.ctx a ≠ .cf32 →
      s.me.ctx.vstart < s.me.ctx.vl → s.me.ctx.vl ≤ s.me.ctx.g * (64 * s.me.ctx.k) → d.val + s.me.ctx.g ≤ 32 →
      ∃ t, exec (.vcompress d a) s = .next t ∧ t = vecWrote s { s.me.ctx with v := t.me.ctx.v, tags := t.me.ctx.tags } 0
        ∧ (∀ n, elemActive s n → wordAt t.me.ctx d (activeBelow s n) = wordAt s.me.ctx a n)
        ∧ (∀ k, activeBelow s s.me.ctx.vl ≤ k → k < s.me.ctx.g * (64 * s.me.ctx.k) →
            wordAt t.me.ctx d k = if s.me.ctx.vmc.getLsbD 3 then 0 else wordAt s.me.ctx d k)
        ∧ (∀ r n : Nat, n < 64 * s.me.ctx.k → r < d.val ∨ d.val + s.me.ctx.g ≤ r →
            sget 0 t.me.ctx.v (256 * r + n) = sget 0 s.me.ctx.v (256 * r + n)))
  ∧ (∀ (s : State) (i : Instr) (op : Red) (z : Bool) (d a b : Fin 32), reduceOp i = some (op, z, d, a, b) → s.me.ctx.gm ≠ 0 → aligned s a →
      tagAt s.me.ctx a ≠ .raw → ((tagAt s.me.ctx a).isComplex = true → op ≠ .min ∧ op ≠ .max) →
      ∃ v f, exec i s = .next (wroteFlags { s with me := { s.me with ctx := { s.me.ctx with vstart := 0 } } } d v f)
        ∧ (let r := op.run (s.rnd z) (tagAt s.me.ctx a) (s.reg b).toNat (s.me.ctx.leaves a (tagAt s.me.ctx a))
           v = BitVec.ofNat 64 r.1 ∧ f = r.2)
        ∧ (intTag (tagAt s.me.ctx a) → f = 0 ∧
            let signed : Bool := tagAt s.me.ctx a = .i32 ∨ tagAt s.me.ctx a = .i16 ∨ tagAt s.me.ctx a = .i8
            let init : Int := if signed then (s.reg b).toInt else (s.reg b).toNat
            let xs := activeInts s (tagAt s.me.ctx a) a
            v = BitVec.ofInt 64 (match op with
              | .sum | .sumo => init + xs.sum
              | .min => xs.foldl min init
              | .max => xs.foldl max init)))

/-- Compares, mask operations, scans and counts. With a lease: the compares of operands of one integer or floating-point tag set
bit n of their mask register where every element of word n satisfies the relation (NE: of one-element words, where it does not
hold; a NaN makes LT, LE and EQ false and NE true), by R133; MAND, MOR, MXOR, MANDN, MNOT, MMOV and MSET write every bit from
VSTART to VL whatever ME says; MSBF, MSIF and MSOF write the bits before, up to and at the first active set bit; the tail follows
TPOL. MPOPC counts the active set bits and MFIRST gives the index of the first, or −1, in rd. Nothing else changes; MSBF, MSIF and
MSOF with vd = va trap with code 0x21. (R133; R138; R139; R140; R114) -/
def Obligations.ComparesAndMasks : Prop :=
  (∀ (s : State) (i : Instr) (r : Rel) (m a b : Fin 32) (sc : Bool) (t : Tag), vecCompare i = some (r, m, a, b, sc) →
      s.me.ctx.gm ≠ 0 → (∀ q ∈ readRegs a b sc, aligned s q ∧ tagAt s.me.ctx q = t) →
      let x (e : Nat) : Nat := elemOf s.me.ctx a t e
      let y (e : Nat) : Nat := second s t b sc e
      let per := 32 / t.ebits
      (intTag t → ∃ q, exec i s = .next q ∧ maskWrote s q m 0 (maskAfter s.me.ctx m (unitActive s.me.ctx false) fun n =>
        (List.range per).all fun j => match r with
          | .eq => decide (asInt t (x (per * n + j)) = asInt t (y (per * n + j)))
          | .ne => decide (asInt t (x (per * n + j)) ≠ asInt t (y (per * n + j)))
          | .lt => decide (asInt t (x (per * n + j)) < asInt t (y (per * n + j)))
          | .le => decide (asInt t (x (per * n + j)) ≤ asInt t (y (per * n + j)))))
      ∧ (∀ f, floatTag t = some f → ∃ q fl, exec i s = .next q
          ∧ maskWrote s q m fl (maskAfter s.me.ctx m (unitActive s.me.ctx false) fun n =>
              (List.range per).all fun j =>
                let u := FV.ofBits f (x (per * n + j))
                let v := FV.ofBits f (y (per * n + j))
                match r with
                  | .eq => u.eq v
                  | .ne => !u.eq v
                  | .lt => u.lt v
                  | .le => u.lt v || u.eq v)
          ∧ (fl = fNV ∨ fl = 0)
          ∧ (fl = fNV ↔ ∃ e, elemActive s (e / per) ∧
              let u := FV.ofBits f (x e)
              let v := FV.ofBits f (y e)
              if r = .eq ∨ r = .ne then u.isSig = true ∨ v.isSig = true else u.isNan = true ∨ v.isNan = true)))
  ∧ (∀ (s : State) (i : Instr) (m : Fin 32) (f : Nat → Bool), maskRule s i = some (m, f) → s.me.ctx.gm ≠ 0 →
      ∃ q, exec i s = .next q ∧ maskWrote s q m 0 (maskAfter s.me.ctx m (fun _ => true) f))
  ∧ (∀ (s : State) (i : Instr) (m a : Fin 32) (f : Nat → Bool), scanRule s i = some (m, a, f) → s.me.ctx.gm ≠ 0 →
      (m ≠ a → ∃ q, exec i s = .next q ∧ maskWrote s q m 0 (maskAfter s.me.ctx m (unitActive s.me.ctx false) f))
      ∧ (m = a → ∃ q, exec i s = .next q ∧ trapped s q 0x21 (BitVec.ofNat 64 (encode i))))
  ∧ (∀ (s : State) (d a : Fin 32), s.me.ctx.gm ≠ 0 →
      let at0 : State := { s with me := { s.me with ctx := { s.me.ctx with vstart := 0 } } }
      exec (.mpopc d a) s = .next (wrote at0 d (BitVec.ofNat 64 ((List.range s.me.ctx.vl).countP fun n =>
        decide (s.me.ctx.vstart ≤ n) && unitActive s.me.ctx false n && maskBit s.me.ctx a n)))
      ∧ ∃ v, exec (.mfirst d a) s = .next (wrote at0 d v)
        ∧ (setBelow s a s.me.ctx.vl = false → v = BitVec.ofInt 64 (-1))
        ∧ (∀ n < s.me.ctx.vl, (setBelow s a (n + 1) && !setBelow s a n) = true → v = BitVec.ofNat 64 n))

/-- Butterflies, the 2 × 2 inverse and the special functions complete where their checks pass. With a lease: VBFLY2, VBFLY4 and
VCINV2 whose checks pass write all their destination groups, each element computed from the sources as they were, OR the flags and
retire; a radix-2 butterfly of cf32 or cbf16 groups writes x₀ + w·x₁ and x₀ − w·x₁, each component rounded once. The special
functions of f32 elements (RCP, RSQ, SQRT, EXP2, LOG2, SINPI, COSPI, ATAN2PI) write the function of each element rounded once to
f32 with its flags. Of an i32 element that FP32 does not represent, the lowest active one traps with code 0x30, TELEM its word and
TVAL the element with SE = 0; with SE = 1 the instruction completes and sets the bits of mf of exactly those elements, leaving the
others. (R153; R154; R158; R159; R160; R273; R274; R194) -/
def Obligations.BlocksAndSpecialFunctions : Prop :=
  (∀ (s : State) (i : Instr) (plan : VCtx → Except Nat BlockPlan) (p : BlockPlan),
      ((∃ d a b v z, i = .vbfly2 d a b v z ∧ plan = planBfly 2 v (s.rnd z) d a b)
        ∨ (∃ d a b v z, i = .vbfly4 d a b v z ∧ plan = planBfly 4 v (s.rnd z) d a b)
        ∨ (∃ d a z, i = .vcinv2 d a z ∧ plan = planInv2 (s.rnd z) d a)) →
      s.me.ctx.gm ≠ 0 → plan s.me.ctx = .ok p →
      exec i s = .next (vecWrote s (s.me.ctx.blockWise p).1 (s.me.ctx.blockWise p).2))
  ∧ (∀ (s : State) (t : Tag) (d a b : Fin 32) (v z : Bool), t = .cbf16 ∨ t = .cf32 → s.me.ctx.gm ≠ 0 → s.me.ctx.g = 1 →
      d.val % 2 = 0 → a.val % 2 = 0 → b.val % 2 = 0 → d ≠ a → b ≠ d →
      tagAt s.me.ctx a = t → tagAt s.me.ctx b = t → tagAt s.me.ctx d = t →
      let c := s.me.ctx
      let w (e : Nat) : FV × FV := (reOf t (elemOf c b t e), if v then (imOf t (elemOf c b t e)).neg else imOf t (elemOf c b t e))
      let x0 (e : Nat) : FV × FV := (reOf t (elemOf c a t e), imOf t (elemOf c a t e))
      let x1 (e : Nat) : FV × FV := (reOf t (elemOf c (a + 1) t e), imOf t (elemOf c (a + 1) t e))
      let plus (e : Nat) : Nat × Flags := complexV s z t
        (dotFV [(x0 e).1] [((w e).1, (x1 e).1), ((w e).2.neg, (x1 e).2)]) (dotFV [(x0 e).2] [((w e).1, (x1 e).2), ((w e).2, (x1 e).1)])
      let minus (e : Nat) : Nat × Flags := complexV s z t
        (dotFV [(x0 e).1] [((w e).1.neg, (x1 e).1), ((w e).2, (x1 e).2)]) (dotFV [(x0 e).2] [((w e).1.neg, (x1 e).2), ((w e).2.neg, (x1 e).1)])
      let q := c.elementInto c ⟨d, 1, t, t, t == .cf32, 1, false⟩ plus
      let r := c.elementInto q.1 ⟨d.val + 1, 1, t, t, t == .cf32, 1, false⟩ minus
      exec (.vbfly2 d a b v z) s = .next (vecWrote s r.1 (q.2 ||| r.2)))
  ∧ (∀ (s : State) (i : Instr) (op : SfuOp) (z : Bool) (d a : Fin 32), sfuOp i = some (op, z, d, a) → uniform s .f32 d [a] →
      exec i s = .next (vecResult s d .f32 fun e => roundV s z .f32 (op.value1 (FV.ofBits .f32 (elemOf s.me.ctx a .f32 e)))))
  ∧ (∀ (s : State) (d a b : Fin 32) (z : Bool), uniform s .f32 d [a, b] →
      exec (.sfAtan2pi d a b z) s = .next (vecResult s d .f32 fun e =>
        roundV s z .f32 (sfuAtan2 (FV.ofBits .f32 (elemOf s.me.ctx a .f32 e)) (FV.ofBits .f32 (elemOf s.me.ctx b .f32 e)))))
  ∧ (∀ (s : State) (i : Instr) (op : SfuOp) (z : Bool) (d a : Fin 32), sfuOp i = some (op, z, d, a) → s.me.ctx.gm ≠ 0 →
      aligned s d → aligned s a → tagAt s.me.ctx a = .i32 → tagAt s.me.ctx d = .f32 →
      let v (n : Nat) : Int := asInt .i32 (wordAt s.me.ctx a n)
      let bad (n : Nat) : Prop := elemActive s n ∧ ((FV.ofInt (v n)).round .f32 .rne false).2 ≠ 0
      (s.me.ctx.vmc.getLsbD 6 = false → ∀ n, bad n → (∀ m < n, ¬bad m) →
        ∃ t, exec i s = .next t ∧ trapped s t 0x30 (BitVec.ofInt 64 (v n)) ∧ t.me.trap.telem = BitVec.ofNat 64 n)
      ∧ (s.me.ctx.vmc.getLsbD 6 = true → s.me.ctx.vl ≤ 2048 → ∃ t, exec i s = .next t ∧ t.me.pc = s.me.pc + 4 ∧ t.me.trap = s.me.trap
          ∧ ∀ n < 2048, (bad n → t.me.ctx.mf.getLsbD n = true ∧ sget 0 t.me.ctx.mfc n = 0x30)
            ∧ (¬bad n → t.me.ctx.mf.getLsbD n = s.me.ctx.mf.getLsbD n ∧ sget 0 t.me.ctx.mfc n = sget 0 s.me.ctx.mfc n)))

/-- Vector loads, stores and atomics of words in the core-local memory. For a descriptor with SPACE = 1, a tag of one-word
elements and every active element an aligned word that the strand may access: VLD, VGATH, VLDFF and VLDS (which also clears their
bits of mf) write each active word of vd with the word at its swept or indexed offset, give vd the descriptor's tag, and a sweep
advances the position by VL; VST, VSTU, VSCAT and VSCATU store each active word of vt, so that where no two overlap each offset
then holds its word and every other byte is as before; VAMO and VREDM over distinct offsets store the combination of R71 and VAMO
returns the old words. Each retires; only an sc order draws tickets. (R165; R171; R173; R176; R178; R179; R180; R186; R111; R167) -/
def Obligations.VectorMemoryInClm : Prop :=
  (∀ (s : State) (i : Instr) (v : Fin 32) (sd : Fin 16) (idx : Option (Fin 32)) (sc : Bool) (tag : Tag), vecLoad i = some (v, sd, idx, sc) →
      clmReady s v sd idx tag →
      (∀ r, idx = some r → r ≠ v) →
      exec i s = .next { vecWrote s (loadedCtx s v sd idx tag) 0 with
        die := { s.die with tickets := s.die.tickets + ticketsOf s sc } })
  ∧ (∀ (s : State) (v : Fin 32) (sd : Fin 16) (tag : Tag), clmReady s v sd none tag →
      ∃ t, exec (.vlds v sd) s = .next t
        ∧ t = vecWrote s { loadedCtx s v sd none tag with mf := t.me.ctx.mf, mfc := t.me.ctx.mfc } 0
        ∧ ∀ n < 2048, t.me.ctx.mf.getLsbD n = (s.me.ctx.mf.getLsbD n && !decide (elemActive s n))
          ∧ sget 0 t.me.ctx.mfc n = if elemActive s n then 0 else sget 0 s.me.ctx.mfc n)
  ∧ (∀ (s : State) (i : Instr) (v : Fin 32) (sd : Fin 16) (idx : Option (Fin 32)) (sc : Bool) (tag : Tag), vecStore i = some (v, sd, idx, sc) →
      clmReady s v sd idx tag → tagAt s.me.ctx v = tag ∨ tagAt s.me.ctx v = .raw ∨ tag = .raw →
      (∀ m n, elemActive s m → elemActive s n → m ≠ n → elemOffset s sd idx m ≠ elemOffset s sd idx n) →
      ∃ t, exec i s = .next t ∧ t = noting t { vecWrote s (storedCtx s sd idx) 0 with die := t.die }
        ∧ t.die = { s.die with mem := t.die.mem, tickets := s.die.tickets + ticketsOf s sc }
        ∧ (∀ n, elemActive s n → ∀ j < 4,
            seen t.die s.me.id.owner (clmAddr s (elemOffset s sd idx n) + j) = BitVec.ofNat 8 (wordAt s.me.ctx v n / 256 ^ j))
        ∧ (∀ p a : Nat, (∀ n, elemActive s n → a < clmAddr s (elemOffset s sd idx n) ∨ clmAddr s (elemOffset s sd idx n) + 4 ≤ a) →
            seen t.die p a = seen s.die p a))
  ∧ (∀ (s : State) (i : Instr) (v ix : Fin 32) (sd : Fin 16) (p : Fin 16) (sc old : Bool) (tag : Tag),
      vecAtomic i = some (v, sd, ix, p, sc, old) → clmReady s v sd (some ix) tag → p.val < 8 → (old = true → ix ≠ v) →
      tagAt s.me.ctx v = .i32 ∨ tagAt s.me.ctx v = .ui32 ∨ tagAt s.me.ctx v = .raw →
      (∀ m n, elemActive s m → elemActive s n → m ≠ n → elemOffset s sd (some ix) m ≠ elemOffset s sd (some ix) n) →
      ∃ t, exec i s = .next t ∧ t = { vecWrote s { s.me.ctx with v := t.me.ctx.v, tags := t.me.ctx.tags } 0 with die := t.die }
        ∧ t.die = { s.die with mem := t.die.mem, tickets := s.die.tickets + ticketsOf s sc }
        ∧ (∀ n, elemActive s n → ∀ j < 4, seen t.die s.me.id.owner (clmAddr s (elemOffset s sd (some ix) n) + j)
            = BitVec.ofNat 8 (atomicWord p (clmValue s (elemOffset s sd (some ix) n)) (wordAt s.me.ctx v n) / 256 ^ j))
        ∧ (∀ o a : Nat, (∀ n, elemActive s n → a < clmAddr s (elemOffset s sd (some ix) n) ∨ clmAddr s (elemOffset s sd (some ix) n) + 4 ≤ a) →
            seen t.die o a = seen s.die o a)
        ∧ (∀ r, tagAt t.me.ctx r = if old = true ∧ v.val ≤ r ∧ r < v.val + s.me.ctx.g then tagAt s.me.ctx v else tagAt s.me.ctx r)
        ∧ (old = false → t.me.ctx.v = s.me.ctx.v)
        ∧ (old = true → s.me.ctx.vl ≤ s.me.ctx.g * (64 * s.me.ctx.k) → ∀ n < s.me.ctx.g * (64 * s.me.ctx.k),
            (elemActive s n → wordAt t.me.ctx v n = clmValue s (elemOffset s sd (some ix) n))
            ∧ (¬elemActive s n → wordAt t.me.ctx v n = wordAt s.me.ctx v n)))

/-- VSTCMP stores a compressed record, VLDEXP expands one, VPREF changes nothing but its descriptor's kept translations. For a
descriptor with SPACE = 1, BASE a multiple of 16, a tag and room for the values, with VSTART = 0 and the words of the record
accessible in the CLM: after VSTCMP the CLM holds from BASE the record of Table 7.9 (header, bitmask of the active elements that
are not zero, their values) and every other byte is as before; VLDEXP over such a record writes each stored value to its element
and zero to the others below c, and from there on zero too, by R111. VPREF0 to VPREF15 with a lease and a tag retire whatever
their words would do, and change of the context only the kept translations of their descriptor, at most two. (R181; R182; R183;
R184) -/
def Obligations.CompressedRecords : Prop :=
  (∀ (s : State) (v : Fin 32) (sd : Fin 16) (t : Tag),
      let js := recordStores s v t
      let rec0 := recordBytes t (recordCovers t s.me.ctx.vl) js fun j => elemOf s.me.ctx v t j
      recordReady s v sd t rec0.length → js.length * (t.ebits / 8) ≤ recordRoom (sdOf s sd) →
      tagAt s.me.ctx v = t ∨ tagAt s.me.ctx v = .raw ∨ t = .raw → s.me.ctx.vl ≤ 2048 →
      ∃ u, exec (.vstcmp v sd) s = .next u ∧ u = noting u { retiredVec s with die := { s.die with mem := u.die.mem } }
        ∧ clmBytes u (sdOf s sd).base.toNat rec0.length = rec0
        ∧ ∀ p a : Nat, (a < clmAddr s (sdOf s sd).base.toNat ∨ clmAddr s (sdOf s sd).base.toNat + rec0.length ≤ a) →
            seen u.die p a = seen s.die p a)
  ∧ (∀ (s : State) (v : Fin 32) (sd : Fin 16) (t : Tag) (c : Nat) (js : List Nat) (value : Nat → Nat),
      let rec0 := recordBytes t c js value
      recordReady s v sd t rec0.length → 0 < s.me.ctx.vl → c ≤ 8192 → js.Pairwise (· < ·) → (∀ j ∈ js, j < c ∧ value j < 2 ^ t.ebits) →
      js.length * (t.ebits / 8) ≤ recordRoom (sdOf s sd) → clmBytes s (sdOf s sd).base.toNat rec0.length = rec0 →
      let r := s.me.ctx.elementWise ⟨v, s.me.ctx.g, t, t, t == .cf32, if t = .cf32 then 1 else 32 / t.ebits, false⟩ fun j =>
        (if js.contains j ∧ j < recordCovers t s.me.ctx.vl then value j else 0, 0)
      exec (.vldexp v sd) s = .next (vecWrote s r.1 0))
  ∧ (∀ (s : State) (i : Instr) (sd : Fin 16), prefOf i = some sd → s.me.ctx.gm ≠ 0 → (sdOf s sd).tag ≠ 15 →
      ∃ u x, exec i s = .next u ∧ u = { retiredVec (withCtx s x) with die := u.die } ∧ x = { s.me.ctx with sd := x.sd }
        ∧ (∀ k, k ≠ sd.val → sget Desc.zero x.sd k = sget Desc.zero s.me.ctx.sd k)
        ∧ ∃ l, sget Desc.zero x.sd sd = { sdOf s sd with xlat := l } ∧ (l.length ≤ 2 ∨ l = (sdOf s sd).xlat))

/-- Lengths, strips, repetition, tags, word moves and descriptors. With a lease: SETVL (with KEEP, or with no lane change pending)
sets VL and rd to min(a, G·VLMAX); LOOPV sets VL so, STRIP to 0 and STRIPN to the rest; NEXTS takes the next strip; VREP begins
the capture of n + 1 instructions; VTAG sets the tags of a group, or traps with code 0x22 where it is not aligned and 0x20 for
code 15; VWAIT changes nothing; VMVX and VMVS move a word, or a complex element of cf32, by index, reading zero and writing
nothing beyond the group; SDSET, SDGET, SDADV and SDPOS write and read the fields and the position of a descriptor; SDLD and SDST
move its 64 bytes. Each retires with nothing else changed. (R118; R119; R120; R121; R125; R126; R127; R128; R168; R169) -/
def Obligations.VectorLengthsAndWords : Prop :=
  (∀ (s : State) (d a : Fin 32) (k : Bool), s.me.ctx.gm ≠ 0 → k = true ∨ nothingPending s →
      let v := min (s.reg a).toNat (topOf s.me.ctx)
      exec (.setvl d a k) s = .next (wrote (withCtx s { s.me.ctx with vl := v, vstart := 0 }) d (BitVec.ofNat 64 v)))
  ∧ (∀ (s : State) (a : Fin 32), s.me.ctx.gm ≠ 0 →
      let v := min (s.reg a).toNat (topOf s.me.ctx)
      exec (.loopv a) s = .next (retiredVec (withCtx s { s.me.ctx with
        vl := v, strip := 0, stripn := (s.reg a).toNat - v, loopT := s.die.dtime })))
  ∧ (∀ (s : State) (d : Fin 32), s.me.ctx.gm ≠ 0 →
      let v := min s.me.ctx.stripn (topOf s.me.ctx)
      exec (.nexts d) s = .next (wrote (withCtx s { s.me.ctx with
        vl := v, stripn := s.me.ctx.stripn - v, vstart := 0,
        strip := if v = 0 then s.me.ctx.strip else s.me.ctx.strip + max 1 s.me.ctx.fork.n }) d (BitVec.ofNat 64 v)))
  ∧ (∀ (s : State) (r : Bool) (n : Fin 16), s.me.ctx.gm ≠ 0 →
      exec (.vrep r n) s = .next (retiredVec (withCtx s { s.me.ctx with rep := { Rep.empty with toCapture := n.val + 1, rot := r, priv := s.me.priv } })))
  ∧ (∀ (s : State) (d : Fin 32) (t : Fin 16), s.me.ctx.gm ≠ 0 →
      (¬aligned s d → ∃ u, exec (.vtag d t) s = .next u ∧ trapped s u 0x22 (BitVec.ofNat 64 (encode (.vtag d t))))
      ∧ (aligned s d → t = 15 → ∃ u, exec (.vtag d t) s = .next u ∧ trapped s u 0x20 (BitVec.ofNat 64 (encode (.vtag d t))))
      ∧ (∀ q, aligned s d → Tag.ofCode t = some q → ∃ u, exec (.vtag d t) s = .next u
          ∧ u = retiredVec (withCtx s { s.me.ctx with tags := u.me.ctx.tags })
          ∧ ∀ r, tagAt u.me.ctx r = if d.val ≤ r ∧ r < d.val + s.me.ctx.g then q else tagAt s.me.ctx r))
  ∧ (∀ s : State, s.me.ctx.gm ≠ 0 → exec .vwait s = .next (retiredVec s))
  ∧ (∀ (s : State) (d a b : Fin 32), s.me.ctx.gm ≠ 0 → aligned s a →
      let n := (s.reg b).toNat
      let t := tagAt s.me.ctx a
      exec (.vmvx d a b) s = .next (wrote (withCtx s { s.me.ctx with vstart := 0 }) d
        (if t = .cf32 then (if n < topOf s.me.ctx / 2 then BitVec.ofNat 64 (elemOf s.me.ctx a .cf32 n) else 0)
         else if topOf s.me.ctx ≤ n then 0
         else if t = .i32 then BitVec.ofInt 64 (toSigned 32 (wordAt s.me.ctx a n)) else BitVec.ofNat 64 (wordAt s.me.ctx a n))))
  ∧ (∀ (s : State) (d a b : Fin 32), s.me.ctx.gm ≠ 0 → aligned s d →
      let n := (s.reg b).toNat
      let x := (s.reg a).toNat
      ∃ u, exec (.vmvs d a b) s = .next u ∧ u = retiredVec (withCtx s { s.me.ctx with v := u.me.ctx.v })
        ∧ ∀ m < topOf s.me.ctx, wordAt u.me.ctx d m =
          if tagAt s.me.ctx d = .cf32 then (if n < topOf s.me.ctx / 2 ∧ m / 2 = n then x / 2 ^ (32 * (m % 2)) % 2 ^ 32 else wordAt s.me.ctx d m)
          else if m = n then x % 2 ^ 32 else wordAt s.me.ctx d m)
  ∧ (∀ (s : State) (a d : Fin 32) (sd f : Fin 16), s.me.ctx.gm ≠ 0 → f.val < 12 →
      exec (.sdset a sd f) s = .next (retiredVec (withCtx s { s.me.ctx with
        sd := sset Desc.zero s.me.ctx.sd sd (withField (sdOf s sd) f (s.reg a)) }))
      ∧ exec (.sdget d sd f) s = .next (wrote (withCtx s { s.me.ctx with vstart := 0 }) d (fieldOf (sdOf s sd) f)))
  ∧ (∀ (s : State) (a d : Fin 32) (sd : Fin 16), s.me.ctx.gm ≠ 0 →
      exec (.sdadv a sd) s = .next (retiredVec (withCtx s { s.me.ctx with
        sd := sset Desc.zero s.me.ctx.sd sd (sweptBy (sdOf s sd) (s.reg a).toNat) }))
      ∧ exec (.sdpos d sd) s = .next (wrote (withCtx s { s.me.ctx with vstart := 0 }) d
        (let q := sdOf s sd
         let len (l : BitVec 21) : Nat := if l = 0 then 1 else l.toNat
         BitVec.ofNat 64 (q.i0.toNat + len q.len0 * (q.i1.toNat + len q.len1 * q.i2.toNat)))))
  ∧ (∀ (s s1 : State) (a : Fin 32) (sd : Fin 16) (pa mt : Nat), s.me.ctx.gm ≠ 0 → translatesTo s (s.reg a).toNat 64 .read pa mt s1 →
      isMemory s1.die pa → s1.me.run.linkData = [] → ∀ bs d, s1.die.physRead s.me.id.owner pa 64 = .ok (bs, d) →
      ∃ q, exec (.sdld a sd) s = .next (retiredVec { withCtx s1 { s1.me.ctx with sd := sset Desc.zero s1.me.ctx.sd sd q } with die := d })
        ∧ q.xlat = [] ∧ q.base.toNat = numOf bs % 2 ^ 64 ∧ q.space.toNat = numOf bs / 2 ^ 64 % 4 ∧ q.tag.toNat = numOf bs / 2 ^ 66 % 16
        ∧ q.len0.toNat = numOf bs / 2 ^ 128 % 2 ^ 21 ∧ q.len1.toNat = numOf bs / 2 ^ 149 % 2 ^ 21 ∧ q.len2.toNat = numOf bs / 2 ^ 170 % 2 ^ 21
        ∧ q.stride0.toNat = numOf bs / 2 ^ 192 % 2 ^ 32 ∧ q.stride1.toNat = numOf bs / 2 ^ 224 % 2 ^ 32
        ∧ q.stride2.toNat = numOf bs / 2 ^ 256 % 2 ^ 32 ∧ q.i0.toNat = numOf bs / 2 ^ 320 % 2 ^ 21
        ∧ q.i1.toNat = numOf bs / 2 ^ 341 % 2 ^ 21 ∧ q.i2.toNat = numOf bs / 2 ^ 362 % 2 ^ 21)
  ∧ (∀ (s s1 : State) (a : Fin 32) (sd : Fin 16) (pa mt : Nat), s.me.ctx.gm ≠ 0 → translatesTo s (s.reg a).toNat 64 .write pa mt s1 →
      isMemory s1.die pa → ∃ bs, bs.length = 64 ∧
      (let q := sdOf s sd
       numOf bs = q.base.toNat + 2 ^ 64 * q.space.toNat + 2 ^ 66 * q.tag.toNat + 2 ^ 128 * q.len0.toNat + 2 ^ 149 * q.len1.toNat
        + 2 ^ 170 * q.len2.toNat + 2 ^ 192 * q.stride0.toNat + 2 ^ 224 * q.stride1.toNat + 2 ^ 256 * q.stride2.toNat
        + 2 ^ 320 * q.i0.toNat + 2 ^ 341 * q.i1.toNat + 2 ^ 362 * q.i2.toNat)
      ∧ ∀ d, s1.die.physWrite s.me.id.owner pa bs = .ok d →
          ∃ u, exec (.sdst a sd) s = .next u ∧ u = noting u (retiredVec { s1 with die := d }))

/-- VFORK splits a context over the strand and free strands of its core, VJOIN brings it back. For a strand with k lane groups, G
= 1, VSTART = 0, outside a family, n ≤ k, with every other strand of its core free and no reservation there: VFORK2 and VFORK4
leave the strand and the n − 1 lowest other strands as children 0 to n − 1 at PC + 4 with the scalar registers of the parent,
child i with k / n groups, STRIP = i and the words 64·(k/n)·i on of every register, and an empty trap record for i ≥ 1. A child i
≥ 1 with no domain slot set ends in VJOIN: its strand is free, its registers and FCSR are held for child 0, which now owns its
lane groups, and no other strand changes. Child 0 waits in VJOIN while another child runs; with all ended VJOIN, or
VJOIN_REASSEMBLE for a waiting child 0, gives child 0 the groups of the parent, ORs the flags of the ended children into FCSR,
clears VL, STRIP, STRIPN and VSTART and retires. (R123; R124; R218; R254) -/
def Obligations.ForkedContexts : Prop :=
  (∀ (s : State) (i : Instr) (n : Nat), (i = .vfork2 ∧ n = 2) ∨ (i = .vfork4 ∧ n = 4) → s.me.ctx.gm ≠ 0 → s.me.ctx.fork.n = 0 →
      n ≤ s.me.ctx.k → s.me.ctx.g = 1 → s.me.ctx.vstart = 0 → s.me.id.kind ≠ .free →
      (∀ j, j / 8 = s.meId / 8 → j ≠ s.meId → s.strand j = Strand.empty) → (s.coreS (s.meId / 8)).reservations = [] →
      let kids := ((List.range 8).map (8 * (s.meId / 8) + ·)).filter (· ≠ s.meId)
      let child (c : Nat) : Nat := if c = 0 then s.meId else kids.getD (c - 1) 0
      ∃ t, exec i s = .next t ∧ t.meId = s.meId ∧ (∀ j, (∀ c < n, j ≠ child c) → t.strand j = s.strand j) ∧ ∀ c < n,
        let x := t.strand (child c)
        x.pc = s.me.pc + 4 ∧ x.regs = s.me.regs ∧ x.priv = s.me.priv ∧ x.fcsr = s.me.fcsr ∧ x.xasid = s.me.xasid
        ∧ x.ctx.fork = ⟨n, c, s.meId, s.me.ctx.gm⟩ ∧ x.ctx.strip = c ∧ x.ctx.k = s.me.ctx.k / n
        ∧ x.ctx.vl = min (64 * (s.me.ctx.k / n)) (s.me.ctx.vl + s.me.ctx.stripn - 64 * (s.me.ctx.k / n) * c)
        ∧ (∀ r w : Nat, w < 64 * (s.me.ctx.k / n) →
            sget 0 x.ctx.v (256 * r + w) = sget 0 s.me.ctx.v (256 * r + 64 * (s.me.ctx.k / n) * c + w))
        ∧ (0 < c → x.id.kind = .child ∧ x.trap.tcause = 0 ∧ x.trap.hold = false ∧ x.trap.stvec = s.me.trap.stvec ∧ x.dom = [])
        ∧ (c = 0 → x.id = s.me.id ∧ x.trap = s.me.trap ∧ x.dom = s.me.dom))
  ∧ (∀ s : State, s.me.ctx.gm ≠ 0 → s.me.ctx.fork.n ≠ 0 → s.me.ctx.fork.index ≠ 0 → s.me.dom = [] →
      let root := s.me.ctx.fork.root
      let owner (u : State) (g : Nat) : Option Nat := ((u.coreS (s.meId / 8)).lat.getD g ⟨none, none⟩).own
      root ≠ s.meId → ∃ t, exec .vjoin s = .next t ∧ t.meId = s.meId ∧ t.me = Strand.empty
        ∧ t.strand root = { s.strand root with joined := (s.strand root).joined ++ [⟨s.me.ctx.fork.index, s.me.ctx, s.me.fcsr⟩] }
        ∧ (∀ j, j ≠ s.meId → j ≠ root → t.strand j = s.strand j) ∧ t.die.mem = s.die.mem
        ∧ ∀ g < 4, owner t g = if owner s g = some s.meId then some root else owner s g)
  ∧ (∀ s : State, s.me.ctx.gm ≠ 0 → s.me.ctx.fork.n ≠ 0 → s.me.ctx.fork.index = 0 →
      let kin (e : Nat × Strand) : Prop := e.1 ≠ s.meId ∧ e.2.id.kind = .child ∧ e.2.ctx.fork.root = s.meId
      ((∃ e ∈ s.others, kin e) → ∃ t, exec .vjoin s = .next t ∧ waits s t .join ∧ t.die = s.die ∧ t.others = s.others)
      ∧ ((∀ e ∈ s.others, ¬kin e) → ∃ t, exec .vjoin s = .next t
          ∧ (s.me.run.wait = .join → exec (.vjoinReassemble s.meId) s = .next t)
          ∧ t.meId = s.meId ∧ t.others = s.others ∧ t.die = s.die ∧ t.me.pc = s.me.pc + 4 ∧ t.me.run.wait = .ready
          ∧ t.me.regs = s.me.regs ∧ t.me.trap = s.me.trap ∧ t.me.joined = []
          ∧ t.me.ctx.gm = s.me.ctx.fork.gm ∧ t.me.ctx.fork = Fork.none
          ∧ t.me.ctx.vl = 0 ∧ t.me.ctx.strip = 0 ∧ t.me.ctx.stripn = 0 ∧ t.me.ctx.vstart = 0
          ∧ (s.me.joined = [] → t.me.fcsr = s.me.fcsr)
          ∧ (∀ x ∈ s.me.joined, x.fcsr &&& 0x1F &&& ~~~t.me.fcsr = 0)))

/-- Outer products, tile moves and tile zeroing. With a lease, the B operand from a quarter or from the strand's own ring latch:
MOPA and MOPS of f32, of bf16 or f16, and of e4m3 or e5m2 operands add to, or subtract from, every cell of the active rows of a
tile the exact dot product of depth 1, 2 or 4, rounded once; CMOPA does so with the real and imaginary parts of cbf16 into two
tiles; MOPASP with the elements that the metadata of v24 + m select; no other cell changes. MZERO0 to MZERO3 zero a tile. MLD and
MST, in the CLM, load and store the active rows at the sweep's offsets and advance the position. MRDV reads a row into vd by R111
and MWRV writes one. (R231; R232; R234; R235; R237; R238; R239; R240; R241; R242) -/
def Obligations.MatrixUnit : Prop :=
  (∀ (s : State) (z : Fin 4) (a b : Fin 32) (p q : Fin 4) (rl rz neg : Bool) (n : Nat) (fa fb : Fmt), s.me.ctx.gm ≠ 0 → bReady s q rl →
      floatTag (tagAt s.me.ctx a) = some fa → floatTag (bTag s b rl) = some fb →
      (tagAt s.me.ctx a).ebits = n → (bTag s b rl).ebits = n →
      ∃ t fl, exec (if neg then .mops z a b p q rl rz else .mopa z a b p q rl rz) s = .next t
        ∧ tileWrote s t fl fun w r j =>
            if w = z.val ∧ rowActive s p r then
              (roundV s rz .f32 (dotFV [FV.ofBits .f32 (cellAt s.me.ctx z r j)] ((List.range (32 / n)).map fun k =>
                let x := partOf fa n (wordAt s.me.ctx a (16 * s.me.ctx.k * p + r)) k
                (if neg then x.neg else x, partOf fb n (bWord s b q rl j) k)))).1
            else cellAt s.me.ctx w r j)
  ∧ (∀ (s : State) (z : Fin 4) (a b : Fin 32) (p q : Fin 4) (rl rz : Bool), s.me.ctx.gm ≠ 0 → bReady s q rl → z.val % 2 = 0 →
      tagAt s.me.ctx a = .cbf16 → bTag s b rl = .cbf16 →
      let x (r k : Nat) : FV := partOf .bf16 16 (wordAt s.me.ctx a (16 * s.me.ctx.k * p + r)) k
      let y (j k : Nat) : FV := partOf .bf16 16 (bWord s b q rl j) k
      ∃ t fl, exec (.cmopa z a b p q rl rz) s = .next t
        ∧ tileWrote s t fl fun w r j =>
            if rowActive s p r ∧ (w = z.val ∨ w = z.val + 1) then
              (roundV s rz .f32 (dotFV [FV.ofBits .f32 (cellAt s.me.ctx w r j)]
                (if w = z.val then [(x r 0, y j 0), ((x r 1).neg, y j 1)] else [(x r 0, y j 1), (x r 1, y j 0)]))).1
            else cellAt s.me.ctx w r j)
  ∧ (∀ (s : State) (z : Fin 4) (a b : Fin 32) (p q : Fin 4) (rl rz n : Bool) (m : Fin 8) (fa fb : Fmt), s.me.ctx.gm ≠ 0 → bReady s q rl →
      p.val % (if n then 2 else 4) = 0 → floatTag (tagAt s.me.ctx a) = some fa → floatTag (bTag s b rl) = some fb →
      (tagAt s.me.ctx a).ebits = 8 → (bTag s b rl).ebits = 8 →
      ∃ t fl, exec (.mopasp z a b p q rl rz n m) s = .next t
        ∧ tileWrote s t fl fun w r j =>
            if w = z.val ∧ rowActive s p r then
              (roundV s rz .f32 (dotFV [FV.ofBits .f32 (cellAt s.me.ctx z r j)] ((List.range 4).map fun k =>
                let e := (if n then 0 else 8 * (k / 2)) + wordAt s.me.ctx (24 + m) j / 2 ^ (3 * k) % 8
                (partOf fb 8 (bWord s b q rl j) k, partOf fa 8 (wordAt s.me.ctx a (16 * s.me.ctx.k * (p + e / 4) + r)) (e % 4))))).1
            else cellAt s.me.ctx w r j)
  ∧ (∀ (s : State) (i : Instr) (z : Nat), (i, z) ∈ [(Instr.mzero0, 0), (.mzero1, 1), (.mzero2, 2), (.mzero3, 3)] → s.me.ctx.gm ≠ 0 →
      ∃ t, exec i s = .next t ∧ (tileWrote s t 0 fun w r j => if w = z then 0 else cellAt s.me.ctx w r j) ∧ t.me.ctx.dirty.getLsbD z = false)
  ∧ (∀ (s : State) (z : Fin 4) (sd : Fin 16), s.meId < 2048 → s.me.ctx.gm ≠ 0 → s.me.run.linkData = [] → (sdOf s sd).space = 1 →
      (sdOf s sd).tag = 7 ∨ (sdOf s sd).tag = 0 → 0 < s.me.ctx.vl →
      (∀ r, rowActive s 0 r → ∀ j < 64, clmWord s (sweepOffset (sdOf s sd) (64 * r + j))) →
      let moved := sset Desc.zero s.me.ctx.sd sd (sweptBy (sdOf s sd) (64 * (16 * s.me.ctx.k)))
      (∃ t, exec (.mld z sd) s = .next t
        ∧ t = retiredVec (withCtx s { s.me.ctx with tiles := t.me.ctx.tiles, dirty := t.me.ctx.dirty, sd := moved })
        ∧ ∀ w < 4, ∀ r < 64, ∀ j < 64, cellAt t.me.ctx w r j =
            if w = z.val ∧ rowActive s 0 r then clmValue s (sweepOffset (sdOf s sd) (64 * r + j)) else cellAt s.me.ctx w r j)
      ∧ ((∀ r r' j j' : Nat, rowActive s 0 r → rowActive s 0 r' → j < 64 → j' < 64 → (r, j) ≠ (r', j') →
            sweepOffset (sdOf s sd) (64 * r + j) ≠ sweepOffset (sdOf s sd) (64 * r' + j')) →
          ∃ t, exec (.mst z sd) s = .next t
            ∧ t = noting t { retiredVec (withCtx s { s.me.ctx with sd := moved }) with die := { s.die with mem := t.die.mem } }
            ∧ (∀ r, rowActive s 0 r → ∀ j < 64, ∀ i < 4, seen t.die s.me.id.owner (clmAddr s (sweepOffset (sdOf s sd) (64 * r + j)) + i)
                = BitVec.ofNat 8 (cellAt s.me.ctx z r j / 256 ^ i))
            ∧ ∀ o x : Nat, (∀ r, rowActive s 0 r → ∀ j < 64, x < clmAddr s (sweepOffset (sdOf s sd) (64 * r + j))
                ∨ clmAddr s (sweepOffset (sdOf s sd) (64 * r + j)) + 4 ≤ x) → seen t.die o x = seen s.die o x))
  ∧ (∀ (s : State) (z : Fin 4) (d b : Fin 32), s.me.ctx.gm ≠ 0 →
      ∃ t, exec (.mrdv z d b) s = .next t ∧ t = retiredVec (withCtx s { s.me.ctx with v := t.me.ctx.v, tags := t.me.ctx.tags })
        ∧ (∀ j < 64 * s.me.ctx.k, wordAt t.me.ctx d j = elementAfter { s.me.ctx with vl := min s.me.ctx.vl 64 }
            ⟨d, 1, .raw, .f32, false, 1, false⟩ (fun j =>
              (if (s.reg b).toNat < 16 * s.me.ctx.k then cellAt s.me.ctx z (s.reg b).toNat j else 0, 0)) j)
        ∧ tagAt t.me.ctx d = .f32)
  ∧ (∀ (s : State) (z : Fin 4) (a b : Fin 32), s.me.ctx.gm ≠ 0 → tagAt s.me.ctx a = .f32 ∨ tagAt s.me.ctx a = .raw →
      ∃ t, exec (.mwrv z a b) s = .next t ∧ tileWrote s t 0 fun w r j =>
        if w = z.val ∧ r = (s.reg b).toNat ∧ r < 16 * s.me.ctx.k ∧ elemActive s j then wordAt s.me.ctx a j else cellAt s.me.ctx w r j)

/-- The ring latch: RLLD claims and loads it, RLRD reads it, RLPASS passes it on, another strand is denied. With a lease and a
quarter that begins at a multiple of 64 words: RLLD, where no other strand owns the core's latch, loads CUR and its tag and makes
the strand the owner; RLRD of the owner writes CUR to the quarter and the tag to the register. Where another strand owns the latch
both, and RLPASS, trap with code 0x01. RLPASS of the owner whose successor's latch is owned and empty sends CUR there; with its
own INC full it takes INC as CUR and retires, else it waits; RLPASS_SEND and RLPASS_TAKE make the send and the take of a waiting
RLPASS. (R243; R244; R245; R246) -/
def Obligations.RingLatches : Prop :=
  (∀ (s : State) (a : Fin 32) (p : Fin 4), s.me.ctx.gm ≠ 0 → p.val * s.me.ctx.k % 4 = 0 →
      let l := (s.coreS (s.meId / 8)).latch
      (l.owner = none ∨ l.owner = some s.meId → ∃ t, exec (.rlld a p) s = .next t ∧ t.me = (retiredVec s).me ∧ t.others = s.others
          ∧ t.die = { s.die with cores := t.die.cores } ∧ (t.coreS (s.meId / 8)).latch.owner = some s.meId
          ∧ (t.coreS (s.meId / 8)).latch.tag = tagAt s.me.ctx a ∧ (t.coreS (s.meId / 8)).latch.full = l.full
          ∧ (t.coreS (s.meId / 8)).latch.inc = l.inc
          ∧ ∀ j < 64, (sget 0 (t.coreS (s.meId / 8)).latch.cur j).toNat = wordAt s.me.ctx a (16 * s.me.ctx.k * p + j))
      ∧ (l.owner = some s.meId → ∃ t, exec (.rlrd a p) s = .next t
          ∧ t = retiredVec (withCtx s { s.me.ctx with v := t.me.ctx.v, tags := t.me.ctx.tags }) ∧ tagAt t.me.ctx a = l.tag
          ∧ ∀ n < 64 * s.me.ctx.k, wordAt t.me.ctx a n =
              if 16 * s.me.ctx.k * p ≤ n ∧ n < 16 * s.me.ctx.k * p + 64 then (sget 0 l.cur (n - 16 * s.me.ctx.k * p)).toNat
              else wordAt s.me.ctx a n)
      ∧ (∀ o, o ≠ s.meId → l.owner = some o → ∀ i ∈ [Instr.rlld a p, .rlrd a p, .rlpass],
          ∃ t, exec i s = .next t ∧ trapped s t 0x01 (BitVec.ofNat 64 (encode i))))
  ∧ (∀ s : State, s.me.ctx.gm ≠ 0 → s.meId < 2048 →
      let core := s.meId / 8
      let next := core / 4 * 4 + (core + 1) % 4
      let l := (s.coreS core).latch
      l.owner = some s.meId → s.me.run.passSent = false → (s.coreS next).latch.owner ≠ none → (s.coreS next).latch.full = false →
      (l.full = true → ∃ t, exec .rlpass s = .next t ∧ t.me.pc = s.me.pc + 4 ∧ t.me.run.passSent = false ∧ t.me.regs = s.me.regs
          ∧ (t.coreS core).latch.cur = l.inc ∧ (t.coreS core).latch.full = false
          ∧ (t.coreS next).latch.inc = l.cur ∧ (t.coreS next).latch.full = true)
      ∧ (l.full = false → ∃ t, exec .rlpass s = .next t ∧ waits s t .ring ∧ t.me.run.passSent = true ∧ t.me.regs = s.me.regs
          ∧ (t.coreS next).latch.inc = l.cur ∧ (t.coreS next).latch.full = true ∧ (t.coreS core).latch = l))
  ∧ (∀ (s : State) (i : Nat), (s.strand i).run.wait = .ring →
      let core := i / 8
      let next := core / 4 * 4 + (core + 1) % 4
      let l := (s.coreS core).latch
      ((s.strand i).run.passSent = false → (s.coreS next).latch.owner ≠ none → (s.coreS next).latch.full = false →
        ∃ t, exec (.rlpassSend i) s = .next t ∧ onlyStrand s t i ∧ (t.strand i).run.passSent = true ∧ (t.strand i).pc = (s.strand i).pc
          ∧ (t.coreS next).latch.inc = l.cur ∧ (t.coreS next).latch.full = true)
      ∧ ((s.strand i).run.passSent = true → l.full = true →
        ∃ t, exec (.rlpassTake i) s = .next t ∧ onlyStrand s t i ∧ (t.strand i).run.passSent = false
          ∧ (t.strand i).pc = (s.strand i).pc + 4 ∧ (t.strand i).run.wait = .ready
          ∧ (t.coreS core).latch.cur = l.inc ∧ (t.coreS core).latch.full = false))

/-- What fences wait for, what an invalidation drops and marks, and what TLBSYNC waits for. A FENCE above scope .s whose kind
orders earlier stores, XPFENCE, and PTFENCE at die and system scope wait while a posted store of the strand has not performed;
else each retires, as PTFENCE at the narrower scopes does. A FENCE at scope .y then puts the requests of the strand to the host
that its kind names before the later ones that its kind names; XPFENCE ends the note of the words stored before it (log 80);
nothing else changes. PTFENCE, TLBINV and TLBSYNC trap at user privilege with code 0x02. TLBINV leaves in no descriptor, no queued
instruction before its probe, and no core or cluster TLB a copy of the owner and ASID whose page meets the range (every page with
.all), leaves no table-cache entry of that ASID and, with .all, no context-cache entry, marks the walks of that ASID in flight,
notes the invalidation as outstanding with its step, and changes nothing else. TLBSYNC waits while, within its scope, something is
outstanding for an invalidation of the strand: a marked walk (at die and system scope), a vector instruction that had made its
probe, a request to a window not yet sent (at system scope: not yet completed), or a posted write, through a dropped copy; else it
retires and forgets the invalidations for which nothing at all is outstanding. TLBINV_DROP leaves no copy that an outstanding
invalidation of its strand names. The four RETIRE events end a wait in a fence. (R103; R104; R105; R106; R330; R333; R345; R346;
R347) -/
def Obligations.FencesAndInvalidation : Prop :=
  (∀ (s : State) (a k : Fin 8), let held := a ≠ 0 ∧ k ≠ 1 ∧ k ≠ 3 ∧ ¬storesDone s
      (held → ∃ t, exec (.fence a k) s = .next t ∧ waits s t .fence ∧ onlyStrand s t s.meId ∧ t.die = s.die)
      ∧ (¬held → a ≠ 4 → exec (.fence a k) s = .next (retired s))
      ∧ (¬held → a = 4 → exec (.fence a k) s = .next (retired { s with me := { s.me with run := { s.me.run with
          hostLog := s.me.run.hostLog.map fun e => if (e.load = true ∧ k ≠ 2) ∨ (e.store = true ∧ k ≠ 1 ∧ k ≠ 3) then
            { e with loads := e.loads || decide (k ≠ 2 ∧ k ≠ 4), stores := e.stores || decide (k ≠ 1) } else e } } })))
  ∧ (∀ s : State, (storesDone s → exec .xpfence s = .next (retired { s with me := { s.me with run := { s.me.run with unfenced := [] } } }))
      ∧ (¬storesDone s → ∃ t, exec .xpfence s = .next t ∧ waits s t .fence ∧ onlyStrand s t s.meId ∧ t.die = s.die))
  ∧ (∀ (s : State) (i : Instr), s.me.priv ≠ .user →
      (i ∈ [.ptfenceStrand, .ptfenceCore, .ptfenceCluster] ∨ (i ∈ [.ptfenceDie, .ptfenceSystem] ∧ storesDone s) → exec i s = .next (retired s))
      ∧ (i ∈ [.ptfenceDie, .ptfenceSystem] → ¬storesDone s → ∃ t, exec i s = .next t ∧ waits s t .fence ∧ onlyStrand s t s.meId ∧ t.die = s.die))
  ∧ (∀ (s : State) (i : Instr), (∃ c a b l, i = .tlbinv c a b l) ∨ i ∈ [.ptfenceStrand, .ptfenceCore, .ptfenceCluster, .ptfenceDie,
      .ptfenceSystem, .tlbsyncStrand, .tlbsyncCore, .tlbsyncCluster, .tlbsyncDie, .tlbsyncSystem] → s.me.priv = .user →
      ∃ t, exec i s = .next t ∧ trapped s t 0x02 (BitVec.ofNat 64 (encode i)))
  ∧ (∀ (s : State) (c a b : Fin 32) (l : Bool), s.me.priv ≠ .user →
      let owner := if s.me.priv = .firmware then s.me.fxsel.toNat else s.me.id.owner
      let i : Inval := ⟨owner, (s.reg a).toNat % 65536, (s.reg b).toNat / 4096 * 4096, (s.reg c).toNat, l, s.die.clock⟩
      let x := s.die.xlat
      let mine (o a : Nat) : Prop := o = i.owner ∧ a = i.asid
      ∃ t, exec (.tlbinv c a b l) s = .next t ∧ t.meId = s.meId ∧ t.agenda = s.agenda
        ∧ t.die = { s.die with xlat := t.die.xlat, walks := s.die.walks.map fun e => (e.1, e.2.map fun w =>
            if w.owner = i.owner ∧ w.asid = i.asid then { w with marks := w.marks ++ [i] } else w) }
        ∧ t.me = { pagesDropped (namedBy i) s.me with
            pc := s.me.pc + 4, run := { s.me.run with wait := .ready, retired := s.die.clock, invals := s.me.run.invals ++ [i] } }
        ∧ (∀ j, j ≠ s.meId → t.strand j = pagesDropped (namedBy i) (s.strand j))
        ∧ (∀ n, ∀ x ∈ sget [] t.die.xlat.coreTlb n, ¬namedBy i x) ∧ (∀ n, ∀ x ∈ sget [] t.die.xlat.clusterTlb n, ¬namedBy i x)
        ∧ (swf [] x.coreTlb = true → ∀ n y, y ∈ sget [] t.die.xlat.coreTlb n ↔ y ∈ sget [] x.coreTlb n ∧ ¬namedBy i y)
        ∧ (swf [] x.clusterTlb = true → ∀ n y, y ∈ sget [] t.die.xlat.clusterTlb n ↔ y ∈ sget [] x.clusterTlb n ∧ ¬namedBy i y)
        ∧ (swf [] x.tables = true → ∀ n y, y ∈ sget [] t.die.xlat.tables n ↔ y ∈ sget [] x.tables n ∧ ¬mine y.owner y.asid)
        ∧ (swf [] x.roots = true → ∀ n y, y ∈ sget [] t.die.xlat.roots n ↔ y ∈ sget [] x.roots n ∧ ¬(mine y.owner y.asid ∧ l = true)))
  ∧ (∀ (s : State) (i : Instr) (n : Nat), (i, n) ∈ [(Instr.tlbsyncStrand, 0), (.tlbsyncCore, 1), (.tlbsyncCluster, 2), (.tlbsyncDie, 3), (.tlbsyncSystem, 4)] →
      s.me.priv ≠ .user →
      ((∀ v ∈ s.me.run.invals, ¬outstanding s n v) → ∃ t, exec i s = .next t
          ∧ t = retired { s with me := { s.me with run := { s.me.run with invals := t.me.run.invals } } }
          ∧ ∀ v, v ∈ t.me.run.invals ↔ v ∈ s.me.run.invals ∧ outstanding s 4 v)
      ∧ ((∃ v ∈ s.me.run.invals, outstanding s n v) → ∃ t, exec i s = .next t ∧ waits s t .fence ∧ onlyStrand s t s.meId ∧ t.die = s.die))
  ∧ (∀ (s : State) (i : Nat), ∃ t, exec (.tlbinvDrop i) s = .next t ∧ t.die = { s.die with xlat := t.die.xlat, walks := t.die.walks } ∧ t.agenda = s.agenda
      ∧ (∀ j, (t.strand j).run = (s.strand j).run ∧ (t.strand j).regs = (s.strand j).regs ∧ (t.strand j).pc = (s.strand j).pc)
      ∧ (∀ v ∈ (s.strand i).run.invals, ∀ n, (∀ x ∈ sget [] t.die.xlat.coreTlb n, ¬namedBy v x) ∧ ∀ x ∈ sget [] t.die.xlat.clusterTlb n, ¬namedBy v x)
      ∧ (∀ v ∈ (s.strand i).run.invals, ∀ j, ∀ e ∈ (t.strand j).ctx.sd, ∀ x ∈ e.2.xlat, ¬namedBy v x))
  ∧ (∀ (s : State) (i : Nat), ∀ v ∈ [.fenceRetire i, .xpfenceRetire i, .ptfenceRetire i, .tlbsyncRetire i],
      ∃ t, exec v s = .next t ∧ onlyStrand s t i ∧ t.die = s.die
        ∧ t.strand i = if (s.strand i).run.wait = .fence then { s.strand i with run := { (s.strand i).run with wait := .ready } } else s.strand i)

/-- A page walk reads one table a step, and the events around translation. PAGE_WALK of one VA, with nothing cached for its
context and no walk of the strand in progress, reads the directory entry of the ASID: a valid one leads to the table of level 4,
any other ends the walk. WALKER_READ_RETURN of a lone walk that no invalidation has marked reads the entry that the VA selects at
its level: an entry that names a table leads to the next level, one without V ends the walk. In both the strands are unchanged.
MG_WAIT_POLL and MG_WAIT_TIMEOUT (after 100 µs) let a strand that waits on a migrating page issue in the next step. XDIR_WRITE
keeps DIR while EN is 1 and ignores a write that would change it; clearing EN leaves no copy of the owner in a TLB or a table
cache and no walk of it. XHLOG_DISABLE clears EN and leaves no entry of the owner in the hotness cache, and those of others as
they were. LOAD_DATA_RETURN, where the strand stands ready at that LD with nothing in its vector queue, is that LD, and where its
VA translates to a memory that is read writes the bytes, extended, to rd and retires; with an uncorrectable error it traps with
code 0x70. A strand that is not ready has no load outstanding and nothing changes. (R337; R339; R342; R344; R352; R354; R355;
R356; R88) -/
def Obligations.TranslationEvents : Prop :=
  (∀ (s : State) (i va : Nat) (bs : List Byte) (d : Die), va < 0x003FFF0000000000 → sget [] s.die.xlat.tables (i / 8 / 4) = [] →
      sget [] s.die.xlat.roots (i / 8 / 4) = [] → sget [] s.die.walks i = [] → s.die.reg (xdirAddr (s.strand i).id.owner) % 2 = 1 →
      s.die.physRead (s.strand i).id.owner
        (bits (s.die.reg (xdirAddr (s.strand i).id.owner)) 47 19 * 2 ^ 19 + 8 * (s.strand i).xasid.toNat) 8 = .ok (bs, d) →
      ∃ t, exec (.pageWalk i [va]) s = .next t ∧ sameStrands s t ∧ t.die.mem = d.mem ∧ t.die.mmio = d.mmio
        ∧ sget [] t.die.walks i = if dirEntry (leVal bs) then [⟨(s.strand i).id.owner, (s.strand i).xasid.toNat, va, 4,
            leVal bs / 2 ^ 12 % 2 ^ 36 * 4096, []⟩] else [])
  ∧ (∀ (s : State) (i : Nat) (w : Walk) (bs : List Byte) (d : Die), sget [] s.die.walks i = [w] → 1 ≤ w.level → w.level ≤ 4 → w.marks = [] →
      s.die.physRead w.owner (w.table + 8 * (if w.level = 4 then w.va / 2 ^ 48 % 64 else w.va / 2 ^ (9 * w.level + 12) % 512)) 8 = .ok (bs, d) →
      ∃ t, exec (.walkerReadReturn i) s = .next t ∧ sameStrands s t ∧ t.die.mem = d.mem ∧ t.die.mmio = d.mmio
        ∧ (tableEntry (leVal bs) → sget [] t.die.walks i = [{ w with level := w.level - 1, table := leVal bs / 2 ^ 12 % 2 ^ 36 * 4096 }])
        ∧ (leVal bs % 2 = 0 → sget [] t.die.walks i = [] ∧ t.die.xlat = d.xlat))
  ∧ (∀ (s : State) (i : Nat), (s.strand i).run.wait = .migrating → exec (.mgWaitPoll i) s = .next (withDue s (.issue i))
      ∧ ((s.strand i).run.since + 100000 ≤ s.die.dtime → exec (.mgWaitTimeout i) s = .next (withDue s (.issue i))))
  ∧ (∀ (s : State) (o v : Nat), o < 512 → v < 2 ^ 48 → v % 2 ^ 19 < 2 →
      let old := s.die.reg (xdirAddr o)
      let taken := old % 2 = 0 ∨ v / 2 ^ 19 = old / 2 ^ 19 % 2 ^ 29
      ∃ t, exec (.xdirWrite o v) s = .next t ∧ t.meId = s.meId ∧ (∀ j, (t.strand j).pc = (s.strand j).pc ∧ (t.strand j).regs = (s.strand j).regs)
        ∧ t.die.mem = s.die.mem ∧ regsKept s.die t.die [xdirAddr o]
        ∧ t.die.reg (xdirAddr o) = (if taken then v else old)
        ∧ (old % 2 = 1 → v % 2 = 0 → taken → (∀ n, ∀ x ∈ sget [] t.die.xlat.coreTlb n, x.owner ≠ o)
            ∧ (∀ n, ∀ x ∈ sget [] t.die.xlat.clusterTlb n, x.owner ≠ o) ∧ (∀ n, ∀ x ∈ sget [] t.die.xlat.tables n, x.owner ≠ o)
            ∧ (∀ n, ∀ x ∈ sget [] t.die.xlat.roots n, x.owner ≠ o) ∧ ∀ n, ∀ w ∈ sget [] t.die.walks n, w.owner ≠ o))
  ∧ (∀ (s : State) (o : Nat), o < 512 → ∃ t, exec (.xhlogDisable o) s = .next t ∧ sameStrands s t
      ∧ t.die.reg (xhlogAddr o) % 2 = 0 ∧ (s.die.reg (xhlogAddr o) % 2 = 1 → ∀ h ∈ t.die.hot, h.owner ≠ o)
      ∧ (∀ h, h.owner ≠ o → (h ∈ t.die.hot ↔ h ∈ s.die.hot)))
  ∧ (∀ (s f : State) (w : Nat) (d a : Fin 32) (c : Fin 8) (im : Fin 8192), s.me.id.kind ≠ .free → s.me.run.wait = .ready →
      s.fetch = .word w f → f.me.ctx.queue = [] → f.me.ctx.rep.running = false → decodeWord w = .ok (.ld d a c im) →
      let g : State := { f with me := { f.me with run := { f.me.run with entering := false, lastIssue := s.die.clock } } }
      let va := eaOf f a im
      let n := sizeBytes c
      (∃ t, exec (.loadDataReturn s.meId d.val n va false) s = .next t ∧ exec (.ld d a c im) g = .next t)
      ∧ (∀ pa mt s' bs d', translatesTo g va n .read pa mt s' → isMemory s'.die pa → s'.die.physRead g.me.id.owner pa n = .ok (bs, d') →
          exec (.loadDataReturn s.meId d.val n va false) s = .next (wrote { s' with die := d' } d (loaded c bs)))
      ∧ ∃ t, exec (.loadDataReturn s.meId d.val n va true) s = .next t ∧ trapped s t 0x70 (BitVec.ofNat 64 va))
  ∧ (∀ (s : State) (r size va : Nat) (e : Bool), s.me.run.wait ≠ .ready → exec (.loadDataReturn s.meId r size va e) s = .next s)

/-- Sending, accepting and delivering messages. SEND checks its destination word and its target (codes 0x10, 0x10, 0x03), then the
access table of the landing queue (0x12). With a handler slot free it appends its message, with the header of R248 and the six
registers, to the queue and retires; with the sixteen slots taken it waits. SENDC checks its ID (0x10) and appends to the six
slots of the strand that runs the context named; for a context that runs nowhere the message is dropped and counted. With TWIN the
message leaves on the twin link and the strand waits for its completion, or faults with 0x10 where the link is down. CONTID writes
the home identity. PARK, the vector queue empty, takes the oldest continuation of its strand: the six registers from REG, one slot
freed, PC + 4; with none it waits. MESSAGE_ARRIVAL and MESSAGE_REOFFER accept the oldest offered message that finds a slot; with
nothing offered a strand that waits in SEND offers again at its next issue. CONTINUATION_DELIVERY ends the PARK of a parked
strand. (R248; R251; R252; R253; R254; R255; R257; R258; R263; R447; R448) -/
def Obligations.MessagesAndParking : Prop :=
  (∀ (s : State) (n a b : Fin 32), let x := (s.reg a).toNat
      let y := (s.reg b).toNat
      let lmin := x / 2 ^ 10 % 4
      let lpref := x / 2 ^ 12 % 4
      let bad := 2 ^ 14 ≤ x ∨ x / 2 ^ 9 % 2 = 1 ∨ lmin = 2 ∨ lpref = 2 ∨ lpref < lmin
      let m := msgOf s false (decide (x / 2 ^ 8 % 2 = 1)) lmin lpref y n
      let c := coreOf s (x % 256)
      (bad → ∃ t, exec (.send n a b) s = .next t ∧ trapped s t 0x10 (s.reg a))
      ∧ (¬bad → 2 ^ 54 ≤ y → ∃ t, exec (.send n a b) s = .next t ∧ trapped s t 0x10 (s.reg b))
      ∧ (¬bad → y < 2 ^ 54 → y % 4 ≠ 0 → ∃ t, exec (.send n a b) s = .next t ∧ trapped s t 0x03 (s.reg b))
      ∧ (¬bad → y < 2 ^ 54 → y % 4 = 0 → x / 2 ^ 8 % 2 = 0 →
          (s.die.admits (0x300 + x % 256) s.me.id.owner true = false → ∃ t, exec (.send n a b) s = .next t ∧ trapped s t 0x12 (s.reg a))
          ∧ (s.die.admits (0x300 + x % 256) s.me.id.owner true = true →
              (handlersHeld c < 16 → exec (.send n a b) s = .next (retired (onCore s (x % 256) { c with handlers := c.handlers ++ [m] })))
              ∧ (16 ≤ handlersHeld c → ∃ t, exec (.send n a b) s = .next t ∧ waits s t .send ∧ onlyStrand s t s.meId ∧ t.die = s.die)))
      ∧ (¬bad → y < 2 ^ 54 → y % 4 = 0 → x / 2 ^ 8 % 2 = 1 → s.die.reg 0x20000C010000 / 2 % 2 = 1 →
          ∃ t, exec (.send n a b) s = .next t ∧ waits s t .host ∧ onlyStrand s t s.meId
            ∧ t.die = { s.die with sent := ⟨true, s.me.id.owner, .message, x % 256, 64, m.pack, 0, 0, false⟩ :: s.die.sent })
      ∧ (¬bad → y < 2 ^ 54 → y % 4 = 0 → x / 2 ^ 8 % 2 = 1 → s.die.reg 0x20000C010000 / 2 % 2 = 0 →
          ∃ t, exec (.send n a b) s = .next t ∧ trapped s t 0x10 (s.reg a)))
  ∧ (∀ (s : State) (n a : Fin 32), let x := (s.reg a).toNat
      let reg := x / 2 ^ 16 % 32
      let i := 8 * (x / 2 ^ 24 % 256) + x / 2 ^ 21 % 8
      let m := msgOf s true false 0 0 (x % 2 ^ 32) n
      let c := coreOf s (i / 8)
      let runs := (s.strand i).id.kind ≠ .free ∧ (s.strand i).id.home = i ∧ (s.strand i).id.gen = x % 2 ^ 16 ∧ (s.strand i).id.owner = s.me.id.owner
      (2 ^ 33 ≤ x ∨ reg = 0 ∨ 26 < reg → ∃ t, exec (.sendc n a) s = .next t ∧ trapped s t 0x10 (s.reg a))
      ∧ (x < 2 ^ 32 → 1 ≤ reg → reg ≤ 26 → s.die.admits (0x300 + i / 8) s.me.id.owner true = true →
          (runs → (s.strand i).run.wait ≠ .restoring → (c.conts.countP fun e => e.1 == i) < 6 →
              exec (.sendc n a) s = .next (retired (onCore s (i / 8) { c with conts := c.conts ++ [(i, m)] })))
          ∧ (runs → 6 ≤ (c.conts.countP fun e => e.1 == i) → ∃ t, exec (.sendc n a) s = .next t ∧ waits s t .send ∧ t.die = s.die)
          ∧ (¬runs → c.absent = [] → exec (.sendc n a) s = .next (retired (onDie s (s.die.addReg (telemetry s.me.id.owner 0x50) 1))))))
  ∧ (∀ (s : State) (d n : Fin 32), exec (.contid d n) s = .next (wrote s d (BitVec.ofNat 64
      (s.me.id.home / 8 * 2 ^ 24 + s.me.id.home % 8 * 2 ^ 21 + n.val * 2 ^ 16 + s.me.id.gen))))
  ∧ (∀ s : State, s.me.run.ring = [] → ((coreOf s s.core).conts.all fun e => e.1 != s.meId) = true →
      ∃ t, exec .park s = .next t ∧ waits s t .park ∧ onlyStrand s t s.meId ∧ t.die = s.die)
  ∧ (∀ (s : State) (i : Nat) (m : Msg) (rest : List (Nat × Msg)) (e : Instr), (e = .park ∧ i = s.meId) ∨ (e = .continuationDelivery i ∧
      (s.strand i).run.wait = .park) → (s.strand i).run.ring = [] → (s.strand i).ctx.queue = [] → (coreOf s (i / 8)).conts = (i, m) :: rest →
      1 ≤ m.target / 2 ^ 16 % 32 → m.target / 2 ^ 16 % 32 ≤ 26 → m.payload.length = 6 →
      ∃ t, exec e s = .next t ∧ onlyStrand s t i
        ∧ t.die = (onCore s (i / 8) { coreOf s (i / 8) with conts := rest }).die
        ∧ (t.strand i).pc = (s.strand i).pc + 4 ∧ (t.strand i).run.wait = .ready ∧ (t.strand i).ctx = (s.strand i).ctx
        ∧ ∀ r : Fin 32, (t.strand i).reg r
            = if m.target / 2 ^ 16 % 32 ≤ r.val ∧ r.val < m.target / 2 ^ 16 % 32 + 6 then m.payload.getD (r.val - m.target / 2 ^ 16 % 32) 0
              else (s.strand i).reg r)
  ∧ (∀ (s : State) (core : Nat) (m : Msg) (rest : List Msg) (e : Instr), e ∈ [.messageArrival core, .messageReoffer core] → m.cont = false →
      (coreOf s core).offers = m :: rest → handlersHeld (coreOf s core) < 16 →
      exec e s = .next (onCore s core { coreOf s core with offers := rest, handlers := (coreOf s core).handlers ++ [m] }))
  ∧ (∀ (s : State) (core : Nat), (coreOf s core).offers = [] → exec (.messageArrival core) s = .next s
      ∧ (s.me.run.wait = .send → exec (.messageReoffer core) s = .next (withDue s (.issue s.meId))))

/-- A handler starts in the state of R17 on the lowest free strand, and a reservation times out. On a core whose lane groups are
all free, with no absent context, no reservation and no strand that waits in VFORK, HANDLER_START takes the oldest handler
message, of a job that is not being saved or away, and starts it on strand 0 of the core where that is free: PC the target, user
privilege, s3 the job, s4 to s9 the payload and every other register zero, ASID and owner from the header, the trap registers but
STVEC and SSCRATCH at reset, a vector context of LPREF + 1 lane groups with everything zero and every tag raw, a new generation,
and the groups from 0 up in its name; a dispatch makes its job RUNNING. RESERVATION_TIMEOUT, once the window has passed with a
shrink outstanding, withdraws the reservation and its shrinks: a handler message keeps its place in the queue; that of a dispatch
leaves it, and its job returns to READY. (R17; R210; R211; R250; R258; R261; R372) -/
def Obligations.HandlerStart : Prop :=
  (∀ (s : State) (core : Nat) (m : Msg) (rest : List Msg), let c := coreOf s core
      let i := 8 * core
      c.lat = List.replicate 4 ⟨none, none⟩ → c.reservations = [] → c.absent = [] → c.handlers = m :: rest → m.noJob = false →
      m.lmin ≤ m.lpref → m.lpref ∈ [0, 1, 3] → m.payload.length = 6 → m.orig ≠ 2 → (s.strand i).id.kind = .free →
      (∀ n < 8, (s.strand (8 * core + n)).run.wait ≠ .fork) → (∀ j, s.die.job m.job = some j → j.preempt = 0 ∧ (j.slots = [] ∨ j.state = .running)) →
      let k := m.lpref + 1
      let gen := (sget 0 c.gens 0 + 1) % 65536
      ∃ t, exec (.handlerStart core) s = .next t ∧ onlyStrand s t i
        ∧ (t.strand i).pc = BitVec.ofNat 64 m.target ∧ (t.strand i).priv = .user ∧ (t.strand i).fcsr = 0 ∧ (t.strand i).dom = [] ∧ (t.strand i).run.wait = .ready
        ∧ (t.strand i).trap = { Strand.empty.trap with stvec := (t.strand i).trap.stvec, sscratch := (t.strand i).trap.sscratch }
        ∧ (t.strand i).xasid = BitVec.ofNat 16 m.asid ∧ (t.strand i).ctx = { VCtx.absent with gm := BitVec.ofNat 4 (2 ^ k - 1) }
        ∧ (t.strand i).id = ⟨.aux, m.owner, BitVec.ofNat 32 m.job, gen, i, m.lmin + 1, k⟩
        ∧ (∀ r : Fin 32, (t.strand i).reg r = if r = 3 then BitVec.ofNat 64 m.job
            else if 4 ≤ r.val ∧ r.val < 10 then m.payload.getD (r.val - 4) 0 else 0)
        ∧ (coreOf t core).handlers = rest ∧ sget 0 (coreOf t core).gens 0 = gen
        ∧ (coreOf t core).lat = (List.range 4).map fun g => if g < k then ⟨some i, none⟩ else ⟨none, none⟩)
  ∧ (∀ (s : State) (core : Nat) (m : Msg) (rest : List Msg) (j : Job), let c := coreOf s core
      let i := 8 * core
      c.lat = List.replicate 4 ⟨none, none⟩ → c.reservations = [] → c.absent = [] → c.handlers = m :: rest → m.noJob = false →
      m.lmin ≤ m.lpref → m.lpref ∈ [0, 1, 3] → m.orig = 2 → (s.strand i).id.kind = .free → s.die.job m.job = some j →
      (∀ n < 8, (s.strand (8 * core + n)).run.wait ≠ .fork) →
      ∃ t, exec (.handlerStart core) s = .next t ∧ onlyStrand s t i ∧ (t.strand i).id.kind = .root ∧ (t.strand i).pc = BitVec.ofNat 64 m.target
        ∧ t.die.job m.job = some { j with
            state := .running, root := some i, placed := none, begun := true, runSince := s.die.dtime })
  ∧ (∀ (s : State) (core : Nat) (r : Reservation) (m : Msg), let c := coreOf s core
      c.reservations = [r] → r.msg = some m → r.since + 1000 * r.window ≤ s.die.dtime →
      (∃ g o, g < 4 ∧ r.groups.getLsbD g = true ∧ o ≠ r.strand ∧ c.lat[g]? = some ⟨some o, some r.strand⟩) →
      ∃ t, exec (.reservationTimeout core) s = .next t ∧ t.me = s.me ∧ t.others = s.others ∧ (coreOf t core).reservations = []
        ∧ (∀ g < 4, ∀ o, c.lat[g]? = some ⟨some o, some r.strand⟩ → o ≠ r.strand → (coreOf t core).lat[g]? = some ⟨some o, none⟩)
        ∧ (m.orig ≠ 2 → (coreOf t core).handlers = c.handlers ∧ t.die.jobs = s.die.jobs)
        ∧ (m.orig = 2 → ∀ j, s.die.job r.job = some j → j.state = .dispatching → (coreOf t core).handlers = c.handlers.erase m
            ∧ ∃ x, t.die.job r.job = some x ∧ x.state = .ready ∧ x.placed = none
              ∧ x.avoid = if bits j.desc 61 61 = 1 then j.avoid else some (core, s.die.dtime + 1000 * c.rgwin.toNat)))

/-- SPAWN, JWAIT, JSTAT, JDONE, JEXIT and YIELD. SPAWN in an auxiliary strand, a child or the column, JDONE there and in an exit
routine, JEXIT in a root or a child, and JWAIT in the column trap with code 0x01. With a posted write of its own outstanding on a
link SPAWN, JDONE and JEXIT wait; what follows is with none. SPAWN, once its descriptor is read, writes -5 in an exit routine, -6
where the VF has no partition, -2 for a malformed descriptor; a good one with no parent takes the free entry with the next
generation, count DEPS, and is READY if its release time has come and its count is 0 or EARLY is set, PENDING otherwise; rd is the
handle. JWAIT with count 0 writes the saturated tally and clears it, and waits otherwise. JSTAT writes state, status and status
word or count, in the column for every job, and 0 for a handle that names no job or one of another VF. JDONE ends the job DONE
with a[31:0], JEXIT in an exit routine with the abandonment status; both free the strand; JEXIT in an auxiliary strand frees it.
YIELD retires, and with a pre-emption pending its context is then saved. (R256; R359; R361; R362; R363; R364; R376; R377; R378;
R379) -/
def Obligations.JobInstructions : Prop :=
  (∀ (s : State) (i : Instr), ((∃ d a, i = .spawn d a) ∧ s.me.id.kind ∈ [.aux, .child, .column] ∨ (∃ a, i = .jdone a)
      ∧ s.me.id.kind ∈ [.aux, .child, .exiting, .column] ∨ i = .jexit ∧ s.me.id.kind ∈ [.root, .child, .column, .free] ∨ (∃ d, i = .jwait d)
      ∧ s.me.id.kind = .column) → ∃ t, exec i s = .next t ∧ trapped s t 0x01 (BitVec.ofNat 64 (encode i)))
  ∧ (∀ (s : State) (i : Instr), ((∃ d a, i = .spawn d a) ∧ s.me.id.kind ∈ [.root, .exiting] ∨ (∃ a, i = .jdone a) ∧ s.me.id.kind = .root
      ∨ i = .jexit ∧ s.me.id.kind ∈ [.exiting, .aux]) → ¬storesDone s → ∃ t, exec i s = .next t ∧ waits s t .fence ∧ onlyStrand s t s.meId ∧ t.die = s.die)
  ∧ (∀ (s u v : State) (d a : Fin 32) (pa mt : Nat) (bs : List Byte) (j : Job), s.me.id.kind ∈ [.root, .exiting] → storesDone s →
      s.resolveScalar (s.reg a).toNat 64 .read = .inl (.ok (pa, mt, u)) → u.loadLinked (s.reg a).toNat pa 64 = .ok bs v →
      v.die.job v.me.id.job.toNat = some j → v.me.id.kind = s.me.id.kind →
      let x := leVal bs
      let part := v.die.reg (0x200006110000 + 8 * j.vf) % 16
      let bad := x / 2 ^ 252 % 16 ≠ 0 ∨ x / 2 ^ 54 % 64 ≠ 0 ∨ x % 4 ≠ 0 ∨ x / 2 ^ 232 % 4 = 2 ∨ x / 2 ^ 234 % 4 = 2
      let deps := x / 2 ^ 236 % 256
      let ready := x / 2 ^ 128 % 2 ^ 64 ≤ v.die.dtime ∧ (deps = 0 ∨ x / 2 ^ 62 % 2 = 1)
      (s.me.id.kind = .exiting → exec (.spawn d a) s = .next (wrote v d (BitVec.ofInt 64 (-5))))
      ∧ (s.me.id.kind = .root → part = 0 → exec (.spawn d a) s = .next (wrote v d (BitVec.ofInt 64 (-6))))
      ∧ (s.me.id.kind = .root → part ≠ 0 → bad → exec (.spawn d a) s = .next (wrote v d (BitVec.ofInt 64 (-2))))
      ∧ (∀ n, s.me.id.kind = .root → v.die.enterFault j.vf x = none → x / 2 ^ 192 % 2 ^ 32 = 0 → v.die.dtime < x / 2 ^ 64 % 2 ^ 64 →
          v.die.freeEntry = some n → n < 65536 → (sget Job.unused v.die.jobs n).gen < 65535 →
          let h := ((sget Job.unused v.die.jobs n).gen + 1) * 65536 + n
          ∃ t y, exec (.spawn d a) s = .next t ∧ t.me.regs = regsAfter v.me d (BitVec.ofNat 64 h) ∧ t.me.pc = v.me.pc + 4
            ∧ t.die.mem = v.die.mem ∧ t.others = v.others ∧ t.die.job h = some y ∧ y.vf = j.vf ∧ y.owner = v.me.id.owner
            ∧ y.asid = v.me.xasid.toNat ∧ y.desc = x ∧ y.count = deps ∧ y.status = 0 ∧ (y.state = if ready then .ready else .pending)))
  ∧ (∀ (s : State) (d : Fin 32) (j : Job), s.me.id.kind ≠ .column → s.die.job s.me.id.job.toNat = some j →
      (j.count = 0 → exec (.jwait d) s = .next (wrote
        (onDie s { s.die with jobs := sset Job.unused s.die.jobs (s.me.id.job.toNat % 65536) { j with tally := 0 } }) d
        (BitVec.ofNat 64 (min (2 ^ 32 - 1) j.tally))))
      ∧ (j.count ≠ 0 → ∃ t, exec (.jwait d) s = .next t ∧ waits s t .jwait ∧ onlyStrand s t s.meId ∧ t.die = s.die))
  ∧ (∀ (s : State) (d a : Fin 32) (j : Job),
      (2 ^ 32 ≤ (s.reg a).toNat ∨ s.die.job (s.reg a).toNat = none → exec (.jstat d a) s = .next (wrote s d 0))
      ∧ ((s.reg a).toNat < 2 ^ 32 → s.die.job (s.reg a).toNat = some j →
          (∀ me, s.die.job s.me.id.job.toNat = some me → j.vf ≠ me.vf → s.me.id.kind ≠ .column → exec (.jstat d a) s = .next (wrote s d 0))
          ∧ (s.me.id.kind = .column ∨ (∃ me, s.die.job s.me.id.job.toNat = some me ∧ j.vf = me.vf) → exec (.jstat d a) s = .next (wrote s d (BitVec.ofNat 64 (stateCode j.state * 2 ^ 40 + j.status * 2 ^ 32
              + (if j.state ≠ .ended then j.count % 2 ^ 32 else if j.status = 1 then j.word else 0)))))))
  ∧ (∀ (s : State) (a : Fin 32) (j : Job), s.me.id.kind = .root → storesDone s → s.die.job s.me.id.job.toNat = some j →
      ∃ t x, exec (.jdone a) s = .next t ∧ (t.strand s.meId).id.kind = .free ∧ t.die.job s.me.id.job.toNat = some x ∧ x.state = .ended
        ∧ x.status = 1 ∧ x.word = (s.reg a).toNat % 2 ^ 32 ∧ x.root = none ∧ x.slots = [])
  ∧ (∀ (s : State) (j : Job), s.die.job s.me.id.job.toNat = some j → s.me.id.kind = .exiting → storesDone s →
      ∃ t x, exec .jexit s = .next t ∧ (t.strand s.meId).id.kind = .free ∧ t.die.job s.me.id.job.toNat = some x ∧ x.state = .ended
        ∧ x.status = j.pend ∧ x.root = none ∧ x.slots = [])
  ∧ (∀ s : State, s.me.id.kind = .aux → storesDone s → ∃ t, exec .jexit s = .next t ∧ (t.strand s.meId).id.kind = .free ∧ t.die.jobs = s.die.jobs)
  ∧ (∀ s : State, ((s.die.job s.me.id.job.toNat).all fun j => j.preempt == 0) = true → exec .yield s = .next (retired s))
  ∧ (∀ (s : State) (j : Job), s.die.job s.me.id.job.toNat = some j → j.preempt ≠ 0 → s.me.id.kind ≠ .column →
      ∃ t, exec .yield s = .next t ∧ onlyStrand s t s.meId ∧ t.die = s.die ∧ t.me.pc = s.me.pc + 4 ∧ t.me.run.wait = .saving)

/-- Release, end, deadline, exit routine and exit budget of a job. JOB_RELEASE makes a PENDING job READY once its release time has
come and its count is 0 or EARLY is set, and leaves any other job. JOB_END gives a live job its final status, with the status word
for DONE, and lowers the count of a live parent by 1, raising its tally where the status is not DONE; at count 0 the parent is
early-started no more. DEADLINE_EXPIRY before the deadline changes nothing; after it a PENDING or READY job with no children and
nothing saved ends ABANDONED_UNSTARTED, and a RUNNING one stops its root strand with VL, STRIPN and VSTART zero and its other
registers as they were. EXIT_ROUTINE_START then runs the class exit VA at user privilege with the reason word in s31 and the other
registers unchanged, the job EXITING. EXIT_BUDGET_EXPIRY ends an EXITING job with its status once the budget has passed, and
changes nothing before. (R361; R362; R363; R378; R380; R381) -/
def Obligations.JobEvents : Prop :=
  (∀ (s : State) (h : Nat) (j : Job), s.die.job h = some j →
      (j.state = .pending → j.release ≤ s.die.dtime → j.count = 0 ∨ j.earlyOk = true → ∃ t x, exec (.jobRelease h) s = .next t ∧ sameStrands s t
        ∧ t.die.mem = s.die.mem ∧ t.die.job h = some x ∧ x = { j with state := .ready, urgent := x.urgent, bank := x.bank })
      ∧ (j.state ≠ .pending ∨ s.die.dtime < j.release ∨ (j.count ≠ 0 ∧ j.earlyOk = false) → exec (.jobRelease h) s = .next s))
  ∧ (∀ (s : State) (h st w : Nat) (j : Job), s.die.job h = some j → j.state ≠ .ended → 1 ≤ st → st ≤ 4 → j.gen ≠ 0 → j.parent % 65536 ≠ h % 65536 →
      ∃ t x, exec (.jobEnd h st w) s = .next t ∧ t.die.job h = some x ∧ x.state = .ended ∧ x.status = st
        ∧ x.word = (if st = 1 then w % 2 ^ 32 else 0) ∧ x.desc = j.desc ∧ x.root = none ∧ x.slots = []
        ∧ ∀ p, s.die.job j.parent = some p → p.gen ≠ 0 → p.state ≠ .ended →
          t.die.job j.parent = some { p with count := p.count - 1, early := p.early && p.count != 1, tally := if st = 1 then p.tally else p.tally + 1 })
  ∧ (∀ (s : State) (h : Nat) (j : Job), s.die.job h = some j → s.die.dtime < j.deadline → exec (.deadlineExpiry h) s = .next s)
  ∧ (∀ (s : State) (h : Nat) (j : Job), s.die.job h = some j → j.gen ≠ 0 → j.deadline ≤ s.die.dtime → j.pend = 0 → s.die.mig.state = 0 →
      (∀ e ∈ s.die.jobs, e.2.parent ≠ h) →
      (j.state = .pending ∨ j.state = .ready → j.slots = [] → ∃ t x, exec (.deadlineExpiry h) s = .next t ∧ t.die.job h = some x ∧ x.state = .ended ∧ x.status = 3)
      ∧ (∀ i, j.state = .running → j.root = some i → (s.strand i).ctx.fork.n = 0 → s.strandsOf h = [i] →
          ∃ t x, exec (.deadlineExpiry h) s = .next t ∧ t.die.job h = some x ∧ x = { j with slots := [], pend := 2, cause := 0, preempt := 0 }
            ∧ (t.strand i).run.wait = .exit ∧ (t.strand i).ctx.vl = 0 ∧ (t.strand i).ctx.stripn = 0 ∧ (t.strand i).ctx.vstart = 0
            ∧ (t.strand i).regs = (s.strand i).regs ∧ (t.strand i).trap = (s.strand i).trap ∧ (t.strand i).ctx.v = (s.strand i).ctx.v
            ∧ (t.strand i).ctx.gm = (s.strand i).ctx.gm ∧ ∀ c ∈ t.die.cmds, c.noJob = true ∨ c.job ≠ h))
  ∧ (∀ (s : State) (h i : Nat) (j : Job), s.die.job h = some j → j.root = some i → (s.strand i).run.wait = .exit →
      ∃ t x, exec (.exitRoutineStart h) s = .next t ∧ onlyStrand s t i ∧ (t.strand i).pc = BitVec.ofNat 64 j.exitVa ∧ (t.strand i).priv = .user
        ∧ (t.strand i).run.wait = .ready ∧ (t.strand i).ctx = (s.strand i).ctx ∧ (t.strand i).trap = (s.strand i).trap
        ∧ (t.strand i).reg 31 = BitVec.ofNat 64 (j.pend + 256 * j.cause) ∧ (∀ r : Fin 32, r ≠ 31 → (t.strand i).reg r = (s.strand i).reg r)
        ∧ t.die.job h = some x ∧ x = { j with state := .exiting, exitAt := s.die.dtime, budget := x.budget } ∧ x.budget ≤ j.budget)
  ∧ (∀ (s : State) (h : Nat) (j : Job), s.die.job h = some j → j.state = .exiting →
      (s.die.dtime < j.exitAt + j.budget → exec (.exitBudgetExpiry h) s = .next s)
      ∧ (j.exitAt + j.budget ≤ s.die.dtime → ∃ t x, exec (.exitBudgetExpiry h) s = .next t ∧ t.die.job h = some x ∧ x.state = .ended
          ∧ x.status = j.pend ∧ ∀ i ∈ s.strandsOf h, (t.strand i).id.kind = .free))

/-- The promotion sweep, pops and placements, servers, and pre-emption requests. PROMOTION_SWEEP changes nothing of a job but its
tier, moves no job out of the urgent tier, and moves a lone waiting job with slack below PROMO into it. A pop takes a job to be
restored for its exit routine first, then the urgent tier by (DEADLINE, handle). TIMETABLE_POP with a core that can grant makes
the job DISPATCHING there and puts its dispatch message (R374) in the landing queue; with nothing to place it changes nothing.
DISPATCH_WITHDRAW takes an unaccepted dispatch back: the job READY and avoiding the core. An exhausted server has DL and BG
stepped by T and Q the least number of times that makes BG positive, at once or, suspended, from DL on; a server not exhausted is
left. JSRV_WRITE ignores EN with Q = 0, stores T = 0 as 1, and refreshes where EN rises. PREEMPT_REQUEST stops a strand whose job
is to be pre-empted, its requests of the special-function unit cancelled. (R365; R367; R368; R369; R370; R372; R374; R375) -/
def Obligations.TimetableServersAndPlacement : Prop :=
  (∀ (s : State) (n : Nat), ∃ t, exec .promotionSweep s = .next t ∧ sameStrands s t ∧ t.die.mem = s.die.mem
      ∧ let a := sget Job.unused s.die.jobs n
        let b := sget Job.unused t.die.jobs n
        b = { a with urgent := b.urgent } ∧ (a.urgent = true → b.urgent = true))
  ∧ (∀ (s : State) (n : Nat) (j : Job), s.die.jobs = [(n, j)] → n < 65536 → j.gen ≠ 0 → j.state ∈ [.ready, .saved, .checkpointed] → j.bank < 16 →
      s.die.dtime + 1000 * (s.die.reg (0x200004002000 + 16 * (s.die.reg (0x200006110000 + 8 * j.vf) % 16)) % 65536) > j.deadline →
      ∃ t, exec .promotionSweep s = .next t ∧ t.die.jobs = [(n, { j with urgent := true })])
  ∧ (∀ (s : State) (p : Nat) (e x : Nat × Job), (s.pop p).1 = some e → x ∈ s.candidates p →
      e ∈ s.candidates p ∧ (x.2.bare = true → e.2.bare = true ∧ ¬sooner x e)
      ∧ (e.2.bare = false → x.2.urgent = true → e.2.urgent = true ∧ ¬sooner x e))
  ∧ (∀ s : State, s.nextPart = none → exec .timetablePop s = .next s)
  ∧ (∀ (s : State) (p core : Nat) (e : Nat × Job), s.nextPart = some p → (s.pop p).1 = some e → s.bestCore p e.2 = some core → e.2.slots = [] →
      s.die.job (handleOf e) = some e.2 → (coreOf s core).offers = [] → handlersHeld (coreOf s core) < 16 →
      ∃ t j m, exec .timetablePop s = .next t ∧ sameStrands s t ∧ t.die.mem = s.die.mem ∧ t.die.popTurn = p
        ∧ t.die.job (handleOf e) = some j ∧ j = { e.2 with
            state := .dispatching, urgent := false, placed := some (core, s.die.dtime), begun := true, early := decide (e.2.count ≠ 0) && (e.2.early || e.2.earlyOk) }
        ∧ coreOf t core = { coreOf s core with handlers := (coreOf s core).handlers ++ [m] } ∧ m.orig = 2 ∧ m.cont = false ∧ m.job = handleOf e
        ∧ m.target = 4 * (e.2.desc / 4 % 2 ^ 52) ∧ m.owner = e.2.owner ∧ m.asid = e.2.asid ∧ m.lmin = e.2.lmin ∧ m.lpref = e.2.lpref
        ∧ m.payload = BitVec.ofNat 64 e.2.deadline :: (List.range 5).map fun i => BitVec.ofNat 64 (e.2.desc / 2 ^ (192 + 64 * i)))
  ∧ (∀ (s : State) (h core since : Nat) (j : Job) (m : Msg), s.die.job h = some j → j.placed = some (core, since) → j.state = .dispatching →
      j.bare = false → j.slots = [] → j.pin = false → m ∈ (coreOf s core).offers → m.cont = false → m.orig = 2 → m.job = h →
      ∃ t u b, exec (.dispatchWithdraw h) s = .next t ∧ sameStrands s t ∧ m ∉ (coreOf t core).offers
        ∧ t.die.job h = some { j with
            state := .ready, placed := none, avoid := some (core, s.die.dtime + 1000 * (coreOf s core).rgwin.toNat), urgent := u, bank := b })
  ∧ (∀ (s : State) (v : Nat), (s.die.srvEn v = false ∨ 0 < s.die.srvBg v → exec (.serverBudgetExhausted v) s = .next s
        ∧ exec (.serverSuspensionEnd v) s = .next s)
      ∧ (s.die.srvEn v = true → s.die.srvBg v ≤ 0 → s.die.srvHard v = true → s.die.dtime < s.die.srvDl v →
          exec (.serverSuspensionEnd v) s = .next s
          ∧ ((∀ e ∈ s.die.jobs, e.2.vf = v → e.2.state ≠ .running) → exec (.serverBudgetExhausted v) s = .next s))
      ∧ (s.die.srvEn v = true → s.die.srvBg v ≤ 0 → 0 < s.die.srvQ v → ∀ e, (e = .serverSuspensionEnd v ∧ s.die.srvHard v = true
          ∧ s.die.srvDl v ≤ s.die.dtime) ∨ (e = .serverBudgetExhausted v ∧ (s.die.srvHard v = false ∨ s.die.srvDl v ≤ s.die.dtime)
          ∧ ∀ e ∈ s.die.jobs, e.2.vf = v → e.2.state ≠ .running) →
          ∃ t n, exec e s = .next t ∧ sameStrands s t ∧ t.die.jobs = s.die.jobs ∧ t.die.mem = s.die.mem
            ∧ 0 < s.die.srvBg v + 1000 * s.die.srvQ v * (n : Int) ∧ s.die.srvBg v + 1000 * s.die.srvQ v * ((n : Int) - 1) ≤ 0
            ∧ t.die.srvDl v = (s.die.srvDl v + n * (1000 * s.die.srvT v)) % 2 ^ 64
            ∧ (t.die.reg (jsrvAddr v + 16) : Int) = (s.die.srvBg v + 1000 * s.die.srvQ v * (n : Int)) % 2 ^ 64))
  ∧ (∀ (s : State) (v x : Nat), v < 256 → let q := x / 2 ^ 16 % 65536
      let tt := if x / 2 ^ 32 % 2 ^ 20 = 0 then 1 else x / 2 ^ 32 % 2 ^ 20
      (x % 2 = 1 → q = 0 → exec (.jsrvWrite v x) s = .next s)
      ∧ (x % 2 = 0 ∨ q ≠ 0 → ∃ t, exec (.jsrvWrite v x) s = .next t ∧ sameStrands s t ∧ t.die.mem = s.die.mem
          ∧ regsKept s.die t.die [jsrvAddr v, jsrvAddr v + 8, jsrvAddr v + 16]
          ∧ t.die.reg (jsrvAddr v) = tt * 2 ^ 32 + q * 2 ^ 16 + x % 4
          ∧ (x % 2 = 1 → s.die.srvEn v = false → t.die.reg (jsrvAddr v + 8) = (s.die.dtime + 1000 * tt) % 2 ^ 64
              ∧ t.die.reg (jsrvAddr v + 16) = 1000 * q)
          ∧ (x % 2 = 0 ∨ s.die.srvEn v = true → regsKept s.die t.die [jsrvAddr v])))
  ∧ (∀ (s : State) (i : Nat) (j : Job), s.die.job (s.strand i).id.job.toNat = some j → j.preempt ≠ 0 → (s.strand i).id.kind = .root →
      (s.strand i).run.wait = .ready → ∃ t, exec (.preemptRequest i) s = .next t ∧ onlyStrand s t i
        ∧ t.die = { s.die with sfu := s.die.sfu.filter fun r => r.strand != i }
        ∧ t.strand i = { s.strand i with run := { (s.strand i).run with wait := .saving } })

/-- Lane changes and grows, and contexts that leave their strand and come back. A SETVL without KEEP in a strand with a lease,
VSTART 0 and no fork takes its pending change: the block becomes the groups that the table then gives the strand, vector words and
mf keep the first 64·min(k₀, k₁) words or bits and read zero beyond, tags, descriptors, STRIP, FCSR and the other registers are as
before, VL and rd are min(a, G·VLMAX) of the new block, and it retires. The event LANE_CHANGE has the next step issue the SETVL
without KEEP at which a strand with a pending change stands; with no change pending it does nothing. GROW_OFFER marks the free
buddy group of a strand below its preference, and offers nothing while a reservation waits. SAVE_COMPLETE of a stopped strand with
nothing posted and its job's deadline not come frees the strand and its groups, makes the absent entry SAVED in the lowest free
slot, and notes the context in its job, SAVED (CHECKPOINTED for Clearance) once no strand of it is left. RESUME of a placed job
with one saved context, no repetition in it, reads PC, scalar registers, FCSR, VL and a privilege not above the saved one back
from the area onto the lowest free strand with its identity. RESUME_COMPLETE lets the strand run, and the job is RUNNING with no
slot held. (R212; R214; R262; R266; R268; R269) -/
def Obligations.LanesSavesAndResumes : Prop :=
  (∀ (s : State) (d a : Fin 32), let c := coreOf s s.core
      let i := s.meId
      let t := s.me
      let takes (e : LatEntry) : Prop := (e.own = some i ∧ e.pend ≠ none) ∨ (e.own = none ∧ e.pend = some i)
      t.ctx.gm ≠ 0 → t.ctx.vstart = 0 → t.ctx.fork.n = 0 → (∃ e ∈ c.lat, takes e) → c.lat.length = 4 →
      (∀ r ∈ c.reservations, r.strand ≠ i) →
      ∃ x, exec (.setvl d a false) s = .next x ∧ onlyStrand s x i ∧ x.die.mem = s.die.mem ∧ x.die.jobs = s.die.jobs
        ∧ (∀ g < 4, x.me.ctx.gm.getLsbD g = true ↔ ∃ e, c.lat[g]? = some e ∧
            ((e.own = some i ∧ e.pend = none) ∨ (e.own = none ∧ e.pend = some i)))
        ∧ (let k := 64 * min t.ctx.k x.me.ctx.k
           (∀ r n, n < 256 → sget 0 x.me.ctx.v (256 * r + n) = if n < k then sget 0 t.ctx.v (256 * r + n) else 0)
           ∧ (∀ n < 2048, x.me.ctx.mf.getLsbD n = (t.ctx.mf.getLsbD n && decide (n < k))))
        ∧ x.me.ctx.tags = t.ctx.tags ∧ x.me.ctx.sd = t.ctx.sd ∧ x.me.ctx.strip = t.ctx.strip ∧ x.me.ctx.stripn = t.ctx.stripn
        ∧ x.me.fcsr = t.fcsr ∧ x.me.pc = t.pc + 4 ∧ x.me.ctx.vl = min (s.reg a).toNat (topOf x.me.ctx)
        ∧ x.me.regs = regsAfter t d (BitVec.ofNat 64 x.me.ctx.vl))
  ∧ (∀ (s f : State) (i w : Nat) (d a : Fin 32), let c := coreOf s (i / 8)
      let takes (e : LatEntry) : Prop := (e.own = some i ∧ e.pend ≠ none) ∨ (e.own = none ∧ e.pend = some i)
      ((∀ e ∈ c.lat, ¬takes e) → exec (.laneChange i) s = .next s)
      ∧ ((∃ e ∈ c.lat, takes e) → (s.strand i).run.wait = .ready → (s.strand i).ctx.queue = [] → (s.strand i).ctx.rep.running = false →
          (s.focus i).fetch = .word w f → decodeWord w = .ok (.setvl d a false) → exec (.laneChange i) s = .next (withDue s (.issue i))))
  ∧ (∀ (s : State) (core : Nat), let c := coreOf s core
      (c.reservations ≠ [] ∨ (∃ e ∈ c.lat, e.pend ≠ none) → exec (.growOffer core) s = .next s)
      ∧ (c.reservations = [] → c.lat = [⟨some (8 * core), none⟩, ⟨none, none⟩, ⟨none, none⟩, ⟨none, none⟩] → 1 < (s.strand (8 * core)).id.prefG →
          exec (.growOffer core) s = .next (onCore s core { c with
            lat := [⟨some (8 * core), none⟩, ⟨none, some (8 * core)⟩, ⟨none, none⟩, ⟨none, none⟩] })))
  ∧ (∀ (s : State) (i n : Nat) (ns : List Nat) (j : Job), let t := s.strand i
      t.run.wait = .saving → (∀ p ∈ s.die.posted, p.source ≠ i) → t.run.invals.length ≤ 20 → j.pend = 0 → s.die.dtime < j.deadline →
      s.die.job t.id.job.toNat = some j → s.die.freeSlots (s.die.vfPart j.vf) = n :: ns → s.strandsOf t.id.job.toNat = [i] →
      t.id.home = i →
      ∃ x y, exec (.saveComplete i) s = .next x ∧ onlyStrand s x i ∧ (x.strand i).id.kind = .free
        ∧ x.die.job t.id.job.toNat = some y ∧ y.state = (if j.preempt = 2 then .checkpointed else .saved) ∧ y.root = none ∧ y.preempt = 0
        ∧ (∃ v, y.slots = j.slots ++ [v] ∧ v.slot = n ∧ v.home = i ∧ v.gen = t.id.gen ∧ v.kind = t.id.kind ∧ v.loopT = t.ctx.loopT)
        ∧ (⟨i % 8, t.id.gen, t.id.owner, .saved (s.die.slotArea (s.die.vfPart j.vf) n)⟩ : Absent) ∈ (coreOf x (i / 8)).absent
        ∧ (∀ e ∈ (coreOf x (i / 8)).lat, e.own ≠ some i))
  ∧ (∀ (s : State) (h core i : Nat) (fs : List Nat) (v : Saved) (g : BitVec 4) (j : Job), s.die.job h = some j → j.state = .dispatching →
      j.slots = [v] → j.bare = false → j.placed.map (·.1) = some core → s.freeStrands core = i :: fs → s.savedFork j v = 0 → v.dom = [] →
      (coreOf s core).takeBlocks (s.resumeSizes j) = some [g] → g ≠ 0 → h < 2 ^ 32 → v.rep = Rep.empty → v.joined = [] →
      (∀ r ∈ (coreOf s core).reservations, r.job ≠ h) → s.strandsOf h = [] →
      let area := s.die.slotArea (s.die.vfPart j.vf) v.slot
      let field (off size : Nat) : Nat := (onCore s core ((coreOf s core).give i g)).die.areaGet j.owner area off size
      (∀ d < 16, field (0x288 + 8 * d) 8 = 0) →
      ∃ t, exec (.resume h core) s = .next t ∧ onlyStrand s t i ∧ (t.strand i).run.wait = .restoring
        ∧ (t.strand i).pc = BitVec.ofNat 64 (field 0x18 8) ∧ (t.strand i).fcsr = BitVec.ofNat 9 (field 0x200 8)
        ∧ (t.strand i).priv = (let q := Priv.ofCode (field 0x0C 1); if q.code ≤ v.priv.code then q else v.priv) ∧ (t.strand i).ctx.gm = g ∧ (t.strand i).ctx.vl = field 0x208 8
        ∧ (t.strand i).id = ⟨v.kind, j.owner, BitVec.ofNat 32 h, v.gen, v.home, v.minG, v.prefG⟩
        ∧ ∀ r : Fin 32, r ≠ 0 → (t.strand i).reg r = BitVec.ofNat 64 (field (0x100 + 8 * r.val) 8))
  ∧ (∀ (s : State) (i : Nat) (j : Job), let h := (s.strand i).id.job.toNat
      (s.strand i).run.wait = .restoring → s.die.job h = some j → s.strandsOf h = [i] →
      ∃ t, exec (.resumeComplete i) s = .next t ∧ onlyStrand s t i
        ∧ t.strand i = { s.strand i with run := { (s.strand i).run with wait := if j.bare then .exit else .ready } }
        ∧ t.die.job h = some { j with slots := [], state := .running, placed := none, runSince := s.die.dtime, bare := false })

/-- Joining, arriving at, waiting on and leaving a synchronisation domain, in all forms. BARARV, BARWT and BAR trap with code 0x01
where the slot has V = 0 and with 0x70 where an error freed its counter. An arrival above strand level waits for the strand's
posted writes on a link to perform. BARARV waits while ARR = 1; else it arrives, writes the phase it arrived in and retires. BARWT
waits while the phase is a[31:0] and retires otherwise. BAR (every slot) arrives without a register and retires at once where its
arrival completes the phase, else waits until the phase moves on. An arrival adds one, sets ARR, and at the last advances the
phase modulo 2^32, clears the arrivals and the ARR of every slot of the counter; no other counter or slot changes. DOM_JOIN takes
a free counter, or one of the owner with the same COUNT, room and phase 0, and changes nothing where Table 14.10 is not met.
DOM_LEAVE clears the slot, lowers COUNT, frees the counter at 0 and completes the phase where the remaining members have all
arrived. BARRIER_COUNTER_ERROR writes an error record, frees the counter and marks the slots of its members, and only those, as
failed. (R292; R293; R294; R295; R296) -/
def Obligations.Barriers : Prop :=
  (∀ (s : State) (i : Instr) (d : Nat), d < 16 → (barOf i = some d ∨ (∃ t : Fin 32, ∃ e : Fin 16, e.val = d ∧ (i = .bararv t e ∨ i = .barwt t e))) →
      let v := sget 0 s.me.dom d
      (v % 2 = 0 → ∃ t, exec i s = .next t ∧ trapped s t 0x01 (BitVec.ofNat 64 (encode i)))
      ∧ (v % 2 = 1 → 2 ^ 64 ≤ v → ∃ t, exec i s = .next t ∧ trapped s t 0x70 0))
  ∧ (∀ (s : State) (r : Fin 32) (d : Fin 16), let v := sget 0 s.me.dom d.val
      let b := sget Barrier.free s.die.barriers (counterKey s.meId v)
      v % 2 = 1 → v < 2 ^ 64 →
      let far := v / 2 ^ 30 % 4 ≠ 0 ∧ ¬storesDone s
      (v / 2 % 2 = 1 → ∃ t, exec (.bararv r d) s = .next t ∧ waits s t .barrier ∧ onlyStrand s t s.meId ∧ t.die = s.die)
      ∧ (v / 2 % 2 = 0 → far → ∃ t, exec (.bararv r d) s = .next t ∧ waits s t .fence ∧ onlyStrand s t s.meId ∧ t.die = s.die)
      ∧ (v / 2 % 2 = 0 → ¬far → ∃ t, exec (.bararv r d) s = .next t ∧ arrived s t d.val ∧ t.me.regs = regsAfter s.me r (BitVec.ofNat 64 b.phase)
          ∧ t.me.pc = s.me.pc + 4 ∧ t.me.run.wait = .ready)
      ∧ (b.phase = (s.reg r).toNat % 2 ^ 32 → ∃ t, exec (.barwt r d) s = .next t ∧ waits s t .barrier ∧ onlyStrand s t s.meId ∧ t.die = s.die)
      ∧ (b.phase ≠ (s.reg r).toNat % 2 ^ 32 → exec (.barwt r d) s = .next (retired s)))
  ∧ (∀ (s : State) (i : Instr) (d : Nat), barOf i = some d → let v := sget 0 s.me.dom d
      let b := sget Barrier.free s.die.barriers (counterKey s.meId v)
      v % 2 = 1 → v < 2 ^ 64 →
      let far := v / 2 ^ 30 % 4 ≠ 0 ∧ ¬storesDone s
      (sget 0 s.me.run.barPhase d = 0 → v / 2 % 2 = 1 → ∃ t, exec i s = .next t ∧ waits s t .barrier ∧ t.die = s.die)
      ∧ (sget 0 s.me.run.barPhase d = 0 → v / 2 % 2 = 0 → far → ∃ t, exec i s = .next t ∧ waits s t .fence ∧ onlyStrand s t s.meId ∧ t.die = s.die)
      ∧ (sget 0 s.me.run.barPhase d = 0 → v / 2 % 2 = 0 → ¬far → ∃ t, exec i s = .next t ∧ arrived s t d ∧ t.me.regs = s.me.regs
          ∧ (b.arrivals + 1 = b.count → t.me.pc = s.me.pc + 4 ∧ t.me.run.wait = .ready)
          ∧ (b.arrivals + 1 ≠ b.count → waits s t .barrier ∧ sget 0 t.me.run.barPhase d = b.phase + 1))
      ∧ (sget 0 s.me.run.barPhase d = b.phase + 1 → ∃ t, exec i s = .next t ∧ waits s t .barrier ∧ t.die = s.die)
      ∧ (∀ q, sget 0 s.me.run.barPhase d = q + 1 → q ≠ b.phase → ∃ t, exec i s = .next t ∧ onlyStrand s t s.meId ∧ t.die = s.die
          ∧ t.me.pc = s.me.pc + 4 ∧ t.me.run.wait = .ready ∧ t.me.regs = s.me.regs ∧ sget 0 t.me.run.barPhase d = 0))
  ∧ (∀ (s : State) (i d v : Nat), d < 16 → v % 2 = 1 → let old := sget 0 (s.strand i).dom d
      let k := counterKey i v
      let b := sget Barrier.free s.die.barriers k
      let fresh := b.owner = 0
      let level := v / 2 ^ 30 % 4
      let id := v / 2 ^ 24 % 64
      let count := v / 2 ^ 8 % 512
      let bad := old % 2 = 1 ∨ (b.owner ≠ 0 ∧ b.owner ≠ (s.strand i).id.owner + 1) ∨ [1, 4, 16, 64].getD level 0 ≤ id ∨ count = 0
        ∨ [1, 8, 32, 256].getD level 0 < count ∨ (¬fresh ∧ (count ≠ b.count ∨ b.count ≤ b.members ∨ b.phase ≠ 0 ∨ b.arrivals ≠ 0))
      (bad → exec (.domJoin i d v) s = .next s)
      ∧ (¬bad → ∃ t, exec (.domJoin i d v) s = .next t ∧ onlyStrand s t i
          ∧ sget 0 (t.strand i).dom d = level * 2 ^ 30 + id * 2 ^ 24 + count * 2 ^ 8 + 1
          ∧ (∀ n, n ≠ d → sget 0 (t.strand i).dom n = sget 0 (s.strand i).dom n)
          ∧ sget Barrier.free t.die.barriers k = (if fresh then ⟨(s.strand i).id.owner + 1, count, 1, 0, 0⟩
              else { b with members := b.members + 1 })
          ∧ ∀ n, n ≠ k → sget Barrier.free t.die.barriers n = sget Barrier.free s.die.barriers n))
  ∧ (∀ (s : State) (i d : Nat), d < 16 → let v := sget 0 (s.strand i).dom d
      let k := counterKey i v
      let b := sget Barrier.free s.die.barriers k
      let arr := if v / 2 % 2 = 1 then b.arrivals - 1 else b.arrivals
      ∃ t, exec (.domLeave i d) s = .next t ∧ sget 0 (t.strand i).dom d = 0
        ∧ (∀ n, n ≠ k → sget Barrier.free t.die.barriers n = sget Barrier.free s.die.barriers n)
        ∧ (v % 2 = 0 ∨ 2 ^ 64 ≤ v ∨ b.owner = 0 → t.die = s.die)
        ∧ (v % 2 = 1 → v < 2 ^ 64 → b.owner ≠ 0 → sget Barrier.free t.die.barriers k =
            if b.count - 1 = 0 then Barrier.free
            else if arr = b.count - 1 then { b with
              count := b.count - 1, members := b.members - 1, arrivals := 0, phase := (b.phase + 1) % 2 ^ 32 }
            else { b with count := b.count - 1, members := b.members - 1, arrivals := arr }))
  ∧ (∀ (s : State) (level unit id : Nat), let k := 2 ^ 20 * level + 64 * unit + id
      ((sget Barrier.free s.die.barriers k).owner = 0 → exec (.barrierCounterError level unit id) s = .next s)
      ∧ ((sget Barrier.free s.die.barriers k).owner ≠ 0 → ∃ t, exec (.barrierCounterError level unit id) s = .next t
          ∧ t.meId = s.meId ∧ t.die.errlog = ⟨0x70, 2048, k⟩ :: s.die.errlog
          ∧ (∀ j, t.strand j = { s.strand j with dom := (t.strand j).dom } ∧ ∀ n, sget 0 (t.strand j).dom n =
              let w := sget 0 (s.strand j).dom n
              if w < 2 ^ 64 ∧ w % 2 = 1 ∧ counterKey j w = k then 2 ^ 64 + w else w)
          ∧ sget Barrier.free t.die.barriers k = Barrier.free
          ∧ ∀ n, n ≠ k → sget Barrier.free t.die.barriers n = sget Barrier.free s.die.barriers n))

/-- Berth rings, their cursors, and what the fronthaul ports and clocks do. BRNEXT and BRDONE check their cursor operand (0x10,
0x12, 0x10); BRNEXT waits at WPOS, passes a PAD, and otherwise writes the VA of the record at the cursor; BRDONE moves the cursor
by the footprint of its record, or nothing at WPOS. A record that finds no room, ring, cursor or admission, or is too long, is
dropped: NSEQ and DROPS advance and nothing is written; one that fits writes, past a PAD where it would cross the end of the ring,
its payload and header, and advances NSEQ by one and WPOS past both. Enabling a legal ring clears WPOS, NSEQ, DROPS and every
cursor; enabling a cursor of a running ring sets it to WPOS. A frame that no rule matches, a section of no PRBs, or one whose
length is not that of its PRBs, is dropped and counted; a U-plane section is placed as received (COMP), decompressed, or with its
16-bit components in memory order; a C-plane frame as CPLANE. Delay measurements and PTM requests are answered with DTIME; the
servo, lock and holdover states follow their events. (R282; R283; R284; R285; R286; R287; R398; R399; R400; R401; R449) -/
def Obligations.BerthRings : Prop :=
  (∀ (s : State) (d a : Fin 32) (i : Instr), i ∈ [.brnext d a, .brdone a] → let x := (s.reg a).toNat
      let c := s.meId / 32
      let r := x / 16 % 16
      let j := x % 8
      let ctl := brctlAddr c r
      let pos := s.die.reg (ctl + 0x40 + 8 * j)
      let w := s.die.reg (ctl + 0x10)
      let off (p : Nat) : Nat := s.die.reg (ctl + 8) + p % 2 ^ (s.die.reg ctl / 2 ^ 12 % 32)
      let usable := x < 256 ∧ x / 8 % 2 = 0 ∧ s.die.reg ctl / 2 ^ 17 % 512 = s.me.id.owner ∧ s.die.reg ctl / 2 ^ 8 % 2 = 1
        ∧ (s.die.reg ctl).testBit j = true
      let head (p : Nat) : Except Nat (List Byte × Die) := s.die.physRead s.me.id.owner (0x110000000000 + 0x200000 * c + off p) 16
      (256 ≤ x ∨ x / 8 % 2 = 1 → ∃ t, exec i s = .next t ∧ trapped s t 0x10 (s.reg a))
      ∧ (x < 256 → x / 8 % 2 = 0 → s.die.reg ctl / 2 ^ 17 % 512 ≠ s.me.id.owner → ∃ t, exec i s = .next t ∧ trapped s t 0x12 (s.reg a))
      ∧ (x < 256 → x / 8 % 2 = 0 → s.die.reg ctl / 2 ^ 17 % 512 = s.me.id.owner → ¬usable → ∃ t, exec i s = .next t ∧ trapped s t 0x10 (s.reg a))
      ∧ (usable → pos = w → (∃ t, exec (.brnext d a) s = .next t ∧ waits s t .brnext ∧ onlyStrand s t s.meId ∧ regsKept s.die t.die [])
          ∧ exec (.brdone a) s = .next (retired s))
      ∧ (∀ bs die, usable → pos ≠ w → head pos = .ok (bs, die) → bits (leVal bs) 112 112 = 0 → pos < 2 ^ 48 →
          (∃ t, exec (.brnext d a) s = .next t ∧ t.me = (wrote s d (BitVec.ofNat 64 (0x003FFF0010000000 + off pos))).me ∧ t.others = s.others
            ∧ regsKept die t.die [])
          ∧ ∃ t, exec (.brdone a) s = .next t ∧ t.me = (retired s).me ∧ t.others = s.others ∧ regsKept die t.die [ctl + 0x40 + 8 * j]
            ∧ t.die.reg (ctl + 0x40 + 8 * j) = (pos + 64 + 64 * ((bits (leVal bs) 51 32 + 63) / 64)) % 2 ^ 48)
      ∧ (∀ bs die e, usable → pos ≠ w → head pos = .ok (bs, die) → bits (leVal bs) 112 112 = 1 → e = (pos + 64 + bits (leVal bs) 51 32) % 2 ^ 48 →
          die.reg (ctl + 0x10) = e → ∃ t, exec (.brnext d a) s = .next t ∧ waits s t .brnext ∧ t.die.reg (ctl + 0x40 + 8 * j) = e)
      ∧ (∀ e, usable → pos ≠ w → head pos = .error e → ∃ t, exec i s = .next t ∧ trapped s t e (BitVec.ofNat 64 (0x003FFF0010000000 + off pos))))
  ∧ (∀ (s : State) (c r flags eaxc sym prb : Nat) (data : List Nat), c < 64 → r < 16 → let ctl := brctlAddr c r
      let size := 2 ^ (s.die.reg ctl / 2 ^ 12 % 32)
      let foot := 64 + 64 * ((data.length + 63) / 64)
      let w := s.die.reg (ctl + 0x10)
      let nseq := s.die.reg (ctl + 0x18) % 2 ^ 32
      let drops := s.die.reg (ctl + 0x18) / 2 ^ 32 % 2 ^ 32
      let own := s.die.reg ctl / 2 ^ 17 % 512
      let place (p : Nat) : Nat := 0x110000000000 + 0x200000 * c + (s.die.reg (ctl + 8) + p % size)
      let missed := sget 0 s.die.missed (16 * c + r)
      let pad := if size < w % size + foot then size - w % size else 0
      let e : Instr := .berthRecordPlace c r flags eaxc sym prb data
      (s.die.reg ctl / 2 ^ 8 % 2 = 0 ∨ s.die.reg ctl % 256 = 0 ∨ s.die.brFree c r < pad + foot ∨ 2 ^ 20 ≤ data.length
          ∨ s.die.admits (0x100 + c) own true = false →
        ∃ t, exec e s = .next t ∧ sameStrands s t ∧ t.die.mem = s.die.mem ∧ regsKept s.die t.die [ctl + 0x18]
          ∧ t.die.reg (ctl + 0x18) = (drops + 1) % 2 ^ 32 * 2 ^ 32 + (nseq + 1) % 2 ^ 32 ∧ sget 0 t.die.missed (16 * c + r) = missed + 1)
      ∧ (s.die.reg ctl / 2 ^ 8 % 2 = 1 → s.die.reg ctl % 256 ≠ 0 → pad + foot ≤ s.die.brFree c r → data.length < 2 ^ 20 →
          s.die.admits (0x100 + c) own true = true →
          let flag := flags % 16 / 4 * 4 + (if missed = 0 then 0 else 2)
          let header := flag * 2 ^ 112 + min missed 65535 * 2 ^ 96 + prb % 2 ^ 10 * 2 ^ 84 + sym % 16 * 2 ^ 80 + eaxc % 2 ^ 16 * 2 ^ 64
            + data.length * 2 ^ 32 + nseq
          let d := if pad = 0 then s.die else (s.die.writeLong own (place w) (leBytes 64 (2 ^ 112 + (pad - 64) * 2 ^ 32 + nseq)) 2).1
          let d := d.portWrite own (place (w + pad) + 64) (data.map (BitVec.ofNat 8))
          let d := (d.writeLong own (place (w + pad)) (leBytes 64 header) 2).1
          ∃ t, exec e s = .next t ∧ sameStrands s t ∧ t.die.mem = d.mem ∧ regsKept d t.die [ctl + 0x10, ctl + 0x18]
            ∧ t.die.reg (ctl + 0x10) = (w + pad + foot) % 2 ^ 48 ∧ t.die.reg (ctl + 0x18) % 2 ^ 32 = (bits (d.reg (ctl + 0x18)) 31 0 + 1) % 2 ^ 32
            ∧ sget 0 t.die.missed (16 * c + r) = 0))
  ∧ (∀ (s : State) (c r v : Nat), c < 64 → r < 16 → let ctl := brctlAddr c r
      let log := v / 2 ^ 12 % 32
      s.die.reg ctl / 2 ^ 8 % 2 = 0 → v / 2 ^ 8 % 2 = 1 → 16 ≤ log → log ≤ 20 → s.die.reg (ctl + 8) % 2 ^ log = 0 →
      ∃ t, exec (.brctlEnable c r v) s = .next t ∧ sameStrands s t ∧ t.die.mem = s.die.mem
        ∧ t.die.reg ctl = v / 2 ^ 17 % 512 * 2 ^ 17 + log * 2 ^ 12 + 256 + v % 256
        ∧ t.die.reg (ctl + 0x10) = 0 ∧ t.die.reg (ctl + 0x18) = 0 ∧ ∀ j < 8, t.die.reg (ctl + 0x40 + 8 * j) = 0)
  ∧ (∀ (s : State) (c r j : Nat), c < 64 → r < 16 → j < 8 → let ctl := brctlAddr c r
      s.die.reg ctl / 2 ^ 8 % 2 = 1 → (s.die.reg ctl).testBit j = false → s.die.reg ctl < 2 ^ 26 → s.die.reg ctl / 2 ^ 9 % 8 = 0 →
      ∃ t, exec (.brctlCursorEnable c r j) s = .next t ∧ sameStrands s t ∧ t.die.mem = s.die.mem
        ∧ regsKept s.die t.die [ctl, ctl + 0x40 + 8 * j] ∧ t.die.reg ctl = s.die.reg ctl + 2 ^ j
        ∧ t.die.reg (ctl + 0x40 + 8 * j) = s.die.reg (ctl + 0x10))
  ∧ (∀ (s : State) (p eaxc sym prb num comp : Nat) (data : List Nat), p < 16 → eaxc < 2 ^ 16 → sym < 16 → prb < 2 ^ 10 →
      let rule (cplane : Bool) : Option Nat := ((List.range 64).map (portRule s.die p)).find? fun x => ruleTakes x cplane eaxc sym prb
      let bs := data.map (BitVec.ofNat 8)
      let u : Instr := .ecpriUplaneFrame p eaxc sym prb num comp data
      (rule false = none ∨ num = 0 → exec u s = .next (dropped s p))
      ∧ (rule true = none → exec (.ecpriCplaneFrame p eaxc sym prb data) s = .next (dropped s p))
      ∧ exec (.unmatchedFrame p) s = .next (dropped s p)
      ∧ (∀ x, rule true = some x → exec (.ecpriCplaneFrame p eaxc sym prb data) s
          = .next (onDie s (s.die.berthPlace (x / 2 ^ 58 % 64) (x / 2 ^ 54 % 16) 8 eaxc sym prb bs)))
      ∧ (∀ x, rule false = some x → num ≠ 0 → let width := if x / 2 ^ 48 % 2 = 1 then comp / 16 % 16 else x / 2 ^ 49 % 32
          let m := if width = 0 then 16 else width
          let place (flags : Nat) (l : List Byte) : State := onDie s (s.die.berthPlace (x / 2 ^ 58 % 64) (x / 2 ^ 54 % 16) flags eaxc sym prb l)
          (x / 2 ^ 65 % 2 = 1 ∨ 2 ≤ comp % 16 ∨ comp % 16 = 0 ∧ m ≠ 16 → exec u s = .next (place 4 bs))
          ∧ (x / 2 ^ 65 % 2 = 0 → comp % 16 = 1 → data.length ≠ num * (1 + 3 * m) → exec u s = .next (dropped s p))
          ∧ (x / 2 ^ 65 % 2 = 0 → comp % 16 = 1 → data.length = num * (1 + 3 * m) → exec u s = .next (place 0 (expandedPrbs m num bs)))
          ∧ (x / 2 ^ 65 % 2 = 0 → comp % 16 = 0 → m = 16 → data.length ≠ 48 * num → exec u s = .next (dropped s p))
          ∧ (x / 2 ^ 65 % 2 = 0 → comp % 16 = 0 → m = 16 → data.length = 48 * num → exec u s = .next (place 0 (swappedPairs bs)))))
  ∧ (∀ (s : State) (p id : Nat), p < 16 → ∃ (f : Frame) (q : Nat), q < 4 ∧ exec (.ecpriDelayMeasurement p id) s
      = .next (onDie s { s.die with ports := { s.die.ports with frames := f :: s.die.ports.frames } }) ∧ f.port = p ∧ f.time = s.die.dtime
        ∧ f.bytes = [0x10, 5, 0, 20, id % 256, 1] ++ ((List.range 6).map fun i => s.die.dtime / 10 ^ 9 / 256 ^ (5 - i) % 256)
          ++ ((List.range 4).map fun i => s.die.dtime % 10 ^ 9 / 256 ^ (3 - i) % 256) ++ [0, 0, 0, 0, 0, 0, q * 64, 0])
  ∧ (∀ s : State, exec .ptmRequest s
      = .next (onDie s { s.die with sent := ⟨false, 0, .reply true, 0, 8, s.die.dtime, 0, 0, false⟩ :: s.die.sent }))
  ∧ (∀ (s : State) (p off : Nat) (lock : Bool), off < 2 ^ 32 → let st := s.die.reg fhtstat % 4
      let own := s.die.reg 0x20000C010000 % 2 = 0
      let moves := if ¬own then st else if st = 0 then 1 else if (st = 1 ∨ st = 3) ∧ lock = true then 2 else st
      ∃ t, exec (.ptpEventFrame p off lock) s = .next t ∧ sameStrands s t ∧ regsKept s.die t.die [fhtstat] ∧ t.die.reg fhtstat % 4 = moves
        ∧ t.die.reg fhtstat / 2 ^ 32 = off ∧ t.die.dtime = s.die.dtime + (if own ∧ st = 1 ∧ lock = true then off else 0))
  ∧ (∀ (s : State) (lock : Bool), ∃ t, exec (.synceLockChange lock) s = .next t ∧ sameStrands s t ∧ regsKept s.die t.die [fhtstat]
      ∧ t.die.reg fhtstat / 4 % 2 = (if lock then 1 else 0) ∧ t.die.reg fhtstat % 4 = s.die.reg fhtstat % 4)
  ∧ (∀ s : State, (s.die.reg fhtstat % 4 ≠ 2 → exec .ptpHoldover s = .next s)
      ∧ (s.die.reg fhtstat % 4 = 2 → ∃ t, exec .ptpHoldover s = .next t ∧ sameStrands s t ∧ regsKept s.die t.die [fhtstat]
          ∧ t.die.reg fhtstat % 4 = 3 ∧ t.die.dtime = s.die.dtime))
  ∧ (∀ (s : State) (time : Nat), (s.die.reg 0x20000C010000 % 2 = 0 ∨ 2 ≤ s.die.reg fhtstat % 4 → exec (.twinPtmTime time) s = .next s)
      ∧ (s.die.reg 0x20000C010000 % 2 = 1 → s.die.reg fhtstat % 4 < 2 → ∃ t, exec (.twinPtmTime time) s = .next t ∧ sameStrands s t
          ∧ t.die.reg fhtstat % 4 = 2 ∧ t.die.dtime = max s.die.dtime time))

/-- Sending commands to the engines, and what each command does. ENQ and ENQR check the select (0x40), the access tables (0x12),
the privilege of the operation (0x02) and the form (0x40 with the offset); with REL and a posted write of the strand outstanding
on a link it waits; then the command joins the queue of the engine with the most free slots and the instruction retires, or it
waits. COMMAND_ACCEPT lets a waiting strand issue again. Each ferry operation whose last piece lies within one sector reads its
source (and index), writes its destination, and ends OK with progress its whole length; one with no bytes ends OK at once; MIGRATE
refused by a table ends DENIED. The coding operations, with every operand readable and probed, write their result and end OK, or
DECFAIL where no codeword was found: LDPC decoding stops early only where the parity checks and the CRC hold, and a polar decision
passes only with its CRC. A transmit command builds its frame with the port's header, leaves at TXTIME in its window, and ends
LATE after it. A completed command whose writes have all performed leaves the queue, and its message goes to its landing queue.
(R384; R385; R387; R389; R390; R391; R393; R394; R395; R396; 20_engines.md Tables 20.2 to 20.6) -/
def Obligations.EngineCommands : Prop :=
  (∀ (s : State) (i : Instr) (sel : Word), ((∃ a b r, i = .enq a b r ∧ sel = s.reg a) ∨ ∃ n a r, i = .enqr n a r ∧ sel = s.reg a) →
      let x := sel.toNat
      (512 ≤ x ∨ 4 < x / 32 % 8 ∨ (x / 256 % 2 = 1 ∧ x % 32 ≠ 0) ∨ (x / 256 % 2 = 0 ∧ x / 32 % 8 < 4 ∧ [16, 16, 8, 4].getD (x / 32 % 8) 0 ≤ x % 32) →
        ∃ t, exec i s = .next t ∧ trapped s t 0x40 sel)
      ∧ (s.die.selectOk x = true → s.die.admitted x s.me.id.owner = [] → ∃ t, exec i s = .next t ∧ trapped s t 0x12 sel))
  ∧ (∀ (s u v : State) (i : Instr) (rel : Bool) (sel base : Nat) (ws : List Nat),
      ((∃ n a, i = .enqr n a rel ∧ sel = (s.reg a).toNat ∧ base = 0 ∧ v = s ∧ ws = (List.range 8).map fun k => (s.reg (Fin.ofNat 32 (n.val + k))).toNat) ∨
        ∃ a b pa mt bs, i = .enq a b rel ∧ sel = (s.reg a).toNat ∧ base = (s.reg b).toNat ∧ s.resolveScalar base 64 .read = .inl (.ok (pa, mt, u))
          ∧ u.loadLinked base pa 64 = .ok bs v ∧ ws = (List.range 8).map fun k => leVal ((bs.drop (8 * k)).take 8)) →
      s.die.selectOk sel = true → s.die.admitted sel s.me.id.owner ≠ [] →
      let cls := sel / 32 % 8
      let op := ws.getD 1 0 % 256
      let high := (cls = 0 ∧ op = 5) ∨ (cls = 4 ∧ op = 2)
      (high → v.me.priv = .user → ∃ t, exec i s = .next t ∧ trapped v t 0x02 (BitVec.ofNat 64 (encode i)))
      ∧ (¬(high ∧ v.me.priv = .user) →
          (∀ off, v.malformedOffset cls ws v.cmdPart = some off → ∃ t, exec i s = .next t ∧ trapped v t 0x40 (BitVec.ofNat 64 (base + off)))
          ∧ (v.malformedOffset cls ws v.cmdPart = none → rel = true → ¬storesDone v →
              ∃ t, exec i s = .next t ∧ waits v t .fence ∧ onlyStrand v t v.meId ∧ t.die = v.die)
          ∧ (v.malformedOffset cls ws v.cmdPart = none → (rel = true → storesDone v) → v.die.accepting sel v.me.id.owner v.cmdPart = none →
              ∃ t, exec i s = .next t ∧ waits v t .enq ∧ onlyStrand v t v.meId ∧ t.die = v.die)
          ∧ (∀ n, v.malformedOffset cls ws v.cmdPart = none → (rel = true → storesDone v) → v.die.accepting sel v.me.id.owner v.cmdPart = some n →
              ∃ c : Cmd, exec i s = .next (retired (onDie v { v.die with cmds := v.die.cmds ++ [c] })) ∧ c.engine = 32 * cls + n ∧ c.words = ws
                ∧ c.owner = v.me.id.owner ∧ c.asid = v.me.xasid.toNat ∧ c.job = v.me.id.job.toNat ∧ c.part = v.cmdPart ∧ c.home = v.me.id.home
                ∧ c.gen = v.me.id.gen ∧ c.block = base ∧ c.done = none ∧ c.prog = 0 ∧ c.stale = if rel = true then [] else v.me.run.unfenced)))
  ∧ (∀ (d : Die) (sel o p n : Nat), d.accepting sel o p = some n → n ∈ d.admitted sel o ∧ 0 < d.freeSlotsOn p (sel / 32 % 8) n
      ∧ ∀ m ∈ d.admitted sel o, d.freeSlotsOn p (sel / 32 % 8) m ≤ d.freeSlotsOn p (sel / 32 % 8) n)
  ∧ (∀ (s : State) (e : Nat), s.me.run.wait = .enq → 0 < s.die.freeSlotsOn 0 (e / 32) (e % 32) →
      exec (.commandAccept e) s = .next (withDue s (.issue s.meId)))
  ∧ (∀ (s : State) (c : Cmd) (e : Nat) (i : Instr) (op : Nat), ferryEvent e op i → e < 32 → pending s.die e op c →
      (c.prog = 0 → c.runLen * c.runs = 0 → exec i s = .next (onDie s (finished s.die c 0 0 0)))
      ∧ (∀ d n, ferryPieceOf c c.prog s.die = some (n, d) → 0 < n → c.prog < c.runLen * c.runs → c.prog + n = c.runLen * c.runs →
          exec i s = .next (onDie s (finished d c 0 (c.prog + n) 0)))
      ∧ (op = 5 → c.prog < c.runLen → s.die.admits (tableOf (dw c.words 2 + c.prog) .lpddr) c.owner false = false →
          exec i s = .next (onDie s (s.die.setCmd c { c with done := some (6, c.prog, 0, dw c.words 2 + c.prog) }))))
  ∧ (∀ (s : State) (c : Cmd) (e : Nat) (bs out : List Byte) (d d' : Die), pending s.die (64 + e) 0 c → e < 32 → let p := Ldpc.ofCmd c.words
      probesOperands s.die c [(2, (p.k - p.f + 7) / 8, .read), (3, (p.e + 7) / 8, .write)] d → readsOperand d c 2 ((p.k - p.f + 7) / 8) bs d' →
      out = bitBytes (p.encode (unpackBits (p.k - p.f) bs)) →
      exec (.ldpcEncode (64 + e)) s = .next (onDie s (finished (d'.writeArg c 3 out) c 0 p.e 0)) ∧ out.length = (p.e + 7) / 8)
  ∧ (∀ (s : State) (c : Cmd) (e : Nat) (bs : List Byte) (d d' : Die), pending s.die (32 + e) 0 c → e < 32 → let p := Ldpc.ofCmd c.words
      let code := bits (dw c.words 1) 12 11
      let soft := p.soft (llrs bs) []
      let r := p.run code (bits (dw c.words 1) 46 41) 0 (soft.map fun x => (x.1 + 2 * p.z, x.2), [])
      let flags := r.2.1 + (if code ≠ 0 ∧ Ldpc.crcHolds code (p.info r.1) = true then 256 else 0) + (if p.parityHolds r.1 = true then 512 else 0)
      bits (dw c.words 1) 10 9 = 0 → probesOperands s.die c [(2, p.e, .read), (3, (p.k - p.f + 7) / 8, .write)] d → readsOperand d c 2 p.e bs d' →
      exec (.ldpcDecode (32 + e)) s = .next (onDie s (finished (d'.writeArg c 3 (bitBytes (p.info r.1))) c (if r.2.2 then 0 else 3) (p.k - p.f) flags)))
  ∧ (∀ (p : Ldpc) (code n it : Nat) (x : Ldpc.Soft × Ldpc.Soft), let r := p.run code n it x
      (r.2.2 = true → p.parityHolds r.1 = true ∧ Ldpc.crcHolds code (p.info r.1) = true ∧ r.2.1 ≤ it + n) ∧ (r.2.2 = false → r.2.1 = it + n))
  ∧ (∀ (s : State) (c : Cmd) (e : Nat) (bs out : List Byte) (d d' : Die), pending s.die (96 + e) 0 c → e < 32 → let p := Polar.ofCmd c.words
      probesOperands s.die c [(2, (p.k + 7) / 8, .read), (3, (p.e + 7) / 8, .write)] d → readsOperand d c 2 ((p.k + 7) / 8) bs d' →
      out = bitBytes (p.encode (unpackBits p.k bs)) →
      exec (.polarEncode (96 + e)) s = .next (onDie s (finished (d'.writeArg c 3 out) c 0 p.e 0)))
  ∧ (∀ (s : State) (c : Cmd) (e : Nat) (bs : List Byte) (d d' : Die), pending s.die (96 + e) 1 c → e < 32 → let p := Polar.ofCmd c.words
      let r := p.decode (llrs bs)
      probesOperands s.die c [(2, p.e, .read), (3, (p.k + 7) / 8, .write)] d → readsOperand d c 2 p.e bs d' →
      exec (.polarDecode (96 + e)) s = .next (onDie s (finished (d'.writeArg c 3 (bitBytes r.2.1)) c (if r.2.2 then 0 else 3) p.k
        (r.1 % 8 + if p.crc ≠ 0 ∧ Polar.crcHolds p.crc r.2.1 = true then 256 else 0)))
      ∧ (r.2.2 = true → Polar.crcHolds p.crc r.2.1 = true))
  ∧ (∀ (s : State) (c : Cmd) (e op : Nat) (i : Instr) (bs : List Byte) (d : Die), (op, i) ∈ [(0, .txUplane (128 + e)), (1, .txCplane (128 + e)),
      (2, .txRawFrame (128 + e))] → e < 32 → pending s.die (128 + e) op c → c.frame = [] →
      (windowEnd c < s.die.dtime → exec i s = .next (onDie s (finished s.die c 4 0 0)))
      ∧ (s.die.dtime ≤ windowEnd c → readsOperand s.die c 2 (dw c.words 4 % 2 ^ 32) bs d →
          ∃ t f, exec i s = .next t ∧ sameStrands s t ∧ t.die.mem = d.mem ∧ t.die.cmds = d.cmds.replace c { c with frame := f.map BitVec.toNat }
            ∧ let eaxc := bits (dw c.words 1) 47 32
              let flow := bits (dw c.words 1) 55 48
              let macs := Config.flowMac e flow ++ Config.portMac e
              let head (typ n : Nat) : List Byte := macs ++ Config.flowTag e flow ++ [0xAE, 0xFE, 0x10, BitVec.ofNat 8 typ, BitVec.ofNat 8 ((4 + n) / 256),
                BitVec.ofNat 8 (4 + n), BitVec.ofNat 8 (eaxc / 256), BitVec.ofNat 8 eaxc, BitVec.ofNat 8 (sget 0 d.ports.seqIds (65536 * e + eaxc) % 256), 0x80]
              (op = 0 → ∃ body, f = head 0 body.length ++ body)
              ∧ (op = 1 → f = head 2 bs.length ++ bs) ∧ (op = 2 → f = macs ++ bs)))
  ∧ (∀ (s : State) (c : Cmd) (e op : Nat), e < 32 → pending s.die (128 + e) op c →
      (windowEnd c < s.die.dtime → exec (.txLate (128 + e)) s = .next (onDie s (finished s.die c 4 0 0)))
      ∧ (s.die.dtime ≤ windowEnd c → exec (.txLate (128 + e)) s = .next s)
      ∧ (c.frame ≠ [] → dw c.words 3 ≤ s.die.dtime → s.die.dtime ≤ windowEnd c → let at_ := max (dw c.words 3) c.accepted
          exec (.txLaunch (128 + e)) s = .next (onDie s { finished s.die c 0 c.frame.length at_ with
            ports := { s.die.ports with frames := ⟨e, at_, c.frame⟩ :: s.die.ports.frames } })))
  ∧ (∀ (s : State) (pre post : List Cmd) (c : Cmd) (st prog info va : Nat) (j : Job), s.die.cmds = pre ++ c :: post →
      (∀ x ∈ pre, x.engine ≠ c.engine ∨ x.done = none) → c.done = some (st, prog, info, va) → s.die.job c.job = some j → j.gen ≠ 0 → j.state ≠ .ended →
      dw c.words 0 / 2 ^ 63 % 2 = 1 → (∀ p ∈ s.die.posted, p.source ≠ 2048 + c.engine) → let core := dw c.words 0 / 2 ^ 54 % 256
      (coreOf s core).offers = [] → handlersHeld (coreOf s core) < 16 →
      ∃ t m, exec (.commandCompletion c.engine) s = .next t ∧ sameStrands s t ∧ t.die.mem = s.die.mem ∧ t.die.cmds = pre ++ post
        ∧ (coreOf t core).handlers = (coreOf s core).handlers ++ [m] ∧ m.orig = 1 ∧ m.cont = false ∧ m.owner = c.owner ∧ m.asid = c.asid
        ∧ m.score = c.engine ∧ m.job = c.job ∧ m.target = 4 * (dw c.words 0 / 4 % 2 ^ 52)
        ∧ m.payload = [BitVec.ofNat 64 (st + 256 * (dw c.words 1 % 256) + 65536 * (dw c.words 1 / 65536 % 65536) + 2 ^ 32 * c.engine),
            BitVec.ofNat 64 prog, BitVec.ofNat 64 info, BitVec.ofNat 64 va, BitVec.ofNat 64 s.die.dtime, BitVec.ofNat 64 c.block])

/-- Barrel issue, vector instructions in flight, the special-function queue, and CSR writes as steps. FRONT_END_ISSUE hands the
next step to the ready strand of the core that issued least recently, the lowest among equals; REPETITION_REISSUE to the next
re-issue of a running repetition; VECTOR_BEAT to the next element group, row or whole of an instruction of the queue that can go
on. VECTOR_INSTRUCTION_START starts the oldest instruction of the queue that has not started, if none of its class runs: its PIX
is valid with its vd and IDX, and the next step makes the probe of one that has not settled, or completes an indivisible one.
VECTOR_LOAD_DATA_RETURN lets the load go on, marking the word or sector of an error. VFORK_SPLIT of a waiting VFORK with strands
free is that VFORK. SFU_REQUEST_SEND, with fewer than eight tokens out, sends a request of at most 16 active elements (fewer only
at the end); SFU_SERVICE_START begins the oldest request of the cluster; SFU_RESULT_RETURN frees its token and lets its elements
be written, or with an uncorrectable error drops the requests of its instruction, which then traps (SE = 0) or whose job is
abandoned after an error record (SE = 1). VL_WRITE, VMC_WRITE and FCSR_WRITE store their fields, VL at most its maximum and RND
kept where reserved; XASID_WRITE stores its field once the vector queue is empty and no walk of the strand is in progress, and
nothing before. (R20; R22; R24; R25; R123; R175; R207; R219; R220; R223; R275; R276) -/
def Obligations.IssueVectorAndCsrEvents : Prop :=
  (∀ (s : State) (core : Nat), let ready (i : Nat) : Prop := i / 8 = core ∧ (s.strand i).id.kind ≠ .free ∧ (s.strand i).run.wait = .ready
      let last (i : Nat) : Nat := (s.strand i).run.lastIssue
      (∀ i, ready i → (∀ j, ready j → j ≠ i → last i < last j ∨ (last i = last j ∧ i < j)) →
        exec (.frontEndIssue core) s = .next (withDue s (.issue i)))
      ∧ ((∀ i, ¬ready i) → exec (.frontEndIssue core) s = .next s))
  ∧ (∀ (s : State) (i : Nat), ((s.strand i).ctx.rep.running = true → exec (.repetitionReissue i) s = .next (withDue s (.reissue i)))
      ∧ ((s.strand i).ctx.rep.running = false → exec (.repetitionReissue i) s = .next s)
      ∧ ((s.strand i).ctx.queue = [] → exec (.vectorBeat i) s = .next s)
      ∧ (s.beatSlots i ≠ [] → ∃ q ∈ s.beatSlots i, exec (.vectorBeat i) s = .next (withDue s (.beat i q.num ((s.strand i).ctx.beatEnd q))))
      ∧ (∀ q, (s.strand i).ctx.queue = [q] → q.started = true → (∀ r ∈ s.die.sfu, r.strand ≠ i) →
          let k := 16 * ((List.range 4).filter fun g => (s.strand i).ctx.gm.getLsbD g).length
          (stepsOf q.word = .elements ∨ stepsOf q.word = .across ∨ stepsOf q.word = .memory →
            exec (.vectorBeat i) s = .next (withDue s (.beat i q.num (min q.vl ((q.idx / k + 1) * k)))))
          ∧ (stepsOf q.word = .rows → exec (.vectorBeat i) s = .next (withDue s (.beat i q.num (min q.vl (q.idx + 1)))))
          ∧ (stepsOf q.word = .whole → exec (.vectorBeat i) s = .next (withDue s (.beat i q.num q.vl)))))
  ∧ (∀ (s : State) (i : Nat) (pre post : List Slot) (q : Slot), let c := (s.strand i).ctx
      let begun : State := s.setStrand i { s.strand i with ctx := c.setSlot { q with started := true } }
      ((∀ x ∈ c.queue, x.started = true) → exec (.vectorInstructionStart i) s = .next s)
      ∧ (c.queue = pre ++ q :: post → (∀ x ∈ pre, x.started = true) → q.started = false →
          (∀ x ∈ c.queue, x.started = true → queueClass x.word ≠ queueClass q.word) →
          sget 0 (c.setSlot { q with started := true }).pix q.num = BitVec.ofNat 18 (2 ^ 17 + 4096 * (destReg q.word).getD 0 + q.shown % 4096)
          ∧ (indivisible q.word = false → q.settled = true → exec (.vectorInstructionStart i) s = .next begun)
          ∧ (indivisible q.word = false → q.settled = false → exec (.vectorInstructionStart i) s = .next (withDue begun (.probe i q.num)))
          ∧ (indivisible q.word = true → pre = [] → exec (.vectorInstructionStart i) s = .next (withDue begun (.beat i q.num q.vl)))))
  ∧ (∀ (s : State) (i e a : Nat), (s.strand i).id.kind ≠ .free → (s.strand i).run.wait ≠ .stopped → (s.strand i).run.wait ≠ .exit →
      let next : Due := if (s.strand i).ctx.queue = [] then .issue i else .vector i
      exec (.vectorLoadDataReturn i e 0) s = .next (withDue s next)
      ∧ (a ≠ 0 → nearBanked s.die a = true → exec (.vectorLoadDataReturn i e a) s = .next (withDue
          (onDie s { s.die with mem := { s.die.mem with errs := sset false s.die.mem.errs (errSector a) true } }) next))
      ∧ (∀ core off, s.die.target a = .clm core off → a ≠ 0 → exec (.vectorLoadDataReturn i e a) s = .next (withDue
          (onDie s { s.die with mem := { s.die.mem with errs := sset false s.die.mem.errs (a / 8) true } }) next)))
  ∧ (∀ (s : State) (i : Instr) (n : Nat), (i = .vfork2 ∧ n = 2) ∨ (i = .vfork4 ∧ n = 4) → s.me.ctx.gm ≠ 0 → s.me.ctx.fork.n = 0 →
      n ≤ s.me.ctx.k → s.me.ctx.g = 1 → s.me.ctx.vstart = 0 → s.me.id.kind ≠ .free → s.me.run.wait = .fork → s.me.run.forkN = n →
      (∀ j, j / 8 = s.meId / 8 → j ≠ s.meId → s.strand j = Strand.empty) → (s.coreS (s.meId / 8)).reservations = [] →
      ∃ t, exec (.vforkSplit s.meId) s = .next t ∧ exec i s = .next t ∧ t.me.pc = s.me.pc + 4 ∧ t.me.ctx.fork = ⟨n, 0, s.meId, s.me.ctx.gm⟩)
  ∧ (∀ (s : State) (core i : Nat) (q : Slot), s.sfuSender core = some (i, q) → (s.die.sfu.filter fun r => r.strand / 8 == core).length < 8 →
      ∃ r : SfuReq, exec (.sfuRequestSend core) s = .next (onDie s { s.die with sfu := s.die.sfu ++ [r] }) ∧ r.strand = i ∧ r.num = q.num
        ∧ r.served = false ∧ r.upTo ≤ q.vl ∧ r.age = q.entered
        ∧ (let sent := q.sfuPer * ((s.sfuLeft i q).filter fun n => decide (n < r.upTo)).length
           0 < sent ∧ sent ≤ 16 ∧ ((∃ n ∈ s.sfuLeft i q, r.upTo ≤ n) → sent = 16)))
  ∧ (∀ (s : State) (c : Nat), (∀ r ∈ s.die.sfu, r.strand / 32 = c → r.served = true) → exec (.sfuServiceStart c) s = .next s)
  ∧ (∀ (s : State) (c : Nat) (r : SfuReq), r ∈ s.die.sfu → r.strand / 32 = c → r.served = false →
      (∀ x ∈ s.die.sfu, x ≠ r → x.strand / 32 = c → x.served = false → r.age < x.age) →
      exec (.sfuServiceStart c) s = .next (onDie s { s.die with sfu := s.die.sfu.map fun x => if x = r then { x with served := true } else x }))
  ∧ (∀ (s : State) (r : SfuReq) (rest : List SfuReq), s.die.sfu = r :: rest → r.served = true →
      let t := s.strand r.strand
      let dropped := onDie s { s.die with sfu := s.die.sfu.filter fun x => !(x.strand == r.strand && x.num == r.num) }
      exec (.sfuResultReturn (r.strand / 32, false)) s = .next (withDue (onDie s { s.die with sfu := rest }) (.beat r.strand r.num r.upTo))
      ∧ ((∀ q ∈ t.ctx.queue, q.num ≠ r.num) → exec (.sfuResultReturn (r.strand / 32, true)) s = .next dropped)
      ∧ (∀ q, t.ctx.slot r.num = some q → q.vmc.getLsbD 6 = false → exec (.sfuResultReturn (r.strand / 32, true)) s = .next
          (withDue (dropped.setStrand r.strand { t with ctx := t.ctx.setSlot { q with error := true } }) (.beat r.strand r.num q.vl)))
      ∧ (∀ q, t.ctx.slot r.num = some q → q.vmc.getLsbD 6 = true → exec (.sfuResultReturn (r.strand / 32, true)) s = .next
          ((onDie dropped (dropped.die.errorRecord 0x70 r.strand 0)).abandon t.id.job.toNat 2 2)))
  ∧ (∀ (s : State) (i v : Nat), v < 2 ^ 64 →
      let t := s.strand i
      let k := ((List.range 4).filter fun b => t.ctx.gm.getLsbD b).length
      (t.ctx.gm ≠ 0 → (∃ x, exec (.vlWrite i v) s = .next x ∧ onlyStrand s x i ∧ x.die = s.die
          ∧ x.strand i = { t with ctx := { t.ctx with vl := min v (2 ^ (t.ctx.vmc.toNat / 16 % 4) * (64 * k)) } })
        ∧ ∃ x, exec (.vmcWrite i v) s = .next x ∧ onlyStrand s x i ∧ x.die = s.die
          ∧ x.strand i = { t with ctx := { t.ctx with vmc := BitVec.ofNat 7 v, vl := min t.ctx.vl (2 ^ (v / 16 % 4) * (64 * k)) } })
      ∧ (∃ x, exec (.fcsrWrite i v) s = .next x ∧ onlyStrand s x i ∧ x.die = s.die
          ∧ x.strand i = { t with fcsr := BitVec.ofNat 9 (if v / 128 % 2 = 1 then v % 32 + t.fcsr.toNat / 32 % 8 * 32 + v / 256 % 2 * 256 else v) })
      ∧ (t.ctx.busy = true ∨ (∃ e ∈ s.die.walks, e.1 = i) → exec (.xasidWrite i v) s = .next s)
      ∧ (t.ctx.busy = false → (∀ e ∈ s.die.walks, e.1 ≠ i) → ∃ x, exec (.xasidWrite i v) s = .next x ∧ onlyStrand s x i ∧ x.die = s.die
          ∧ x.strand i = { t with xasid := BitVec.ofNat 16 v }))

/-- Requests at the banks, owner scrubs, errors and the size of the CSM, and the bandwidth regulators. A request at a CLM, CSP or
CSM bank is the read or write of MemoryReads and MemoryWrites, and a refusal is an error record. A request for a sector that the
L2 does not hold, with a way free, brings it into a free way for the owner, dirty for a write, and leaves the contents.
NEAR_BANK_OPERATION performs its atomic on a word of LPDDR 6 or CSM. OWNER_SCRUB zeroes a granule whose clean bit is 0 and sets
the bit, or changes nothing. A patrol visit that finds nothing changes nothing; a correctable error is counted in CORR up to 127;
an uncorrectable one drops a clean sector and holds a dirty one, recorded in L2ERR. L2ERR_DISCARD clears the record and zeroes a
CSM sector that is still held, frees a set, or puts back what LPDDR 6 held. L2CFG takes a CSM size of 0 to 8 while CHG is 0, sets
CHG, and the ways that move lose their contents; CSM_RESIZE_COMPLETE clears CHG. Token fills stop at BURST (64 for 0); a sector
takes a floor token and, under a ceiling, a ceiling token, or is counted as delayed. (R227; R280; R302; R307; R308; R309; R310;
R312; R313; R426; R427) -/
def Obligations.MemoryEvents : Prop :=
  (∀ (s : State) (i : Instr) (pa o : Nat) (data : List Nat), o < 512 → (∃ n off, n < 256 ∧ off < 0x40000 ∧ i = .clmBankAccess n off o data
        ∧ pa = 0x120000000000 + 0x40000 * n + off) ∨ (∃ n off, n < 64 ∧ off < 0x200000 ∧ i = .cspBankAccess n off o data
        ∧ pa = 0x110000000000 + 0x200000 * n + off) ∨ (∃ off, off < 0x8000000 ∧ i = .csmAccess off o data ∧ pa = 0x100000000000 + off) →
      (∀ bs d, data = [] → s.die.physRead o pa 8 = .ok (bs, d) → exec i s = .next (onDie s d))
      ∧ (∀ e, data = [] → s.die.physRead o pa 8 = .error e → exec i s = .next (onDie s (s.die.errorRecord e 2048 pa)))
      ∧ (∀ d, data ≠ [] → data.length ≤ 128 - pa % 128 → s.die.physWrite o pa (data.map (BitVec.ofNat 8)) = .ok d → exec i s = .next (onDie s d))
      ∧ (∀ e, data ≠ [] → data.length ≤ 128 - pa % 128 → s.die.physWrite o pa (data.map (BitVec.ofNat 8)) = .error e →
          exec i s = .next (onDie s (s.die.errorRecord e 2048 pa))))
  ∧ (∀ (s : State) (i : Instr) (pa o : Nat) (w : Bool), o < 512 → i = .l2BankAccess pa o w ∨ (i = .l2FillReturn pa o ∧ w = false) →
      s.die.target pa = .lpddr →
      (s.die.admits (l2Bank pa) o w = false → exec i s = .next (onDie s (s.die.errorRecord 0x12 2048 pa)))
      ∧ (s.die.admits (l2Bank pa) o w = true → s.die.admits (0x400 + lpController pa) o false = true →
          sget false s.die.mem.errs (errSet (l2Bank pa) (l2Set pa)) = false → sget false s.die.mem.errs (errSector pa) = false →
          sget Line.none s.die.mem.lines (pa / 512) = Line.none → (s.die.mem.inSet pa).length + s.die.csmWays < 12 →
          let bit : BitVec 4 := BitVec.twoPow 4 (pa / 128 % 4)
          ∃ t way, exec i s = .next t ∧ sameStrands s t ∧ way < 12 - s.die.csmWays ∧ (∀ e ∈ s.die.mem.inSet pa, e.2.way ≠ way)
            ∧ sget Line.none t.die.mem.lines (pa / 512) = ⟨way, s.die.mem.uses + 1, o, bit, if w then bit else 0, 0⟩
            ∧ (∀ n, n ≠ pa / 512 → sget Line.none t.die.mem.lines n = sget Line.none s.die.mem.lines n)
            ∧ t.die.reg (telemetry o 0x10) = (s.die.reg (telemetry o 0x10) + 128) % 2 ^ 64
            ∧ (∀ a, t.die.mem.lpByte o a = s.die.mem.lpByte o a) ∧ (w = false → t.die.mem.bytes = s.die.mem.bytes ∧ t.die.mem.keys = s.die.mem.keys)))
  ∧ (∀ (s : State) (pa o op x : Nat), o < 512 → let a := pa / 4 * 4
      (nearBanked s.die a = false → exec (.nearBankOperation pa o op x) s = .next s)
      ∧ (∀ old d, nearBanked s.die a = true → s.die.amoAt o a 4 (Amo.ofVector op) (x % 2 ^ 32) 0 = .ok (old, d) →
          exec (.nearBankOperation pa o op x) s = .next (onDie s d))
      ∧ (∀ e, nearBanked s.die a = true → s.die.amoAt o a 4 (Amo.ofVector op) (x % 2 ^ 32) 0 = .error e →
          exec (.nearBankOperation pa o op x) s = .next (onDie s (s.die.errorRecord e 2048 a))))
  ∧ (∀ (s : State) (g : Nat), let dirty (d : Die) : Bool := (sget 0 d.mem.unclean (g / 64)).getLsbD (g % 64)
      (dirty s.die = false → exec (.ownerScrub g) s = .next s)
      ∧ (dirty s.die = true → ∃ t, exec (.ownerScrub g) s = .next t ∧ sameStrands s t ∧ dirty t.die = false
          ∧ (∀ a, sget 0 t.die.mem.bytes a = if a / 64 = g then 0 else sget 0 s.die.mem.bytes a) ∧ t.die.mem.otags = s.die.mem.otags
          ∧ ∀ a, t.die.mem.dieByte a = s.die.mem.dieByte a))
  ∧ (∀ (s : State) (b pa : Nat), b < 128 → let err := 0x200002001000 + 8 * b
      exec (.l2PatrolScrub b pa 0) s = .next s
      ∧ ∃ t, exec (.l2PatrolScrub b pa 1) s = .next t ∧ sameStrands s t ∧ t.die.mem = s.die.mem ∧ t.die.errlog = s.die.errlog
          ∧ t.die.reg err / 128 = s.die.reg err / 128 ∧ t.die.reg err % 128 = Nat.min 127 (s.die.reg err % 128 + 1)
          ∧ ∀ a, a ≠ err → t.die.reg a = s.die.reg a)
  ∧ (∀ (s : State) (b pa : Nat), s.die.target pa = .lpddr → let l := sget Line.none s.die.mem.lines (pa / 512)
      let bit : BitVec 4 := BitVec.twoPow 4 (pa / 128 % 4)
      let after (t : State) : Line := sget Line.none t.die.mem.lines (pa / 512)
      let err := 0x200002001000 + 8 * l2Bank pa
      (l.valid.getLsbD (pa / 128 % 4) = false → exec (.l2PatrolScrub b pa 2) s = .next s)
      ∧ (l.valid.getLsbD (pa / 128 % 4) = true → l.dirty.getLsbD (pa / 128 % 4) = false → ∃ t, exec (.l2PatrolScrub b pa 2) s = .next t
          ∧ sameStrands s t ∧ (after t).valid = l.valid &&& ~~~bit ∧ t.die.mem.bytes = s.die.mem.bytes ∧ t.die.errlog = s.die.errlog)
      ∧ (l.valid.getLsbD (pa / 128 % 4) = true → l.dirty.getLsbD (pa / 128 % 4) = true → s.die.reg 0x20000A000200 % 2 = 0 → ∃ t, exec (.l2PatrolScrub b pa 2) s = .next t
          ∧ sameStrands s t ∧ after t = { l with held := l.held ||| bit } ∧ t.die.errlog = ⟨0x70, 2048, 128 * (pa / 128)⟩ :: s.die.errlog
          ∧ (s.die.reg err / 2 ^ 63 = 0 → t.die.reg err / 2 ^ 60 = 0xD)))
  ∧ (∀ (s : State) (b : Nat), b < 128 → let err := 0x200002001000 + 8 * b
      let x := s.die.reg err
      let sect := x / 2 ^ 7 % 2 ^ 41
      let i : Instr := .l2errDiscard b
      (x / 2 ^ 63 = 0 → exec i s = .next s)
      ∧ (x / 2 ^ 63 = 1 → ∃ t, exec i s = .next t ∧ sameStrands s t ∧ t.die.reg err = x % 128 ∧ regsKept s.die t.die [err]
          ∧ (x / 2 ^ 60 % 4 = 2 → sget false s.die.mem.errs (errSector (128 * sect)) = false → t.die.mem = s.die.mem)
          ∧ (x / 2 ^ 60 % 4 = 2 → sget false s.die.mem.errs (errSector (128 * sect)) = true → (∀ a, sget 0 t.die.mem.bytes a = if a / 128 = sect then 0 else sget 0 s.die.mem.bytes a)
              ∧ sget false t.die.mem.errs (errSector (128 * sect)) = false)
          ∧ (x / 2 ^ 60 % 4 = 3 → sget false t.die.mem.errs (errSet b (sect % 256)) = false ∧ t.die.mem.bytes = s.die.mem.bytes)
          ∧ (let l := sget Line.none s.die.mem.lines (sect / 4)
             let old := sget [] s.die.mem.under sect
             x / 2 ^ 60 % 4 = 1 → l.held.getLsbD (sect % 4) = true → old.length = 136 →
              (sget Line.none t.die.mem.lines (sect / 4)).valid.getLsbD (sect % 4) = false
              ∧ (∀ k < 128, sget 0 t.die.mem.bytes (128 * sect + k) = BitVec.ofNat 8 (old.getD k 0))
              ∧ (∀ k < 8, sget 0 t.die.mem.keys (8 * sect + k) = old.getD (128 + k) 0)
              ∧ ∀ a, a / 128 ≠ sect → sget 0 t.die.mem.bytes a = sget 0 s.die.mem.bytes a)))
  ∧ (∀ (s : State) (v : Nat), let x := s.die.reg 0x200002000000
      let w := v % 16
      let old := x % 16
      (8 < w ∨ x / 256 % 2 = 1 ∨ w = old → exec (.l2cfgCsmwWrite v) s = .next s)
      ∧ (w ≤ 8 → x / 256 % 2 = 0 → w ≠ old → ∃ t, exec (.l2cfgCsmwWrite v) s = .next t ∧ sameStrands s t
          ∧ t.die.reg 0x200002000000 = 256 + w
          ∧ (∀ off, 0x1000000 * min w old ≤ off → off < 0x1000000 * max w old → sget 0 t.die.mem.bytes (0x100000000000 + off) = 0)
          ∧ (w < old → t.die.mem.lines = s.die.mem.lines ∧ ∀ a, a < 0x100000000000 ∨ 0x100008000000 ≤ a →
              sget 0 t.die.mem.bytes a = sget 0 s.die.mem.bytes a)))
  ∧ (∀ s : State, ∃ t, exec .csmResizeComplete s = .next t ∧ sameStrands s t ∧ t.die.mem = s.die.mem ∧ regsKept s.die t.die [0x200002000000]
      ∧ t.die.reg 0x200002000000 / 256 % 2 = 0 ∧ t.die.reg 0x200002000000 % 256 = s.die.reg 0x200002000000 % 256)
  ∧ (∀ (s : State) (c o : Nat), c < 8 → o < 512 → let r := s.die.reg (0x200008000000 + 0x1000 * c + 8 * o)
      let b := sget (0, 0) s.die.tokens (512 * c + o)
      let depth := if r / 2 ^ 32 % 65536 = 0 then 64 else r / 2 ^ 32 % 65536
      exec (.regulatorTokenFill c o) s = .next (onDie s { s.die with
        tokens := sset (0, 0) s.die.tokens (512 * c + o) (min depth (b.1 + r % 65536), min depth (b.2 + r / 2 ^ 16 % 65536)) })
      ∧ (r / 2 ^ 16 % 65536 ≠ 0 → b.2 = 0 →
          exec (.lpddrSectorService c o) s = .next (onDie s (s.die.addReg (telemetry o 0x58) 1)))
      ∧ (r / 2 ^ 16 % 65536 = 0 → exec (.lpddrSectorService c o) s = .next (onDie s { s.die with
          tokens := sset (0, 0) s.die.tokens (512 * c + o) (b.1 - 1, b.2) }))
      ∧ (r / 2 ^ 16 % 65536 ≠ 0 → b.2 ≠ 0 → exec (.lpddrSectorService c o) s = .next (onDie s { s.die with
          tokens := sset (0, 0) s.die.tokens (512 * c + o) (b.1 - 1, b.2 - 1) })))
  ∧ (∀ (s : State) (sector : Nat), exec (.lpddrPatrolScrub sector) s = .next s)

/-- Posting, deciding and completing a Clearance order, and the rescaling when a cluster or a channel retires. GO on a slot whose
order is active does nothing. An order that a check of R409 rejects leaves STATE 3 and WHY, and nothing else changes; one that
passes, on a die whose jobs have all ended and with the report log off, leaves STATE 1, SEQ one more, and W and B in CLRWB. A
decision with no job on a named core changes no job. With one, the job runs on where E plus MARGIN fits into H - B - DTIME; is
marked for a checkpoint where it has no PIN, LATCH or HOST, the free slots suffice and the save fits in every cluster; and is
abandoned as CLEARED with cause 4 otherwise. At H - B an order without a late job only moves on; a late RUN job is abandoned. At H
commands in named slots end DENIED with the progress they have, the rings of named clusters are disabled, the source and its VFs
lose every access bit of the named targets, and no L2 line of a named colour without a held error is left. At DL clusters, colours
and the slot counts of the named classes move to DST, STATE is 2 and the order is gone. When a cluster retires that no order
names, or a channel, and the rates pass what is left, each Q or MIN becomes what R419 gives it; otherwise nothing is rescaled.
(R403; R405; R408; R409; R412; R413; R414; R415; R419; R428) -/
def Obligations.ClearanceOrders : Prop :=
  (∀ (s : State) (p : Nat), 1 ≤ p → p ≤ 12 → let i : Instr := .clearanceGo p
      let ctl := s.die.reg (slotCtl p)
      (activeOrder s.die p → exec i s = .next s)
      ∧ (¬activeOrder s.die p → orderWhy s.die p ≠ 0 → ∃ t, exec i s = .next t ∧ sameStrands s t
          ∧ t.die = { s.die with mmio := t.die.mmio } ∧ regsKept s.die t.die [slotCtl p] ∧ t.die.reg (slotCtl p) / 2 ^ 12 = ctl / 2 ^ 12
          ∧ regField t.die (slotCtl p) 8 4 = 3 ∧ regField t.die (slotCtl p) 4 4 = orderWhy s.die p ∧ regField t.die (slotCtl p) 0 4 = ctl % 16)
      ∧ (¬activeOrder s.die p → orderWhy s.die p = 0 → (∀ e ∈ s.die.jobs, e.2.state = .ended) → regField s.die 0x200007001000 0 1 = 0 →
          ∃ t, exec i s = .next t ∧ sameStrands s t ∧ t.die = { s.die with mmio := t.die.mmio, orders := t.die.orders }
            ∧ regsKept s.die t.die [slotCtl p, slot p + 0x20] ∧ t.die.reg (slot p + 0x20) = orderB s.die p * 2 ^ 32 + orderW s.die p
            ∧ t.die.reg (slotCtl p) / 2 ^ 24 = ctl / 2 ^ 24 ∧ regField t.die (slotCtl p) 16 8 = (regField s.die (slotCtl p) 16 8 + 1) % 256
            ∧ regField t.die (slotCtl p) 8 4 = 1 ∧ regField t.die (slotCtl p) 4 4 = 0 ∧ orderOf t.die p = ⟨s.die.dtime, 1, []⟩))
  ∧ (∀ (s : State) (p : Nat), let i : Instr := .clearanceDecision p
      let o := orderOf s.die p
      (o.stage ≠ 1 → exec i s = .next s)
      ∧ (o.stage = 1 → (∀ e ∈ s.die.jobs, e.2.live = true → ¬holdsNamed s p (handleOf e)) → ∃ t, exec i s = .next t ∧ sameStrands s t
          ∧ t.die = { s.die with orders := t.die.orders } ∧ orderOf t.die p = { o with stage := 2 })
      ∧ (∀ e, o.stage = 1 → (s.die.jobs.filter fun e => e.2.live && decide (holdsNamed s p (handleOf e))) = [e] → regField s.die 0x200007001000 0 1 = 0 →
          s.die.job (handleOf e) = some e.2 →
          let h := handleOf e
          let m := s.manifest h e.2
          let c := (e.2.root.map fun r => (s.strand r).ctx).getD VCtx.absent
          let est := estimateOf s e.2 m c
          let lim : Int := (orderH s.die p : Int) - s.die.dtime - orderB s.die p
          let mar := if regField s.die (slotCtl p) 34 6 = 0 then 2000 else 1000 * regField s.die (slotCtl p) 34 6
          let bw : Nat := if regField s.die (slotCtl p) 40 8 = 0 then 32 else regField s.die (slotCtl p) 40 8
          let runs := ∃ x, est = some x ∧ ((x + mar : Nat) : Int) ≤ lim
          let saves := e.2.pin = false ∧ m.latch = false ∧ m.host = false ∧ e.2.state = .running
            ∧ (s.strandsOf h).length + s.setAside p ≤ (s.die.freeSlots p).length
            ∧ (s.strandsOf h ≠ [] → (m.dplus : Int) + 2000 * bw ≤ lim * bw)
          let pick (k : Nat) : Pick := ⟨h, k, s.die.dtime, est.getD (2 ^ 32 - 1), m.dplus, m.k, 0, false⟩
          let taken (k : Nat) : State := onDie s { s.die with orders := sset ⟨0, 0, []⟩ s.die.orders p { o with picks := o.picks ++ [pick k] } }
          (runs → exec i s = .next ((taken 0).setStage p 2))
          ∧ (¬runs → saves → exec i s = .next (((taken 1).modDie fun d => d.modJob h fun j => { j with preempt := 2 }).setStage p 2))
          ∧ (¬runs → ¬saves → exec i s = .next (((taken 2).abandon h 4 4).setStage p 2))))
  ∧ (∀ (s : State) (p : Nat), let i : Instr := .clearanceStopPoint p
      let o := orderOf s.die p
      let late (x : Pick) : Prop := x.closed = false ∧ ∃ j, s.die.job x.job = some j ∧ j.live = true
        ∧ if x.kind = 1 then j.preempt = 2 else holdsNamed s p x.job
      (o.stage ≠ 2 ∨ s.die.dtime < orderH s.die p - orderB s.die p → exec i s = .next s)
      ∧ (o.stage = 2 → orderH s.die p - orderB s.die p ≤ s.die.dtime →
          ((∀ x ∈ o.picks, ¬late x) → exec i s = .next (s.setStage p 3))
          ∧ (∀ x, o.picks = [x] → x.kind = 0 → late x → exec i s = .next
              (((onDie s { s.die with orders := sset ⟨0, 0, []⟩ s.die.orders p { o with picks := [{ x with overran := 4 }] } }).abandon x.job 4 4).setStage p 3))))
  ∧ (∀ (s : State) (p : Nat), let i : Instr := .clearanceHorizon p
      let o := orderOf s.die p
      let cl := s.die.reg (slot p)
      let held (c : Cmd) : Prop := c.part = p ∧ ∃ e, (engineFields s.die)[c.engine / 32]? = some e
        ∧ (regField s.die (slot p + 8) e.2.1 e.2.2.1).testBit (c.engine % 32) = true
      (o.stage ≠ 3 ∨ s.die.dtime < orderH s.die p → exec i s = .next s)
      ∧ (o.stage = 3 → orderH s.die p ≤ s.die.dtime → ∃ t, exec i s = .next t ∧ sameStrands s t ∧ orderOf t.die p = { o with stage := 4 }
          ∧ t.die.jobs = s.die.jobs ∧ t.die.cores = s.die.cores ∧ t.die.cmds.length = s.die.cmds.length
          ∧ (∀ (n : Nat) (c : Cmd), s.die.cmds[n]? = some c → (held c → c.done = none → t.die.cmds[n]? = some { c with done := some (6, c.prog, 0, dw c.words 3) })
              ∧ (¬held c ∨ c.done ≠ none → t.die.cmds[n]? = some c))
          ∧ (∀ c r, c < 64 → r < 16 → cl.testBit c = true → regField t.die (0x200001000000 + 0x10000 * c + 0x100 * r) 8 1 = 0)
          ∧ (∀ c v w, c < 64 → v < 256 → cl.testBit c = true → regField s.die (0x200006110000 + 8 * v) 0 4 = p →
              t.die.admits (0x100 + c) (0x100 + v) w = false ∧ t.die.admits (0x480 + c) (0x100 + v) w = false
              ∧ ∀ k < 4, t.die.admits (0x200 + 4 * c + k) (0x100 + v) w = false ∧ t.die.admits (0x300 + 4 * c + k) (0x100 + v) w = false)
          ∧ (∀ b v w, b < 128 → v < 256 → (regField s.die (slotCtl p) 48 16).testBit (b / 8) = true → regField s.die (0x200006110000 + 8 * v) 0 4 = p →
              t.die.admits b (0x100 + v) w = false)
          ∧ ∀ n, (regField s.die (slotCtl p) 48 16).testBit (n / 4096 % 16) = true → (sget Line.none s.die.mem.lines n).held = 0 →
              sget Line.none t.die.mem.lines n = Line.none))
  ∧ (∀ (s : State) (p : Nat), 1 ≤ p → p ≤ 12 → let i : Instr := .clearanceVacancy p
      let o := orderOf s.die p
      let q := regField s.die (slotCtl p) 24 4
      let col := regField s.die (slotCtl p) 48 16
      (o.stage ≠ 4 ∨ s.die.dtime < s.die.reg (slot p + 16) → exec i s = .next s)
      ∧ (o.stage = 4 → s.die.reg (slot p + 16) ≤ s.die.dtime → 1 ≤ q → q ≤ 12 → q ≠ p → regField s.die 0x200007001000 0 1 = 0 →
          ∃ t, exec i s = .next t ∧ sameStrands s t ∧ t.die = { s.die with mmio := t.die.mmio, orders := t.die.orders }
            ∧ regsKept s.die t.die [pclu p, pclu q, pres p, pres q, slotCtl p] ∧ orderOf t.die p = ⟨0, 0, []⟩ ∧ regField t.die (slotCtl p) 8 4 = 2
            ∧ (∀ b < 64, (t.die.reg (pclu q)).testBit b = ((s.die.reg (pclu q)).testBit b || (s.die.reg (slot p)).testBit b)
                ∧ (t.die.reg (pclu p)).testBit b = ((s.die.reg (pclu p)).testBit b && !(s.die.reg (slot p)).testBit b))
            ∧ (∀ b < 16, (t.die.reg (pres q)).testBit b = ((s.die.reg (pres q)).testBit b || col.testBit b)
                ∧ (t.die.reg (pres p)).testBit b = ((s.die.reg (pres p)).testBit b && !col.testBit b))
            ∧ ∀ e ∈ engineFields s.die, let a := regField s.die (pres q) e.1 6
                let b := regField s.die (pres p) e.1 6
                if regField s.die (slot p + 8) e.2.1 e.2.2.1 = 0 then regField t.die (pres q) e.1 6 = a ∧ regField t.die (pres p) e.1 6 = b
                else a + b < 64 → regField t.die (pres q) e.1 6 = a + b ∧ regField t.die (pres p) e.1 6 = 0))
  ∧ (∀ (s : State) (c : Nat), c < 64 → (∀ p, 1 ≤ p → p ≤ 12 → activeOrder s.die p → (s.die.reg (slot p)).testBit c = false) →
      let i : Instr := .clusterRetirement c
      let r := onDie s { s.die with retired := c :: s.die.retired }
      ((∀ p, 1 ≤ p → p ≤ 12 → (s.die.reg (pclu p)).testBit c = false) → exec i s = .next r)
      ∧ (∀ p, 1 ≤ p → p ≤ 12 → (s.die.reg (pclu p)).testBit c = true → (∀ q, 1 ≤ q → q < p → (s.die.reg (pclu q)).testBit c = false) →
          let us := (serversOf s.die p).map (serverRate s.die)
          let cap := 4 * (List.range 256).countP fun n => (s.die.reg (pclu p)).testBit (n / 4) && !decide (n % 32 = 0 ∧ n / 32 < s.die.width)
            && !(c :: s.die.retired).contains (n / 4)
          (¬overCommitted cap 1 us → exec i s = .next r)
          ∧ (overCommitted cap 1 us → regField s.die 0x200007001000 0 1 = 0 → ∃ t, exec i s = .next t ∧ sameStrands s t
              ∧ t.die = { r.die with mmio := t.die.mmio } ∧ regsKept s.die t.die ((serversOf s.die p).map fun v => 0x200004000000 + 32 * v)
              ∧ ∀ v ∈ serversOf s.die p, let a := 0x200004000000 + 32 * v
                  regField t.die a 16 16 = rescaledQ cap 1 us (serverRate s.die v) % 2 ^ 16
                  ∧ t.die.reg a / 2 ^ 32 = s.die.reg a / 2 ^ 32 ∧ t.die.reg a % 2 ^ 16 = s.die.reg a % 2 ^ 16)))
  ∧ (∀ (s : State) (c : Nat), c < 8 → let i : Instr := .channelRetirement c
      let n := min 4 (sget 0 s.die.lost c + 1)
      let mreg (o : Nat) : Nat := 0x200008000000 + 0x1000 * c + 8 * o
      let os := (List.range 512).filter fun o => regField s.die (mreg o) 0 16 != 0
      let rate (o : Nat) : Nat × Nat × Nat := (regField s.die (mreg o) 0 16, 1,
        if 256 ≤ o then regField s.die (0x200006110000 + 8 * (o - 256)) 5 2 else 0)
      let r := onDie s { s.die with lost := sset 0 s.die.lost c n }
      (¬overCommitted (30375 * (4 - n)) 100 (os.map rate) → exec i s = .next r)
      ∧ (overCommitted (30375 * (4 - n)) 100 (os.map rate) → regField s.die 0x200007001000 0 1 = 0 → ∃ t, exec i s = .next t ∧ sameStrands s t
          ∧ t.die = { r.die with mmio := t.die.mmio } ∧ regsKept s.die t.die (os.map mreg)
          ∧ ∀ o ∈ os, regField t.die (mreg o) 0 16 = rescaledQ (30375 * (4 - n)) 100 (os.map rate) (rate o) % 2 ^ 16
              ∧ t.die.reg (mreg o) / 2 ^ 16 = s.die.reg (mreg o) / 2 ^ 16))

/-- Writes of the partition registers, access tables, keys, regulators, the report log, the hand-over register and the power cap.
A write of VFP stores GCLS and PART, 13 to 15 as 0. A write of PCLU or PRES is stored unless two partitions would then share a
cluster or a colour, a class would pass 32 slots, or the partition is the source or the receiver of an active order; then it is
ignored as a whole. An access table keeps the bits of the owners that can be held. CLRLOG keeps LOG2N while EN is 1, and EN from 0
to 1 zeroes CLRWP. MKEY.REGEN does nothing while BUSY is 1; else it sets BUSY, drops every L2 line of the owner and no other, and
the owner has a new key; completion clears BUSY. MREG is written unless the floors of the controller would pass 1,215. FWHO is
ignored outside phase 0 and where a START finds too few standby cores. PWRCAP takes 300 to 600 W. A write of 8 bytes by firmware
at such a register is that event; a write that the block refuses is an error record with code 0x12, and one that reaches no
register 0x10. (R11; R403; R404; R405; R418; R425; R427; R434; R435; R300; R406; R89) -/
def Obligations.FirmwareRegisters : Prop :=
  (∀ (s : State) (n v : Nat), n < 256 → let a := 0x200006110000 + 8 * n
      exec (.partitionRegisterWrite a v) s = .next (withReg s a (v / 2 ^ 5 % 4 * 32 + if 13 ≤ v % 16 then 0 else v % 16)))
  ∧ (∀ (s : State) (p a v : Nat), 1 ≤ p → p ≤ 12 → a = pclu p ∨ a = pres p → let i : Instr := .partitionRegisterWrite a v
      let r := withReg s a (if a = pclu p then v else v % 2 ^ 54)
      let busy := ∃ q, 1 ≤ q ∧ q ≤ 12 ∧ activeOrder s.die q ∧ (q = p ∨ regField s.die (slotCtl q) 24 4 = p)
      (busy ∨ partitionClash r.die → exec i s = .next s) ∧ (¬busy → ¬partitionClash r.die → exec i s = .next r))
  ∧ (∀ (s : State) (t w v : Nat), t ≤ 0x4C7 → w < 16 → let a := 0x200006000000 + 128 * t + 8 * w
      exec (.accessTableWrite a v) s = .next (withReg s a (if w = 0 then v % 2 ^ 26 else if w < 8 then 0 else v)))
  ∧ (∀ (s : State) (v : Nat), ∃ t, exec (.clrlogWrite v) s = .next t ∧ sameStrands s t ∧ t.die = { s.die with mmio := t.die.mmio }
      ∧ regsKept s.die t.die [0x200007001000, 0x200007001008]
      ∧ (let old := regField s.die 0x200007001000 0 1
         regField t.die 0x200007001000 0 1 = v % 2 ∧ regField t.die 0x200007001000 12 36 = v / 2 ^ 12 % 2 ^ 36
         ∧ regField t.die 0x200007001000 8 4 = (if old = 1 then regField s.die 0x200007001000 8 4 else v / 2 ^ 8 % 16)
         ∧ regField t.die 0x200007001000 1 7 = 0 ∧ regField t.die 0x200007001000 48 16 = 0
         ∧ t.die.reg 0x200007001008 = if old = 0 ∧ v % 2 = 1 then 0 else s.die.reg 0x200007001008))
  ∧ (∀ (s : State) (o : Nat), o < 512 → let a := 0x200008008000 + 8 * o
      (regField s.die a 1 1 = 1 → exec (.mkeyRegen o) s = .next s)
      ∧ (regField s.die a 1 1 = 0 → ∃ t, exec (.mkeyRegen o) s = .next t ∧ sameStrands s t ∧ t.die = { s.die with mmio := t.die.mmio, mem := t.die.mem }
          ∧ t.die.reg a = 2 ∧ regsKept s.die t.die [a]
          ∧ (∀ n, n < 512 → sget 0 t.die.mem.gens n = sget 0 s.die.mem.gens n + if n = o then 1 else 0)
          ∧ (∀ n, (sget Line.none s.die.mem.lines n).owner = o → sget Line.none t.die.mem.lines n = Line.none)
          ∧ (∀ n, (∀ e ∈ s.die.mem.lines, e.1 = n → e.2.owner ≠ o) → sget Line.none t.die.mem.lines n = sget Line.none s.die.mem.lines n))
      ∧ exec (.keyRegenComplete o) s = .next (withReg s a 0))
  ∧ (∀ (s : State) (c o v : Nat), c < 8 → o < 512 → let mreg (x : Nat) : Nat := 0x200008000000 + 0x1000 * c + 8 * x
      let floors := ((List.range 512).map fun x => if x = o then v % 2 ^ 16 else regField s.die (mreg x) 0 16).sum
      (1215 < floors → exec (.mregWrite c o v) s = .next s)
      ∧ (floors ≤ 1215 → exec (.mregWrite c o v) s = .next (withReg s (mreg o) (v % 2 ^ 48))))
  ∧ (∀ (s : State) (v : Nat), let held := (List.range s.die.pkg.roles.length).countP fun i => s.die.pkg.roles.getD i 0 % 32 != 0
      let standby := (List.range s.die.pkg.roles.length).countP fun i => s.die.pkg.roles.getD i 0 == 32
      let i : Instr := .fwhoStart v
      (regField s.die 0x20000A000100 0 2 ≠ 0 → exec i s = .next s)
      ∧ (v % 4 = 1 → standby < held → exec i s = .next s)
      ∧ (regField s.die 0x20000A000100 0 2 = 0 → (v % 4 ≠ 1 ∨ held ≤ standby) →
          exec i s = .next (withReg s 0x20000A000100 (v / 4 % 2 ^ 48 * 4 + if v % 4 = 1 then 1 else 0))))
  ∧ (∀ (s : State) (v : Nat), let w := v % 2 ^ 16
      (w < 300 ∨ 600 < w → exec (.pwrcapWrite v) s = .next s)
      ∧ (300 ≤ w → w ≤ 600 → exec (.pwrcapWrite v) s = .next (withReg s 0x20000B000000 w)))
  ∧ (∀ (s : State) (v : Nat), v < 2 ^ 64 → let fw (a : Nat) : Host.Outcome State Fault Refusal := exec (.registerWrite 0 a 8 v) s
      (∀ p, 1 ≤ p → p ≤ 12 → fw (pclu p) = exec (.partitionRegisterWrite (pclu p) v) s)
      ∧ (∀ t < 0x4C8, ∀ w < 16, fw (0x200006000000 + 128 * t + 8 * w) = exec (.accessTableWrite (0x200006000000 + 128 * t + 8 * w) v) s)
      ∧ fw 0x200007001000 = exec (.clrlogWrite v) s
      ∧ (∀ o < 512, v % 2 = 1 → fw (0x200008008000 + 8 * o) = exec (.mkeyRegen o) s)
      ∧ (∀ c < 8, ∀ o < 512, fw (0x200008000000 + 0x1000 * c + 8 * o) = exec (.mregWrite c o v) s)
      ∧ fw 0x20000B000000 = exec (.pwrcapWrite v) s ∧ fw 0x20000A000100 = exec (.fwhoStart v) s
      ∧ (∀ b < 128, v / 2 ^ 63 = 1 → fw (0x200002001000 + 8 * b) = exec (.l2errDiscard b) s))
  ∧ (∀ (s : State) (o a n v : Nat), o < 512 → n ∈ [1, 2, 4, 8] → a % n = 0 → let i : Instr := .registerWrite o a n v
      (s.die.target a ≠ .mmio → exec i s = .next (onDie s (s.die.errorRecord 0x10 2048 a)))
      ∧ (s.die.target a = .mmio → o ≠ 0 → a / 2 ^ 24 % 2 ^ 8 ∈ [2, 3, 5, 6, 7, 8, 10, 11, 12] →
          exec i s = .next (onDie s (s.die.errorRecord 0x12 2048 a))))

/-- The steps of the boot ROM, attestation, the hand-over of firmware, and power and temperature. Each step of the boot ROM goes
on to the next: from 1 where the table is accepted, from 2 where LPDDR 6 trains (else BOOTST 14), from 3 where there is an image,
from 4 where it verifies, from 5 with three measurements, those of the table and the image SHA-384, and the version of the image,
from 6 with a leaf used, and from 7 by releasing the cores of the column, each on its strand 0 at firmware privilege under owner
0. A failure leaves BOOTST 15 and the step in the mailbox, from which the supply of the host resumes the ROM before step 2. An
SPDM response is one snapshot of the phase, the measurements and the versions, without the LMS signature once the leaves or
signatures are spent. A verified incoming image is measured and phase 2 entered, a failed one aborts with an error record. A
commit waits for active orders; else the phase is 0 and the incoming measurement and version active, and on a die whose roles all
stand still nothing else changes. Power and heat lower the clocks or throttle a partition and change no result; at 115 degrees an
error record is written, no core issues and running jobs are abandoned; at 125 the die is as after power-on, but for the fuses.
The firmware entry, the measurements of the ROM and of an incoming image, the versions and the signature checks are free values of
the model (log 7). (R430; R431; R432; R433; R434; R435; R436; R401) -/
def Obligations.BootAndPackage : Prop :=
  (∀ s : State, let n := s.die.reg 0x20000A000000 % 16
      let p := s.die.pkg
      let at_ (n : Nat) (p : Pkg) : State := withReg (withPkg s p) 0x20000A000000 n
      let failed (k : Nat) : State := at_ 15 { p with mailbox := k }
      let table := if p.table = [] then Config.flashTable else p.table
      let image := if p.image = [] ∧ p.table.getD 7 0 = 0 then Config.flashImage else p.image
      let i : Instr := .powerOnBoot
      (n = 0 → exec i s = .next (at_ 1 p))
      ∧ (n = 1 → acceptedTable table → exec i s = .next (at_ 2 { p with table := table }))
      ∧ (n = 1 → ¬acceptedTable table → exec i s = .next (failed 2))
      ∧ (n = 2 → exec i s = .next (at_ (if Config.trained then 3 else 14) p))
      ∧ (n = 3 → exec i s = .next (if image = [] then failed 4 else at_ 4 { p with image := image }))
      ∧ (n = 4 → exec i s = .next (if Config.signatureOk p.image = true ∧ Config.fuseVersion ≤ Config.imageVersion p.image then at_ 5 p else failed 5))
      ∧ (n = 5 → exec i s = .next (at_ 6 { p with meas := [Config.romMeasure, sha384 p.table, sha384 p.image], version := Config.imageVersion p.image }))
      ∧ (n = 6 → exec i s = .next (at_ 7 { p with leaves := p.leaves + 1, signed := 0 }))
      ∧ (n = 7 → p.table.getD 6 0 ≤ 8 → ∃ t, exec i s = .next t ∧ t.die.width = p.table.getD 6 0
          ∧ t.die.pkg = { p with roles := (p.table.drop 8).take (p.table.getD 6 0) } ∧ t.die.reg 0x20000A000000 = 8
          ∧ t.die.reg 0x20000B000000 = tableNumber p.table 20 2 ∧ regField t.die 0x200005010000 4 2 = p.table.getD 22 0 % 4
          ∧ regsKept s.die t.die [0x20000A000000, 0x20000B000000, 0x200005010000] ∧ t.die.mem = s.die.mem ∧ t.die.jobs = s.die.jobs
          ∧ (∀ k < p.table.getD 6 0, let x := t.strand (256 * k)
              x.id.kind = .column ∧ x.id.owner = 0 ∧ x.priv = .firmware ∧ x.run.wait = .ready ∧ x.pc = Config.firmwareEntry (p.meas.getD 2 0) (32 * k)
              ∧ x.regs = Vector.replicate 32 0)
          ∧ ∀ j, (∀ k < p.table.getD 6 0, j ≠ 256 * k) → t.strand j = s.strand j)
      ∧ (8 ≤ n → exec i s = .next s)
      ∧ ∀ tb im, exec (.hostRecoverySupply tb im) s = .next (if n = 15 then at_ 1 { p with table := tb, image := im } else s))
  ∧ (∀ s : State, let p := s.die.pkg
      let phase := regField s.die 0x20000A000100 0 2
      let spent := decide (4096 < p.leaves ∨ 32768 ≤ p.signed)
      exec .spdmRequest s = .next (withPkg s { p with
        evidence := ⟨phase, p.meas.getD 2 0, p.version, if phase = 2 then p.incoming else 0, if phase = 2 then p.incomingVersion else 0, spent⟩
          :: p.evidence
        signed := if spent then p.signed else p.signed + 1 }))
  ∧ (∀ s : State, let p := s.die.pkg
      let f := s.die.reg 0x20000A000100
      let i (g : Bool) : Instr := .handoverVerified g
      let measured (img : Nat) : Pkg := { p with
        incoming := Config.incomingMeasure img s.die.clock, incomingVersion := Config.incomingVersion img s.die.clock }
      (f % 4 ≠ 1 → ∀ g, exec (i g) s = .next s)
      ∧ (f % 4 = 1 → exec (i true) s = .next (withReg (withPkg s (measured (f / 4 % 2 ^ 48 * 4)))
          0x20000A000100 (f + 1)))
      ∧ (f % 4 = 1 → ∃ t, exec (i false) s = .next t ∧ sameStrands s t ∧ t.die.pkg = p ∧ t.die.reg 0x20000A000100 = f - 1
          ∧ t.die.errlog = ⟨0x7F, 2048, 0⟩ :: s.die.errlog))
  ∧ (∀ s : State, let p := s.die.pkg
      let f := s.die.reg 0x20000A000100
      let waits := ∃ q, 1 ≤ q ∧ q ≤ 12 ∧ activeOrder s.die q
      (f % 4 ≠ 2 ∨ waits → exec .handoverCommit s = .next s)
      ∧ (f % 4 = 2 → ¬waits → ∃ t, exec .handoverCommit s = .next t ∧ t.meId = s.meId ∧ t.die.reg 0x20000A000100 = f - 2 ∧ t.die.pkg.incoming = 0 ∧ t.die.pkg.incomingVersion = 0
          ∧ t.die.pkg.version = p.incomingVersion ∧ t.die.pkg.meas = p.meas.set 2 p.incoming ∧ t.die.dtime = s.die.dtime ∧ t.die.orders = s.die.orders
          ∧ ((∀ r ∈ p.roles, r % 32 = 0) → t.die.pkg.roles = p.roles ∧ sameStrands s t ∧ t.die.cores = s.die.cores ∧ t.die.mem = s.die.mem)
          ∧ (∀ a b, p.roles = [a, b] → a % 32 ≠ 0 → b = 32 → t.die.pkg.roles = [32, a] ∧ (t.strand 0).id.kind = .free
              ∧ (t.strand 256).id.kind = .column ∧ (t.strand 256).id.owner = 0 ∧ (t.strand 256).priv = .firmware
              ∧ (t.strand 256).pc = Config.firmwareEntry (t.die.pkg.meas.getD 2 0) 32)))
  ∧ (∀ (s : State) (n : Nat), let p := s.die.pkg
      exec .powerCapExceeded s = .next (withPkg s { p with steps := p.steps + 1 })
      ∧ exec .thermalThrottle s = .next (withPkg s { p with steps := p.steps + 1 })
      ∧ exec (.partitionCapExceeded n) s = .next (if 1 ≤ n ∧ n ≤ 12 ∧ regField s.die (0x20000B000000 + 8 * n) 0 16 ≠ 0 ∧ n ∉ p.throttled
          then withPkg s { p with throttled := n :: p.throttled } else s))
  ∧ (∀ s : State, let hot := onDie s ({ s.die with pkg := { s.die.pkg with hot := true } }.errorRecord 0x7F 2048 0)
      ((∀ e ∈ s.die.jobs, e.2.state ≠ .running) → exec .thermalStop s = .next hot)
      ∧ ∀ e, (s.die.jobs.filter fun e => e.2.state == .running) = [e] → exec .thermalStop s = .next (hot.abandon (handleOf e) 2 3))
  ∧ (∀ s : State, let r := State.reset
      exec .thermalSupplyRemoval s = .next { r with
        die := { r.die with clock := s.die.clock, pkg := { r.die.pkg with leaves := s.die.pkg.leaves } }, agenda := s.agenda })

/-- Completions and translations of the requests to the host, its submission queues, its own requests, and function-level reset. A
completion reaches only a request that has left the die; one whose strand was abandoned is forgotten. Data goes to the destination
register, and the instruction retires, or is handed to the instruction that asked; a cancelled request is discarded. A failed
completion and a time-out fault with code 0x2C (a message to the twin, 0x12). A translation that is allowed sends the request, one
that is not faults with 0x11; with no page a Page Request goes out where the VF has PRI, else code 0x10, as after a refusal, 64
microseconds without an answer, or 1 ms of paging; a posted write that waits for its translation is answered first, in the same
way, and where it fails it is discarded with its error posted. SQCTL, SQDB, the stop and its completion change the queue as Table
24.3 and R443 say. The descriptor at SQHEAD is fetched only by an enabled queue that is not stopped or empty and has room for its
entry; one that SPAWN would refuse writes a completion entry with status 0x80 plus the code, any other is entered. A host write or
read reaches the queue registers and MIGCTL through BAR 0 and the CSM window through BAR 2, where it is open, and an AtomicOp the
CSM window alone; anything else is answered Unsupported Request. A reset of a VF without live jobs resets its queues and zeroes
its telemetry. (R108; R438; R439; R440; R441; R443; R444; R445; R330; R364) -/
def Obligations.HostLink : Prop :=
  (∀ (s : State) (i data : Nat), (∀ x ∈ s.die.orphans, x.strand ≠ i) → ((s.strand i).run.hostReq = none → (∀ g, exec (.hostRequestCompletion i g data) s = .next s)
        ∧ exec (.hostCompletionTimeout i) s = .next s)
      ∧ ∀ q, (s.strand i).run.hostReq = some q → (q.phase ≠ .sent → (∀ g, exec (.hostRequestCompletion i g data) s = .next s)
            ∧ exec (.hostCompletionTimeout i) s = .next s)
          ∧ (q.phase = .sent → (s.strand i).trap.ftvec ≠ 0 →
              (∃ t, exec (.hostCompletionTimeout i) s = .next t ∧ requestFails s t i q 0x2C)
              ∧ ∃ t, exec (.hostRequestCompletion i false data) s = .next t ∧ requestFails s t i q (if q.op = .message then 0x12 else 0x2C))
          ∧ (q.phase = .sent → let x := data % 2 ^ (8 * q.size)
              ∃ t, exec (.hostRequestCompletion i true data) s = .next t ∧ onlyStrand s t i ∧ t.die = s.die
              ∧ (q.cancelled = true → t.strand i = answered (s.strand i))
              ∧ (q.cancelled = false → q.reg = 33 → t.strand i = handed (s.strand i) ⟨q.va, 0, x⟩)
              ∧ (q.cancelled = false → q.reg ≤ 32 → (t.strand i).pc = (s.strand i).pc + 4 ∧ (t.strand i).run.wait = .ready
                  ∧ (t.strand i).run.hostReq = none ∧ (t.strand i).ctx = (s.strand i).ctx ∧ (t.strand i).trap = (s.strand i).trap
                  ∧ ∀ r : Fin 32, (t.strand i).reg r = if r.val = q.reg ∧ r ≠ 0 then BitVec.ofInt 64
                        (if q.signed = true ∧ 2 ^ (8 * q.size - 1) ≤ x then (x : Int) - 2 ^ (8 * q.size) else x) else (s.strand i).reg r)))
  ∧ (∀ (s : State) (x : Orphan) (l : List Orphan) (data : Nat) (g : Bool), s.die.orphans = x :: l →
      exec (.hostRequestCompletion x.strand g data) s = .next (onDie s { s.die with orphans := l })
      ∧ exec (.hostCompletionTimeout x.strand) s = .next (onDie s { s.die with orphans := l }))
  ∧ (∀ (s : State) (p : Posted) (h : Held) (l : List Posted), p.held = some h → s.die.posted = p :: l → (∀ x ∈ l, x ≠ p) →
      let late (n : Nat) : Prop := h.since + n ≤ s.die.dtime
      let pri := 0x100 ≤ p.owner ∧ regField s.die (0x20000C000000 + 8 * (p.owner - 0x100)) 23 1 = 1
      let waits (paging : Bool) : State := onDie s { s.die with posted := { p with held := some { h with paging := paging, since := s.die.dtime } } :: l }
      (h.paging = true → (∀ f a, exec (.atsTranslationResponse p.source f a) s = .next s) ∧ exec (.atsTimeout p.source) s = .next s
          ∧ exec (.priResponse p.source true) s = .next (waits false)
          ∧ (∃ t, exec (.priResponse p.source false) s = .next t ∧ discarded s t p l 0x10)
          ∧ (late 1000000 → ∃ t, exec (.priTimeout p.source) s = .next t ∧ discarded s t p l 0x10) ∧ (¬late 1000000 → exec (.priTimeout p.source) s = .next s))
      ∧ (h.paging = false → (∀ g, exec (.priResponse p.source g) s = .next s) ∧ exec (.priTimeout p.source) s = .next s
          ∧ exec (.atsTranslationResponse p.source true true) s = .next (onDie s { s.die with posted := l, sent := h.msg :: s.die.sent })
          ∧ (∃ t, exec (.atsTranslationResponse p.source true false) s = .next t ∧ discarded s t p l 0x11)
          ∧ (pri → ∀ a, exec (.atsTranslationResponse p.source false a) s = .next (waits true))
          ∧ (¬pri → ∀ a, ∃ t, exec (.atsTranslationResponse p.source false a) s = .next t ∧ discarded s t p l 0x10)
          ∧ (late 64000 → ∃ t, exec (.atsTimeout p.source) s = .next t ∧ discarded s t p l 0x10) ∧ (¬late 64000 → exec (.atsTimeout p.source) s = .next s)))
  ∧ (∀ (s : State) (i : Nat) (q : HostReq), (s.strand i).run.hostReq = some q → (∀ p ∈ s.die.posted, p.source = i → p.held = none) → (s.strand i).trap.ftvec ≠ 0 →
      let late (n : Nat) : Prop := (s.strand i).run.since + n ≤ s.die.dtime
      let pri := 0x100 ≤ (s.strand i).id.owner ∧ regField s.die (0x20000C000000 + 8 * ((s.strand i).id.owner - 0x100)) 23 1 = 1
      (q.phase ≠ .translating → (∀ f a, exec (.atsTranslationResponse i f a) s = .next s) ∧ exec (.atsTimeout i) s = .next s)
      ∧ (q.phase ≠ .paging → (∀ g, exec (.priResponse i g) s = .next s) ∧ exec (.priTimeout i) s = .next s)
      ∧ (q.phase = .translating → (∀ a, pri → ∃ t, exec (.atsTranslationResponse i false a) s = .next t ∧ inPhase s t i q .paging ∧ t.die = s.die)
          ∧ (∀ a, ¬pri → ∃ t, exec (.atsTranslationResponse i false a) s = .next t ∧ requestFails s t i q 0x10)
          ∧ (∃ t, exec (.atsTranslationResponse i true false) s = .next t ∧ requestFails s t i q 0x11)
          ∧ (∃ t, exec (.atsTranslationResponse i true true) s = .next t ∧ inPhase s t i q .sent
              ∧ t.die = { s.die with sent := t.die.sent } ∧ ∃ m, t.die.sent = m :: s.die.sent
                ∧ m.twin = q.twin ∧ m.owner = (s.strand i).id.owner ∧ m.op = q.op ∧ m.size = q.size ∧ m.a = q.a ∧ m.b = q.b)
          ∧ (late 64000 → ∃ t, exec (.atsTimeout i) s = .next t ∧ requestFails s t i q 0x10) ∧ (¬late 64000 → exec (.atsTimeout i) s = .next s))
      ∧ (q.phase = .paging → (∃ t, exec (.priResponse i true) s = .next t ∧ inPhase s t i q .translating ∧ t.die = s.die)
          ∧ (∃ t, exec (.priResponse i false) s = .next t ∧ requestFails s t i q 0x10)
          ∧ (late 1000000 → ∃ t, exec (.priTimeout i) s = .next t ∧ requestFails s t i q 0x10) ∧ (¬late 1000000 → exec (.priTimeout i) s = .next s)))
  ∧ (∀ (s : State) (v : Nat), v < 256 → exec (.atsInvalidation v) s = .next (replied s false (0x100 + v) true 0 0 0))
  ∧ (∀ (s : State) (v q x : Nat), v < 256 → q < 16 → let o := queueOf s v q
      let en := decide (x / 2 ^ 10 % 2 = 1)
      let newly := o.en = false ∧ en = true
      let size (old f : Nat) : Nat := if o.en = false ∧ f ≤ 6 then f else old
      (∃ t, exec (.sqEnable v q x) s = .next t ∧ t = onQueue s v q (queueOf t v q)
        ∧ (queueOf t v q).en = en ∧ (queueOf t v q).base = o.base ∧ (queueOf t v q).cqBase = o.cqBase
        ∧ (queueOf t v q).asid = x / 2 ^ 48 % 2 ^ 16 ∧ (queueOf t v q).pasid = x / 2 ^ 28 % 2 ^ 20 ∧ (queueOf t v q).pv = decide (x / 2 ^ 27 % 2 = 1)
        ∧ (queueOf t v q).sqLog = size o.sqLog (x % 16) ∧ (queueOf t v q).cqLog = size o.cqLog (x / 2 ^ 4 % 16)
        ∧ (queueOf t v q).head = (if newly then 0 else o.head) ∧ (queueOf t v q).tail = (if newly then 0 else o.tail)
        ∧ (queueOf t v q).cqHead = (if newly then 0 else o.cqHead) ∧ (queueOf t v q).cqTail = (if newly then 0 else o.cqTail)
        ∧ (queueOf t v q).phase = (if newly then true else o.phase) ∧ (queueOf t v q).stopped = (if newly then false else o.stopped)
        ∧ (x / 2 ^ 11 % 2 = 1 → ¬newly → o.stopped = false → (queueOf t v q).stop = true))
      ∧ (s.die.frozen v 1 = true → exec (.sqDoorbell v q x) s = .next s)
      ∧ (o.stop = true → s.die.frozen v 1 = false → exec (.sqDoorbell v q x) s = .next (onQueue s v q o))
      ∧ (o.stop = false → s.die.frozen v 1 = false → let n := 2 ^ (6 + o.cqLog)
          let h := x / 2 ^ 32 % 2 ^ 16 % n
          exec (.sqDoorbell v q x) s = .next (onQueue s v q { o with
            tail := x % 2 ^ 16 % 2 ^ (6 + o.sqLog), cqHead := h, used := o.used - (h + n - o.cqHead) % n }))
      ∧ exec (.sqStop v q) s = .next (onQueue s v q (if o.stopped then o else { o with stop := true }))
      ∧ exec (.sqStopComplete v q) s = .next (onQueue s v q (if o.stop then { o with stopped := true } else o))
      ∧ (o.en = false ∨ o.stop = true ∨ o.head = o.tail ∨ 2 ^ (6 + o.cqLog) ≤ s.die.unreported v q + o.used →
          exec (.sqDescriptorFetch v q x) s = .next s)
      ∧ (∀ e, o.en = true → o.stop = false → o.head ≠ o.tail → s.die.unreported v q + o.used < 2 ^ (6 + o.cqLog) →
          o.cqTail + 1 < 2 ^ (6 + o.cqLog) →
          (onQueue s v q { o with head := (o.head + 1) % 2 ^ (6 + o.sqLog) }).die.enterFault v (x % 2 ^ 512) = some e →
          exec (.sqDescriptorFetch v q x) s = .next (onDie s { (onQueue s v q { o with
              head := (o.head + 1) % 2 ^ (6 + o.sqLog), cqTail := o.cqTail + 1, used := o.used + 1 }).die with
            sent := ⟨false, 0x100 + v, .write, o.cqBase + 32 * o.cqTail, 32, s.die.dtime % 2 ^ 64 * 2 ^ 128
              + (if o.phase then 2 ^ 127 else 0) + o.head * 2 ^ 92 + q * 2 ^ 72 + (0x80 + e) * 2 ^ 64, 0, if o.pv then o.pasid + 1 else 0, false⟩ :: s.die.sent }))
      ∧ (o.en = true → o.stop = false → o.head ≠ o.tail → s.die.unreported v q + o.used < 2 ^ (6 + o.cqLog) →
          let r := onQueue s v q { o with head := (o.head + 1) % 2 ^ (6 + o.sqLog) }
          r.die.enterFault v (x % 2 ^ 512) = none →
          exec (.sqDescriptorFetch v q x) s = .next (onDie r (r.die.enterJob (x % 2 ^ 512) v (0x100 + v) o.asid (some (q, o.head))).2)))
  ∧ (∀ (s : State) (v bar off : Nat) (relaxed : Bool) (data : List Nat), let i : Instr := .hostMemoryRequest v bar off (0, relaxed, data)
      let h := s.die.reg (0x20000C000000 + 8 * v)
      let q := (off - 0x1000) / 32
      let o := queueOf s v q
      (v < 256 → bar = 0 → (off < 0x1000 ∨ 0x1200 ≤ off ∨ 8 < off % 8 + data.length) → exec i s = .next (replied s false 0 false off 0 0))
      ∧ (v < 256 → bar = 2 → h / 2 ^ 22 % 2 = 0 ∨ 0x1000000 < off + data.length → exec i s = .next (replied s false 0 false off 0 0))
      ∧ (v < 256 → bar = 2 → h / 2 ^ 22 % 2 = 1 → off + data.length ≤ 0x1000000 → ∃ t, exec i s = .next t
          ∧ outsideRule s t false (0x100 + v) (0x100000000000 + 0x1000000 * (h / 2 ^ 19 % 8) + off) data)
      ∧ (256 < v ∨ (bar ≠ 0 ∧ bar ≠ 2) → exec i s = .next (replied s false 0 false off 0 0))
      ∧ (v < 256 → bar = 0 → 0x1000 ≤ off → off < 0x1200 → data = [] →
          (off % 32 = 0 → exec i s = .next (replied s false 0 true off 8 o.base)) ∧ (off % 32 = 24 → exec i s = .next (replied s false 0 true off 8 o.cqBase))
          ∧ (off % 32 = 16 → exec i s = .next (replied s false 0 true off 8 (o.cqHead * 2 ^ 32 + o.head * 2 ^ 16 + o.tail))))
      ∧ (v < 256 → bar = 0 → 0x1000 ≤ off → off < 0x1200 → data.length = 8 → let x := leVal (data.map (BitVec.ofNat 8))
          (off % 32 = 8 → exec i s = exec (.sqEnable v q x) s) ∧ (off % 32 = 16 → exec i s = exec (.sqDoorbell v q x) s))
      ∧ (v = 256 → bar = 0 → off = 0x100 → data = [] → exec i s = .next (replied s false 0 true off 8
          (s.die.mig.why * 2 ^ 36 + s.die.mig.state * 2 ^ 32 + (if s.die.mig.nextDir then 256 else 0) + s.die.mig.nextVf)))
      ∧ (∀ op, op ≠ 0 → 256 ≤ v ∨ bar ≠ 2 ∨ 3 < op → exec (.hostMemoryRequest v bar off (op, relaxed, data)) s = .next (replied s false 0 false off 0 0))
      ∧ (∀ op, v < 256 → h / 2 ^ 22 % 2 = 1 → off + data.length ≤ 0x1000000 → op = 1 ∨ op = 2 ∨ op = 3 →
          ∃ t, exec (.hostMemoryRequest v 2 off (op, relaxed, data)) s = .next t
          ∧ outsideAtomic s t false (0x100 + v) (0x100000000000 + 0x1000000 * (h / 2 ^ 19 % 8) + off) (if op = 1 then .fadd else if op = 2 then .swap else .cas) data))
  ∧ (∀ (s : State) (v : Nat), v < 256 → (∀ e ∈ s.die.jobs, e.2.vf = v → e.2.live = false) → ∃ t, exec (.vfFlr v) s = .next t ∧ sameStrands s t
      ∧ t.die.jobs = s.die.jobs ∧ (∀ q < 16, queueOf t v q = Sq.reset) ∧ (∀ w q, w ≠ v → q < 16 → queueOf t w q = queueOf s w q)
      ∧ (∀ k < 32, t.die.reg (telemetry (0x100 + v) (8 * k)) = 0) ∧ regsKept s.die t.die ((List.range 32).map fun k => telemetry (0x100 + v) (8 * k))
      ∧ t.die.mem = s.die.mem)

/-- The twin link, its requests, and the migration of a VF. The link comes up and goes down in TWCTL; when it goes down, the
requests to the twin fault with code 0x10, its posted writes are discarded with that code, and a migration in progress fails with
WHY 1. A request from the twin reaches device memory as a read, a write or an AMO under the owner that it names, and is refused at
the registers. An export starts in the states 0, 4 and 5: with the link down it fails with WHY 1, otherwise its state is 1 and the
enabled queues of the VF stop. A quiet VF goes on to state 2 and a streamed one to 3 with a ticket; after 100 ms state 1 fails
with WHY 4 and the queues go on, as after a cancel in state 3. From state 3 the source is freed when the target has imported. An
use, and 3 where the placement differs; else the jobs, frames and queues that the twin streamed are restored and the state is 4.
The ticket and what the twin streams are free values of the model (log 19). (R446; R447; R448; R331; R450; R451) -/
def Obligations.TwinAndMigration : Prop :=
  (∀ s : State, let a := 0x20000C010000
      (∃ t, exec .twinLinkUp s = .next t ∧ sameStrands s t ∧ t.die = { s.die with mmio := t.die.mmio } ∧ regsKept s.die t.die [a]
        ∧ t.die.reg a = s.die.reg a + 2 - 2 * (s.die.reg a / 2 % 2))
      ∧ ((∀ e ∈ (s.meId, s.me) :: s.others, (e.2.run.hostReq.any fun q => q.twin) = false) → (∀ p ∈ s.die.posted, p.twin = false) → ∃ t, exec .twinLinkDown s = .next t ∧ sameStrands s t ∧ regsKept s.die t.die [a]
        ∧ t.die.reg a = s.die.reg a - 2 * (s.die.reg a / 2 % 2)
        ∧ t.die.mig = if s.die.mig.state = 1 ∨ s.die.mig.state = 2 then { s.die.mig with state := 5, why := 1 } else s.die.mig)
      ∧ (∀ p, s.die.posted = [p] → p.twin = true → (∀ e ∈ (s.meId, s.me) :: s.others, (e.2.run.hostReq.any fun q => q.twin) = false) →
          s.die.mig.state ≠ 1 → s.die.mig.state ≠ 2 → s.die.reg a = 0 → ∃ t, exec .twinLinkDown s = .next t ∧ discarded (onDie s (s.die.setReg a 0)) t p [] 0x10)
      ∧ ∀ q, s.others = [] → (∀ p ∈ s.die.posted, p.twin = false) → s.me.run.hostReq = some q → q.twin = true → s.me.trap.ftvec ≠ 0 → ∃ t, exec .twinLinkDown s = .next t ∧ t.meId = s.meId
          ∧ t.others = [] ∧ (q.cancelled = false → q.reg ≠ 33 → faulted s.me t.me 0x10 q.va) ∧ (q.cancelled = true → t.me = answered s.me)
          ∧ (q.cancelled = false → q.reg = 33 → t.me = handed s.me ⟨q.va, 0x10, 0⟩))
  ∧ (∀ (s : State) (o pa : Nat) (data : List Nat), o < 512 →
      (∀ op, 0x200000000000 ≤ pa ∨ 13 < op → exec (.twinRequest o pa (op, data)) s = .next (replied s true o false pa 0 0))
      ∧ (pa < 0x200000000000 → (∃ t, exec (.twinRequest o pa (0, data)) s = .next t ∧ outsideRule s t true o pa data)
          ∧ ∀ op : Amo, ∃ t, exec (.twinRequest o pa (op.code + 1, data)) s = .next t ∧ outsideAtomic s t true o pa op data))
  ∧ (∀ (s : State) (v : Nat), v < 256 → let m := s.die.mig
      let up := s.die.reg 0x20000C010000 / 2 % 2 = 1
      let i : Instr := .migrationExport v
      (m.state ∉ [0, 4, 5] → exec i s = .next s)
      ∧ (m.state ∈ [0, 4, 5] → ¬up → exec i s = .next (withMig s { m with vf := v, dir := false, state := 5, why := 1 }))
      ∧ (m.state ∈ [0, 4, 5] → up → (∀ e ∈ s.die.jobs, e.2.vf = v → e.2.state ≠ .running) → ∃ t, exec i s = .next t ∧ sameStrands s t
          ∧ t.die = { s.die with mig := t.die.mig, sqs := t.die.sqs } ∧ t.die.mig.vf = v ∧ t.die.mig.dir = false ∧ t.die.mig.state = 1
          ∧ t.die.mig.why = 0 ∧ t.die.mig.since = s.die.dtime
          ∧ (∀ q < 16, (q ∈ t.die.mig.queues ↔ (queueOf s v q).en = true ∧ (queueOf s v q).stop = false)
              ∧ queueOf t v q = if (queueOf s v q).en = true then { queueOf s v q with stop := true } else queueOf s v q)
          ∧ ∀ w q, w ≠ v → q < 16 → queueOf t w q = queueOf s w q))
  ∧ (∀ s : State, let m := s.die.mig
      let quiet := (∀ e ∈ (s.meId, s.me) :: s.others, e.2.id.kind = .free ∨ e.2.id.owner ≠ 0x100 + m.vf) ∧ (∀ c ∈ s.die.cmds, c.owner ≠ 0x100 + m.vf) ∧ (∀ p ∈ s.die.posted, p.owner ≠ 0x100 + m.vf)
        ∧ ∀ e ∈ s.die.jobs, e.2.vf = m.vf → e.2.state ≠ .running ∧ e.2.state ≠ .exiting ∧ e.2.state ≠ .dispatching
      let resumed (t : State) : Prop := sameStrands s t ∧ t.die = { s.die with mig := t.die.mig, sqs := t.die.sqs }
        ∧ ∀ q < 16, queueOf t m.vf q = if q ∈ m.queues then { queueOf s m.vf q with stop := false, stopped := false } else queueOf s m.vf q
      (m.state = 1 → quiet → exec .migrationQuiesced s = .next (withMig s { m with state := 2 }))
      ∧ (m.state ≠ 1 → exec .migrationQuiesced s = .next s ∧ exec .migrationQuiesceTimeout s = .next s)
      ∧ (m.state = 1 → s.die.dtime < m.since + 100000000 → exec .migrationQuiesceTimeout s = .next s)
      ∧ (m.state = 1 → m.since + 100000000 ≤ s.die.dtime → ∃ t, exec .migrationQuiesceTimeout s = .next t ∧ resumed t
          ∧ t.die.mig = { m with state := 5, why := 4 })
      ∧ (m.state = 2 → exec .migrationStreamed s = .next (withMig s { m with state := 3, ticket := Config.ticket m.vf s.die.clock % 2 ^ 128 }))
      ∧ (m.state ≠ 2 → exec .migrationStreamed s = .next s)
      ∧ (m.state = 3 → ∃ t, exec .migrationCancel s = .next t ∧ resumed t ∧ t.die.mig = { m with state := 0 })
      ∧ (m.state ≠ 3 → exec .migrationCancel s = .next s ∧ exec .migrationSourceDone s = .next s)
      ∧ (m.state = 3 → m.vf < 256 → (∀ e ∈ s.die.jobs, e.2.vf = m.vf → e.2.live = false) → ∃ t, exec .migrationSourceDone s = .next t ∧ sameStrands s t
          ∧ t.die.jobs = s.die.jobs ∧ t.die.mig = { m with state := 4 } ∧ ∀ q < 16, queueOf t m.vf q = Sq.reset))
  ∧ (∀ (s : State) (v k : Nat), v < 256 → k < 2 ^ 128 → let m := s.die.mig
      let up := s.die.reg 0x20000C010000 / 2 % 2 = 1
      let i : Instr := .migrationImport v k
      let failed (w : Nat) : State := withMig s { m with vf := v, dir := true, state := 5, why := w }
      let js := (importedJobs v k).filter fun e => decide (e.1 < 65536 ∧ e.2.gen ≠ 0 ∧ (e.2.state = .saved ∨ e.2.state = .ready ∨ e.2.state = .pending))
      let inUse := ∃ e ∈ js, (sget Job.unused s.die.jobs e.1).live = true
      (m.state ∉ [0, 4, 5] → exec i s = .next s)
      ∧ (m.state ∈ [0, 4, 5] → (¬up → exec i s = .next (failed 1))
          ∧ (up → Config.ticketOk v k = false ∨ k ∈ m.spent → exec i s = .next (failed 5))
          ∧ (up → Config.ticketOk v k = true → k ∉ m.spent → inUse → exec i s = .next (failed 2))
          ∧ (up → Config.ticketOk v k = true → k ∉ m.spent → ¬inUse → Config.placementOk v k = false → exec i s = .next (failed 3))
          ∧ (up → Config.ticketOk v k = true → k ∉ m.spent → ¬inUse → Config.placementOk v k = true → ∃ t, exec i s = .next t ∧ sameStrands s t
              ∧ t.die.mig = { m with vf := v, dir := true, state := 4, why := 0, ticket := k, spent := k :: m.spent }
              ∧ (∀ n, n < 65536 → (∀ e ∈ js, e.1 ≠ n) → sget Job.unused t.die.jobs n = sget Job.unused s.die.jobs n)
              ∧ (∀ e, js = [e] → let j := sget Job.unused t.die.jobs e.1
                  j.gen = e.2.gen ∧ j.vf = v ∧ j.owner = 0x100 + v ∧ j.desc = e.2.desc ∧ j.state = e.2.state ∧ j.slots = e.2.slots))))
end

