-- ==== Sys2Proof/Laws/Sparse.lean ====
section
/-! SUPPORT. Laws of sparse storage: a read after a write, and the canonical form that every operation keeps. -/

namespace Sys2Proof.Machine

variable {α : Type} [DecidableEq α] {d : α}

/-- Every key of the list is above a bound. -/
def above (lo : Nat) (m : List (Nat × α)) : Prop := ∀ e ∈ m, lo < e.1

/-- The canonical form of a list that is not empty. -/
theorem swf_cons {k : Nat} {v : α} {t : List (Nat × α)} :
    swf d ((k, v) :: t) = true ↔ v ≠ d ∧ above k t ∧ swf d t = true := by
  suffices h : ∀ lo : Nat, swfFrom d (some lo) t = true ↔ above lo t ∧ swf d t = true by
    simp [swf, swfFrom, h]
  induction t with
  | nil => intro lo; simp [swfFrom, swf, above]
  | cons e t ih =>
    intro lo
    obtain ⟨a, x⟩ := e
    have hs : swf d ((a, x) :: t) = true ↔ x ≠ d ∧ above a t ∧ swf d t = true := by
      simp [swf, swfFrom, ih]
    rw [hs]
    simp only [swfFrom, Bool.and_eq_true, decide_eq_true_eq, ih, above, List.mem_cons, forall_eq_or_imp]
    constructor
    · rintro ⟨⟨h1, h2⟩, h3, h4⟩
      exact ⟨⟨h1, fun e he => Nat.lt_trans h1 (h3 e he)⟩, h2, h3, h4⟩
    · rintro ⟨⟨h1, _⟩, h2, h3, h4⟩
      exact ⟨⟨h1, h2⟩, h3, h4⟩

@[simp] theorem swf_nil : swf d ([] : List (Nat × α)) = true := rfl

omit [DecidableEq α] in
theorem above_mono {a b : Nat} {m : List (Nat × α)} (h : a ≤ b) (hm : above b m) : above a m :=
  fun e he => Nat.lt_of_le_of_lt h (hm e he)

omit [DecidableEq α] in
theorem mem_sdel {e : Nat × α} {a : Nat} {m : List (Nat × α)} (he : e ∈ sdel m a) : e ∈ m := by
  induction m with
  | nil => exact he
  | cons f t ih =>
    obtain ⟨k, v⟩ := f
    simp only [sdel] at he
    split at he
    · exact List.mem_cons_of_mem _ (ih he)
    · rcases List.mem_cons.mp he with rfl | he
      · exact List.mem_cons_self
      · exact List.mem_cons_of_mem _ (ih he)

omit [DecidableEq α] in
theorem above_sdel {lo a : Nat} {m : List (Nat × α)} (h : above lo m) : above lo (sdel m a) :=
  fun e he => h e (mem_sdel he)

omit [DecidableEq α] in
theorem above_sins {lo a : Nat} {x : α} {m : List (Nat × α)} (h : above lo m) (ha : lo < a) : above lo (sins m a x) := by
  induction m with
  | nil => intro e he; simp [sins] at he; subst he; exact ha
  | cons e t ih =>
    obtain ⟨k, v⟩ := e
    have ht : above lo t := fun e he => h e (by simp [he])
    have hk : lo < k := h (k, v) (by simp)
    simp only [sins]
    split
    · intro e he
      rcases List.mem_cons.mp he with rfl | he
      · exact ha
      · exact h e he
    · intro e he
      rcases List.mem_cons.mp he with rfl | he
      · exact hk
      · exact ih ht e he

/-- Removing a key keeps the canonical form. -/
theorem swf_sdel {m : List (Nat × α)} (a : Nat) (h : swf d m = true) : swf d (sdel m a) = true := by
  induction m with
  | nil => exact h
  | cons e t ih =>
    obtain ⟨k, v⟩ := e
    have h' := swf_cons.mp h
    simp only [sdel]
    split
    · exact ih h'.2.2
    · exact swf_cons.mpr ⟨h'.1, above_sdel h'.2.1, ih h'.2.2⟩

/-- Inserting a value that is not the default at a key that is not held keeps the canonical form. -/
theorem swf_sins {m : List (Nat × α)} {a : Nat} {x : α} (hx : x ≠ d) (ha : ∀ e ∈ m, e.1 ≠ a) (h : swf d m = true) :
    swf d (sins m a x) = true := by
  induction m with
  | nil => exact swf_cons.mpr ⟨hx, by intro e he; simp at he, rfl⟩
  | cons e t ih =>
    obtain ⟨k, v⟩ := e
    have h' := swf_cons.mp h
    have hk : k ≠ a := ha (k, v) (by simp)
    simp only [sins]
    split
    next hlt =>
      refine swf_cons.mpr ⟨hx, ?_, h⟩
      intro e he
      rcases List.mem_cons.mp he with rfl | he
      · exact hlt
      · exact Nat.lt_trans hlt (h'.2.1 e he)
    next hlt =>
      exact swf_cons.mpr ⟨h'.1, above_sins h'.2.1 (by omega), ih (fun e he => ha e (by simp [he])) h'.2.2⟩

omit [DecidableEq α] in
theorem ne_of_mem_sdel {e : Nat × α} {a : Nat} {m : List (Nat × α)} (he : e ∈ sdel m a) : e.1 ≠ a := by
  induction m with
  | nil => simp [sdel] at he
  | cons f t ih =>
    obtain ⟨k, v⟩ := f
    simp only [sdel] at he
    split at he
    · exact ih he
    next hk =>
      rcases List.mem_cons.mp he with rfl | he
      · exact fun h => hk h.symm
      · exact ih he

/-- A write keeps the canonical form. -/
theorem swf_sset {m : List (Nat × α)} (a : Nat) (x : α) (h : swf d m = true) : swf d (sset d m a x) = true := by
  unfold sset
  split
  · exact swf_sdel a h
  next hx => exact swf_sins hx (fun _ he => ne_of_mem_sdel he) (swf_sdel a h)

/-- Writing a list of values keeps the canonical form. -/
theorem swf_ssetAll {m : List (Nat × α)} (a : Nat) (xs : List α) (h : swf d m = true) : swf d (ssetAll d m a xs) = true := by
  induction xs generalizing m a with
  | nil => exact h
  | cons x xs ih => exact ih (a + 1) (swf_sset a x h)

/-- Keeping some of the entries keeps the canonical form. -/
theorem swf_filter {m : List (Nat × α)} (p : Nat × α → Bool) (h : swf d m = true) : swf d (m.filter p) = true := by
  induction m with
  | nil => exact h
  | cons e t ih =>
    obtain ⟨k, v⟩ := e
    have h' := swf_cons.mp h
    rw [List.filter_cons]
    split
    · exact swf_cons.mpr ⟨h'.1, fun e he => h'.2.1 e ((List.mem_filter.mp he).1), ih h'.2.2⟩
    · exact ih h'.2.2

theorem swf_sfilter {m : List (Nat × α)} (p : Nat → Bool) (h : swf d m = true) : swf d (sfilter p m) = true :=
  swf_filter _ h

omit [DecidableEq α] in
/-- A removed key reads the default. -/
theorem sget_sdel_same (m : List (Nat × α)) (a : Nat) : sget d (sdel m a) a = d := by
  induction m with
  | nil => rfl
  | cons e t ih =>
    obtain ⟨k, v⟩ := e
    simp only [sdel]
    split
    · exact ih
    next hk => simp [sget, hk, ih]

omit [DecidableEq α] in
/-- Removing a key leaves every other key as it was. -/
theorem sget_sdel_other (m : List (Nat × α)) {a b : Nat} (hab : b ≠ a) : sget d (sdel m a) b = sget d m b := by
  induction m with
  | nil => rfl
  | cons e t ih =>
    obtain ⟨k, v⟩ := e
    simp only [sdel]
    split
    next hk => subst hk; simp [sget, hab, ih]
    · simp only [sget, ih]

omit [DecidableEq α] in
theorem sget_sins (m : List (Nat × α)) (a b : Nat) (x : α) (hm : ∀ e ∈ m, e.1 ≠ a) :
    sget d (sins m a x) b = if b = a then x else sget d m b := by
  induction m with
  | nil => simp [sins, sget]
  | cons e t ih =>
    obtain ⟨k, v⟩ := e
    have hk : k ≠ a := hm (k, v) (by simp)
    simp only [sins]
    split
    · simp [sget]
    · simp only [sget, ih fun e he => hm e (by simp [he])]
      by_cases h1 : b = k
      · subst h1; simp [hk]
      · simp [h1]

/-- A read after a write: the value written at its key, and what was there at every other. -/
theorem sget_sset (m : List (Nat × α)) (a b : Nat) (x : α) : sget d (sset d m a x) b = if b = a then x else sget d m b := by
  unfold sset
  split
  next hx =>
    by_cases h : b = a
    · subst h; rw [sget_sdel_same, if_pos rfl, hx]
    · rw [sget_sdel_other m h, if_neg h]
  · rw [sget_sins _ _ _ _ fun _ he => ne_of_mem_sdel he]
    by_cases h : b = a
    · rw [if_pos h, if_pos h]
    · rw [if_neg h, if_neg h, sget_sdel_other m h]

/-- A read after a write to the same key gives the value written. -/
@[simp] theorem sget_sset_same (m : List (Nat × α)) (a : Nat) (x : α) : sget d (sset d m a x) a = x := by
  rw [sget_sset, if_pos rfl]

/-- A write leaves every other key as it was. -/
theorem sget_sset_other (m : List (Nat × α)) {a b : Nat} {x : α} (hab : b ≠ a) : sget d (sset d m a x) b = sget d m b := by
  rw [sget_sset, if_neg hab]

/-- Writing a list of values leaves every key outside it as it was. -/
theorem sget_ssetAll_other (m : List (Nat × α)) {a b : Nat} {xs : List α} (hab : b < a ∨ a + xs.length ≤ b) :
    sget d (ssetAll d m a xs) b = sget d m b := by
  induction xs generalizing m a with
  | nil => rfl
  | cons x xs ih =>
    have hl : (x :: xs).length = xs.length + 1 := rfl
    rw [ssetAll, ih _ (by omega), sget_sset_other _ (by omega)]

/-- A read after a list was written gives its values. -/
theorem sget_ssetAll_at (m : List (Nat × α)) {a i : Nat} {xs : List α} (hi : i < xs.length) :
    sget d (ssetAll d m a xs) (a + i) = xs[i] := by
  induction xs generalizing m a i with
  | nil => simp at hi
  | cons x xs ih =>
    rw [ssetAll]
    cases i with
    | zero =>
      rw [sget_ssetAll_other _ (by omega)]
      exact sget_sset_same _ _ _
    | succ i =>
      have : a + (i + 1) = a + 1 + i := by omega
      rw [this, ih _ (by simpa using hi)]
      rfl

end Sys2Proof.Machine
end

