-- ==== Sys2Proof/Laws/State.lean ====
section
/-! SUPPORT. One lemma per field per update of a state, a strand and the die, so that no proof unfolds a record update. -/

namespace Sys2Proof.Machine

@[simp] theorem State.modMe_meId (s : State) (f : Strand → Strand) : (s.modMe f).meId = s.meId := rfl
@[simp] theorem State.modMe_others (s : State) (f : Strand → Strand) : (s.modMe f).others = s.others := rfl
@[simp] theorem State.modMe_die (s : State) (f : Strand → Strand) : (s.modMe f).die = s.die := rfl
@[simp] theorem State.modMe_agenda (s : State) (f : Strand → Strand) : (s.modMe f).agenda = s.agenda := rfl
@[simp] theorem State.modMe_me (s : State) (f : Strand → Strand) : (s.modMe f).me = f s.me := rfl
@[simp] theorem State.setReg_meId (s : State) (r : Fin 32) (v : Word) : (s.setReg r v).meId = s.meId := rfl
@[simp] theorem State.setReg_others (s : State) (r : Fin 32) (v : Word) : (s.setReg r v).others = s.others := rfl
@[simp] theorem State.setReg_die (s : State) (r : Fin 32) (v : Word) : (s.setReg r v).die = s.die := rfl
@[simp] theorem State.setReg_agenda (s : State) (r : Fin 32) (v : Word) : (s.setReg r v).agenda = s.agenda := rfl
@[simp] theorem State.setReg_me (s : State) (r : Fin 32) (v : Word) : (s.setReg r v).me = s.me.setReg r v := rfl
@[simp] theorem State.modDie_me (s : State) (f : Die → Die) : (s.modDie f).me = s.me := rfl
@[simp] theorem State.modDie_meId (s : State) (f : Die → Die) : (s.modDie f).meId = s.meId := rfl
@[simp] theorem State.modDie_others (s : State) (f : Die → Die) : (s.modDie f).others = s.others := rfl
@[simp] theorem State.modDie_agenda (s : State) (f : Die → Die) : (s.modDie f).agenda = s.agenda := rfl
@[simp] theorem State.modDie_die (s : State) (f : Die → Die) : (s.modDie f).die = f s.die := rfl
@[simp] theorem State.withDie_me (s : State) (d : Die) : (s.withDie d).me = s.me := rfl
@[simp] theorem State.withDie_meId (s : State) (d : Die) : (s.withDie d).meId = s.meId := rfl
@[simp] theorem State.withDie_others (s : State) (d : Die) : (s.withDie d).others = s.others := rfl
@[simp] theorem State.withDie_agenda (s : State) (d : Die) : (s.withDie d).agenda = s.agenda := rfl
@[simp] theorem State.withDie_die (s : State) (d : Die) : (s.withDie d).die = d := rfl
@[simp] theorem State.modCtx_meId (s : State) (f : VCtx → VCtx) : (s.modCtx f).meId = s.meId := rfl
@[simp] theorem State.modCtx_others (s : State) (f : VCtx → VCtx) : (s.modCtx f).others = s.others := rfl
@[simp] theorem State.modCtx_die (s : State) (f : VCtx → VCtx) : (s.modCtx f).die = s.die := rfl
@[simp] theorem State.modCtx_agenda (s : State) (f : VCtx → VCtx) : (s.modCtx f).agenda = s.agenda := rfl
@[simp] theorem State.modTrap_meId (s : State) (f : Trap → Trap) : (s.modTrap f).meId = s.meId := rfl
@[simp] theorem State.modTrap_others (s : State) (f : Trap → Trap) : (s.modTrap f).others = s.others := rfl
@[simp] theorem State.modTrap_die (s : State) (f : Trap → Trap) : (s.modTrap f).die = s.die := rfl
@[simp] theorem State.modTrap_agenda (s : State) (f : Trap → Trap) : (s.modTrap f).agenda = s.agenda := rfl
@[simp] theorem State.raise_meId (s : State) (f : Flags) : (s.raise f).meId = s.meId := rfl
@[simp] theorem State.raise_others (s : State) (f : Flags) : (s.raise f).others = s.others := rfl
@[simp] theorem State.raise_die (s : State) (f : Flags) : (s.raise f).die = s.die := rfl
@[simp] theorem State.raise_agenda (s : State) (f : Flags) : (s.raise f).agenda = s.agenda := rfl
@[simp] theorem State.retire_meId (s : State) : (s.retire).meId = s.meId := rfl
@[simp] theorem State.retire_others (s : State) : (s.retire).others = s.others := rfl
@[simp] theorem State.retire_die (s : State) : (s.retire).die = s.die := rfl
@[simp] theorem State.retire_agenda (s : State) : (s.retire).agenda = s.agenda := rfl
@[simp] theorem State.retireAt_meId (s : State) (pc : Word) : (s.retireAt pc).meId = s.meId := rfl
@[simp] theorem State.retireAt_others (s : State) (pc : Word) : (s.retireAt pc).others = s.others := rfl
@[simp] theorem State.retireAt_die (s : State) (pc : Word) : (s.retireAt pc).die = s.die := rfl
@[simp] theorem State.retireAt_agenda (s : State) (pc : Word) : (s.retireAt pc).agenda = s.agenda := rfl
@[simp] theorem State.writeRetire_meId (s : State) (r : Fin 32) (v : Word) : (s.writeRetire r v).meId = s.meId := rfl
@[simp] theorem State.writeRetire_others (s : State) (r : Fin 32) (v : Word) : (s.writeRetire r v).others = s.others := rfl
@[simp] theorem State.writeRetire_die (s : State) (r : Fin 32) (v : Word) : (s.writeRetire r v).die = s.die := rfl
@[simp] theorem State.writeRetire_agenda (s : State) (r : Fin 32) (v : Word) : (s.writeRetire r v).agenda = s.agenda := rfl
@[simp] theorem State.waitIn_meId (s : State) (w : Wait) : (s.waitIn w).meId = s.meId := rfl
@[simp] theorem State.waitIn_others (s : State) (w : Wait) : (s.waitIn w).others = s.others := rfl
@[simp] theorem State.waitIn_die (s : State) (w : Wait) : (s.waitIn w).die = s.die := rfl
@[simp] theorem State.waitIn_agenda (s : State) (w : Wait) : (s.waitIn w).agenda = s.agenda := rfl
@[simp] theorem State.leave_me (s : State) (d : Due) : (s.leave d).me = s.me := rfl
@[simp] theorem State.leave_meId (s : State) (d : Due) : (s.leave d).meId = s.meId := rfl
@[simp] theorem State.leave_others (s : State) (d : Due) : (s.leave d).others = s.others := rfl
@[simp] theorem State.leave_agenda (s : State) (d : Due) : (s.leave d).agenda = s.agenda := rfl
@[simp] theorem State.setCoreS_me (s : State) (c : Nat) (x : CoreS) : (s.setCoreS c x).me = s.me := rfl
@[simp] theorem State.setCoreS_meId (s : State) (c : Nat) (x : CoreS) : (s.setCoreS c x).meId = s.meId := rfl
@[simp] theorem State.setCoreS_others (s : State) (c : Nat) (x : CoreS) : (s.setCoreS c x).others = s.others := rfl
@[simp] theorem State.setCoreS_agenda (s : State) (c : Nat) (x : CoreS) : (s.setCoreS c x).agenda = s.agenda := rfl
@[simp] theorem State.setBarrier_me (s : State) (k : Nat) (b : Barrier) : (s.setBarrier k b).me = s.me := rfl
@[simp] theorem State.setBarrier_meId (s : State) (k : Nat) (b : Barrier) : (s.setBarrier k b).meId = s.meId := rfl
@[simp] theorem State.setBarrier_others (s : State) (k : Nat) (b : Barrier) : (s.setBarrier k b).others = s.others := rfl
@[simp] theorem State.setBarrier_agenda (s : State) (k : Nat) (b : Barrier) : (s.setBarrier k b).agenda = s.agenda := rfl
@[simp] theorem State.putCtx_meId (s : State) (r : VCtx × Flags) : (s.putCtx r).meId = s.meId := rfl
@[simp] theorem State.putCtx_others (s : State) (r : VCtx × Flags) : (s.putCtx r).others = s.others := rfl
@[simp] theorem State.putCtx_die (s : State) (r : VCtx × Flags) : (s.putCtx r).die = s.die := rfl
@[simp] theorem State.putCtx_agenda (s : State) (r : VCtx × Flags) : (s.putCtx r).agenda = s.agenda := rfl

@[simp] theorem Strand.setReg_pc (t : Strand) (r : Fin 32) (v : Word) : (t.setReg r v).pc = t.pc := by unfold Strand.setReg; split <;> rfl
@[simp] theorem Strand.setReg_priv (t : Strand) (r : Fin 32) (v : Word) : (t.setReg r v).priv = t.priv := by unfold Strand.setReg; split <;> rfl
@[simp] theorem Strand.setReg_fcsr (t : Strand) (r : Fin 32) (v : Word) : (t.setReg r v).fcsr = t.fcsr := by unfold Strand.setReg; split <;> rfl
@[simp] theorem Strand.setReg_trap (t : Strand) (r : Fin 32) (v : Word) : (t.setReg r v).trap = t.trap := by unfold Strand.setReg; split <;> rfl
@[simp] theorem Strand.setReg_xasid (t : Strand) (r : Fin 32) (v : Word) : (t.setReg r v).xasid = t.xasid := by unfold Strand.setReg; split <;> rfl
@[simp] theorem Strand.setReg_fxsel (t : Strand) (r : Fin 32) (v : Word) : (t.setReg r v).fxsel = t.fxsel := by unfold Strand.setReg; split <;> rfl
@[simp] theorem Strand.setReg_dom (t : Strand) (r : Fin 32) (v : Word) : (t.setReg r v).dom = t.dom := by unfold Strand.setReg; split <;> rfl
@[simp] theorem Strand.setReg_ctx (t : Strand) (r : Fin 32) (v : Word) : (t.setReg r v).ctx = t.ctx := by unfold Strand.setReg; split <;> rfl
@[simp] theorem Strand.setReg_id (t : Strand) (r : Fin 32) (v : Word) : (t.setReg r v).id = t.id := by unfold Strand.setReg; split <;> rfl
@[simp] theorem Strand.setReg_run (t : Strand) (r : Fin 32) (v : Word) : (t.setReg r v).run = t.run := by unfold Strand.setReg; split <;> rfl
@[simp] theorem Strand.jump_regs (t : Strand) (pc : Word) : (t.jump pc).regs = t.regs := rfl
@[simp] theorem Strand.jump_priv (t : Strand) (pc : Word) : (t.jump pc).priv = t.priv := rfl
@[simp] theorem Strand.jump_fcsr (t : Strand) (pc : Word) : (t.jump pc).fcsr = t.fcsr := rfl
@[simp] theorem Strand.jump_trap (t : Strand) (pc : Word) : (t.jump pc).trap = t.trap := rfl
@[simp] theorem Strand.jump_xasid (t : Strand) (pc : Word) : (t.jump pc).xasid = t.xasid := rfl
@[simp] theorem Strand.jump_fxsel (t : Strand) (pc : Word) : (t.jump pc).fxsel = t.fxsel := rfl
@[simp] theorem Strand.jump_dom (t : Strand) (pc : Word) : (t.jump pc).dom = t.dom := rfl
@[simp] theorem Strand.jump_ctx (t : Strand) (pc : Word) : (t.jump pc).ctx = t.ctx := rfl
@[simp] theorem Strand.jump_id (t : Strand) (pc : Word) : (t.jump pc).id = t.id := rfl
@[simp] theorem Strand.jump_pc (t : Strand) (pc : Word) : (t.jump pc).pc = pc := rfl
@[simp] theorem Strand.advance_regs (t : Strand) : (t.advance).regs = t.regs := rfl
@[simp] theorem Strand.advance_priv (t : Strand) : (t.advance).priv = t.priv := rfl
@[simp] theorem Strand.advance_fcsr (t : Strand) : (t.advance).fcsr = t.fcsr := rfl
@[simp] theorem Strand.advance_trap (t : Strand) : (t.advance).trap = t.trap := rfl
@[simp] theorem Strand.advance_xasid (t : Strand) : (t.advance).xasid = t.xasid := rfl
@[simp] theorem Strand.advance_fxsel (t : Strand) : (t.advance).fxsel = t.fxsel := rfl
@[simp] theorem Strand.advance_dom (t : Strand) : (t.advance).dom = t.dom := rfl
@[simp] theorem Strand.advance_ctx (t : Strand) : (t.advance).ctx = t.ctx := rfl
@[simp] theorem Strand.advance_id (t : Strand) : (t.advance).id = t.id := rfl
@[simp] theorem Strand.advance_pc (t : Strand) : t.advance.pc = t.pc + 4 := rfl
@[simp] theorem Strand.stop_pc (t : Strand) : (t.stop).pc = t.pc := rfl
@[simp] theorem Strand.stop_regs (t : Strand) : (t.stop).regs = t.regs := rfl
@[simp] theorem Strand.stop_priv (t : Strand) : (t.stop).priv = t.priv := rfl
@[simp] theorem Strand.stop_fcsr (t : Strand) : (t.stop).fcsr = t.fcsr := rfl
@[simp] theorem Strand.stop_trap (t : Strand) : (t.stop).trap = t.trap := rfl
@[simp] theorem Strand.stop_xasid (t : Strand) : (t.stop).xasid = t.xasid := rfl
@[simp] theorem Strand.stop_fxsel (t : Strand) : (t.stop).fxsel = t.fxsel := rfl
@[simp] theorem Strand.stop_dom (t : Strand) : (t.stop).dom = t.dom := rfl
@[simp] theorem Strand.stop_ctx (t : Strand) : (t.stop).ctx = t.ctx := rfl
@[simp] theorem Strand.stop_id (t : Strand) : (t.stop).id = t.id := rfl
@[simp] theorem Strand.raise_pc (t : Strand) (f : Flags) : (t.raise f).pc = t.pc := rfl
@[simp] theorem Strand.raise_regs (t : Strand) (f : Flags) : (t.raise f).regs = t.regs := rfl
@[simp] theorem Strand.raise_priv (t : Strand) (f : Flags) : (t.raise f).priv = t.priv := rfl
@[simp] theorem Strand.raise_trap (t : Strand) (f : Flags) : (t.raise f).trap = t.trap := rfl
@[simp] theorem Strand.raise_xasid (t : Strand) (f : Flags) : (t.raise f).xasid = t.xasid := rfl
@[simp] theorem Strand.raise_fxsel (t : Strand) (f : Flags) : (t.raise f).fxsel = t.fxsel := rfl
@[simp] theorem Strand.raise_dom (t : Strand) (f : Flags) : (t.raise f).dom = t.dom := rfl
@[simp] theorem Strand.raise_ctx (t : Strand) (f : Flags) : (t.raise f).ctx = t.ctx := rfl
@[simp] theorem Strand.raise_id (t : Strand) (f : Flags) : (t.raise f).id = t.id := rfl
@[simp] theorem Strand.raise_run (t : Strand) (f : Flags) : (t.raise f).run = t.run := rfl

@[simp] theorem State.retire_me_regs (s : State) : s.retire.me.regs = s.me.regs := rfl
@[simp] theorem State.retireAt_me_regs (s : State) (pc : Word) : (s.retireAt pc).me.regs = s.me.regs := rfl
@[simp] theorem State.retire_me_priv (s : State) : s.retire.me.priv = s.me.priv := rfl
@[simp] theorem State.retireAt_me_priv (s : State) (pc : Word) : (s.retireAt pc).me.priv = s.me.priv := rfl
@[simp] theorem State.retire_me_fcsr (s : State) : s.retire.me.fcsr = s.me.fcsr := rfl
@[simp] theorem State.retireAt_me_fcsr (s : State) (pc : Word) : (s.retireAt pc).me.fcsr = s.me.fcsr := rfl
@[simp] theorem State.retire_me_trap (s : State) : s.retire.me.trap = s.me.trap := rfl
@[simp] theorem State.retireAt_me_trap (s : State) (pc : Word) : (s.retireAt pc).me.trap = s.me.trap := rfl
@[simp] theorem State.retire_me_xasid (s : State) : s.retire.me.xasid = s.me.xasid := rfl
@[simp] theorem State.retireAt_me_xasid (s : State) (pc : Word) : (s.retireAt pc).me.xasid = s.me.xasid := rfl
@[simp] theorem State.retire_me_fxsel (s : State) : s.retire.me.fxsel = s.me.fxsel := rfl
@[simp] theorem State.retireAt_me_fxsel (s : State) (pc : Word) : (s.retireAt pc).me.fxsel = s.me.fxsel := rfl
@[simp] theorem State.retire_me_dom (s : State) : s.retire.me.dom = s.me.dom := rfl
@[simp] theorem State.retireAt_me_dom (s : State) (pc : Word) : (s.retireAt pc).me.dom = s.me.dom := rfl
@[simp] theorem State.retire_me_ctx (s : State) : s.retire.me.ctx = s.me.ctx := rfl
@[simp] theorem State.retireAt_me_ctx (s : State) (pc : Word) : (s.retireAt pc).me.ctx = s.me.ctx := rfl
@[simp] theorem State.retire_me_id (s : State) : s.retire.me.id = s.me.id := rfl
@[simp] theorem State.retireAt_me_id (s : State) (pc : Word) : (s.retireAt pc).me.id = s.me.id := rfl
@[simp] theorem State.retire_me_pc (s : State) : s.retire.me.pc = s.me.pc + 4 := rfl
@[simp] theorem State.retireAt_me_pc (s : State) (pc : Word) : (s.retireAt pc).me.pc = pc := rfl
@[simp] theorem State.retire_me_wait (s : State) : s.retire.me.run.wait = .ready := rfl
@[simp] theorem State.waitIn_me_pc (s : State) (w : Wait) : (s.waitIn w).me.pc = s.me.pc := rfl
@[simp] theorem State.modCtx_me_pc (s : State) (g : VCtx → VCtx) : (s.modCtx g).me.pc = s.me.pc := rfl
@[simp] theorem State.waitIn_me_regs (s : State) (w : Wait) : (s.waitIn w).me.regs = s.me.regs := rfl
@[simp] theorem State.modCtx_me_regs (s : State) (g : VCtx → VCtx) : (s.modCtx g).me.regs = s.me.regs := rfl
@[simp] theorem State.waitIn_me_priv (s : State) (w : Wait) : (s.waitIn w).me.priv = s.me.priv := rfl
@[simp] theorem State.modCtx_me_priv (s : State) (g : VCtx → VCtx) : (s.modCtx g).me.priv = s.me.priv := rfl
@[simp] theorem State.waitIn_me_fcsr (s : State) (w : Wait) : (s.waitIn w).me.fcsr = s.me.fcsr := rfl
@[simp] theorem State.modCtx_me_fcsr (s : State) (g : VCtx → VCtx) : (s.modCtx g).me.fcsr = s.me.fcsr := rfl
@[simp] theorem State.waitIn_me_trap (s : State) (w : Wait) : (s.waitIn w).me.trap = s.me.trap := rfl
@[simp] theorem State.modCtx_me_trap (s : State) (g : VCtx → VCtx) : (s.modCtx g).me.trap = s.me.trap := rfl
@[simp] theorem State.waitIn_me_xasid (s : State) (w : Wait) : (s.waitIn w).me.xasid = s.me.xasid := rfl
@[simp] theorem State.modCtx_me_xasid (s : State) (g : VCtx → VCtx) : (s.modCtx g).me.xasid = s.me.xasid := rfl
@[simp] theorem State.waitIn_me_fxsel (s : State) (w : Wait) : (s.waitIn w).me.fxsel = s.me.fxsel := rfl
@[simp] theorem State.modCtx_me_fxsel (s : State) (g : VCtx → VCtx) : (s.modCtx g).me.fxsel = s.me.fxsel := rfl
@[simp] theorem State.waitIn_me_dom (s : State) (w : Wait) : (s.waitIn w).me.dom = s.me.dom := rfl
@[simp] theorem State.modCtx_me_dom (s : State) (g : VCtx → VCtx) : (s.modCtx g).me.dom = s.me.dom := rfl
@[simp] theorem State.waitIn_me_ctx (s : State) (w : Wait) : (s.waitIn w).me.ctx = s.me.ctx := rfl
@[simp] theorem State.waitIn_me_id (s : State) (w : Wait) : (s.waitIn w).me.id = s.me.id := rfl
@[simp] theorem State.modCtx_me_id (s : State) (g : VCtx → VCtx) : (s.modCtx g).me.id = s.me.id := rfl
@[simp] theorem State.waitIn_me_wait (s : State) (w : Wait) : (s.waitIn w).me.run.wait = w := rfl
@[simp] theorem State.modCtx_me_ctx (s : State) (g : VCtx → VCtx) : (s.modCtx g).me.ctx = g s.me.ctx := rfl
@[simp] theorem State.modCtx_me_run (s : State) (g : VCtx → VCtx) : (s.modCtx g).me.run = s.me.run := rfl

@[simp] theorem Die.setReg_mem (d : Die) (pa v : Nat) : (d.setReg pa v).mem = d.mem := rfl
@[simp] theorem Die.setReg_xlat (d : Die) (pa v : Nat) : (d.setReg pa v).xlat = d.xlat := rfl
@[simp] theorem Die.setReg_dtime (d : Die) (pa v : Nat) : (d.setReg pa v).dtime = d.dtime := rfl
@[simp] theorem Die.setReg_clock (d : Die) (pa v : Nat) : (d.setReg pa v).clock = d.clock := rfl
@[simp] theorem Die.setReg_width (d : Die) (pa v : Nat) : (d.setReg pa v).width = d.width := rfl
@[simp] theorem Die.setReg_errlog (d : Die) (pa v : Nat) : (d.setReg pa v).errlog = d.errlog := rfl
@[simp] theorem Die.setReg_due (d : Die) (pa v : Nat) : (d.setReg pa v).due = d.due := rfl
@[simp] theorem Die.setReg_tickets (d : Die) (pa v : Nat) : (d.setReg pa v).tickets = d.tickets := rfl
@[simp] theorem Die.setReg_sent (d : Die) (pa v : Nat) : (d.setReg pa v).sent = d.sent := rfl
@[simp] theorem Die.setReg_posted (d : Die) (pa v : Nat) : (d.setReg pa v).posted = d.posted := rfl
@[simp] theorem Die.setReg_reports (d : Die) (pa v : Nat) : (d.setReg pa v).reports = d.reports := rfl
@[simp] theorem Die.setReg_orphans (d : Die) (pa v : Nat) : (d.setReg pa v).orphans = d.orphans := rfl
@[simp] theorem Die.setReg_atomicEn (d : Die) (pa v : Nat) : (d.setReg pa v).atomicEn = d.atomicEn := rfl
@[simp] theorem Die.setReg_cores (d : Die) (pa v : Nat) : (d.setReg pa v).cores = d.cores := rfl
@[simp] theorem Die.setReg_barriers (d : Die) (pa v : Nat) : (d.setReg pa v).barriers = d.barriers := rfl
@[simp] theorem Die.setReg_hot (d : Die) (pa v : Nat) : (d.setReg pa v).hot = d.hot := rfl
@[simp] theorem Die.setReg_jobs (d : Die) (pa v : Nat) : (d.setReg pa v).jobs = d.jobs := rfl
@[simp] theorem Die.setReg_endings (d : Die) (pa v : Nat) : (d.setReg pa v).endings = d.endings := rfl
@[simp] theorem Die.setReg_lfsr (d : Die) (pa v : Nat) : (d.setReg pa v).lfsr = d.lfsr := rfl
@[simp] theorem Die.setReg_popTurn (d : Die) (pa v : Nat) : (d.setReg pa v).popTurn = d.popTurn := rfl
@[simp] theorem Die.setReg_cmds (d : Die) (pa v : Nat) : (d.setReg pa v).cmds = d.cmds := rfl
@[simp] theorem Die.setReg_missed (d : Die) (pa v : Nat) : (d.setReg pa v).missed = d.missed := rfl
@[simp] theorem Die.setReg_sfu (d : Die) (pa v : Nat) : (d.setReg pa v).sfu = d.sfu := rfl
@[simp] theorem Die.setReg_walks (d : Die) (pa v : Nat) : (d.setReg pa v).walks = d.walks := rfl
@[simp] theorem Die.setReg_orders (d : Die) (pa v : Nat) : (d.setReg pa v).orders = d.orders := rfl
@[simp] theorem Die.setReg_retired (d : Die) (pa v : Nat) : (d.setReg pa v).retired = d.retired := rfl
@[simp] theorem Die.setReg_lost (d : Die) (pa v : Nat) : (d.setReg pa v).lost = d.lost := rfl
@[simp] theorem Die.setReg_tokens (d : Die) (pa v : Nat) : (d.setReg pa v).tokens = d.tokens := rfl
@[simp] theorem Die.setReg_ports (d : Die) (pa v : Nat) : (d.setReg pa v).ports = d.ports := rfl
@[simp] theorem Die.setReg_pkg (d : Die) (pa v : Nat) : (d.setReg pa v).pkg = d.pkg := rfl
@[simp] theorem Die.setReg_sqs (d : Die) (pa v : Nat) : (d.setReg pa v).sqs = d.sqs := rfl
@[simp] theorem Die.setReg_mig (d : Die) (pa v : Nat) : (d.setReg pa v).mig = d.mig := rfl
@[simp] theorem Die.modJob_mem (d : Die) (h : Nat) (g : Job → Job) : (d.modJob h g).mem = d.mem := by unfold Die.modJob; split <;> rfl
@[simp] theorem Die.modJob_xlat (d : Die) (h : Nat) (g : Job → Job) : (d.modJob h g).xlat = d.xlat := by unfold Die.modJob; split <;> rfl
@[simp] theorem Die.modJob_mmio (d : Die) (h : Nat) (g : Job → Job) : (d.modJob h g).mmio = d.mmio := by unfold Die.modJob; split <;> rfl
@[simp] theorem Die.modJob_dtime (d : Die) (h : Nat) (g : Job → Job) : (d.modJob h g).dtime = d.dtime := by unfold Die.modJob; split <;> rfl
@[simp] theorem Die.modJob_clock (d : Die) (h : Nat) (g : Job → Job) : (d.modJob h g).clock = d.clock := by unfold Die.modJob; split <;> rfl
@[simp] theorem Die.modJob_width (d : Die) (h : Nat) (g : Job → Job) : (d.modJob h g).width = d.width := by unfold Die.modJob; split <;> rfl
@[simp] theorem Die.modJob_errlog (d : Die) (h : Nat) (g : Job → Job) : (d.modJob h g).errlog = d.errlog := by unfold Die.modJob; split <;> rfl
@[simp] theorem Die.modJob_due (d : Die) (h : Nat) (g : Job → Job) : (d.modJob h g).due = d.due := by unfold Die.modJob; split <;> rfl
@[simp] theorem Die.modJob_tickets (d : Die) (h : Nat) (g : Job → Job) : (d.modJob h g).tickets = d.tickets := by unfold Die.modJob; split <;> rfl
@[simp] theorem Die.modJob_sent (d : Die) (h : Nat) (g : Job → Job) : (d.modJob h g).sent = d.sent := by unfold Die.modJob; split <;> rfl
@[simp] theorem Die.modJob_posted (d : Die) (h : Nat) (g : Job → Job) : (d.modJob h g).posted = d.posted := by unfold Die.modJob; split <;> rfl
@[simp] theorem Die.modJob_reports (d : Die) (h : Nat) (g : Job → Job) : (d.modJob h g).reports = d.reports := by unfold Die.modJob; split <;> rfl
@[simp] theorem Die.modJob_orphans (d : Die) (h : Nat) (g : Job → Job) : (d.modJob h g).orphans = d.orphans := by unfold Die.modJob; split <;> rfl
@[simp] theorem Die.modJob_atomicEn (d : Die) (h : Nat) (g : Job → Job) : (d.modJob h g).atomicEn = d.atomicEn := by unfold Die.modJob; split <;> rfl
@[simp] theorem Die.modJob_cores (d : Die) (h : Nat) (g : Job → Job) : (d.modJob h g).cores = d.cores := by unfold Die.modJob; split <;> rfl
@[simp] theorem Die.modJob_barriers (d : Die) (h : Nat) (g : Job → Job) : (d.modJob h g).barriers = d.barriers := by unfold Die.modJob; split <;> rfl
@[simp] theorem Die.modJob_hot (d : Die) (h : Nat) (g : Job → Job) : (d.modJob h g).hot = d.hot := by unfold Die.modJob; split <;> rfl
@[simp] theorem Die.modJob_endings (d : Die) (h : Nat) (g : Job → Job) : (d.modJob h g).endings = d.endings := by unfold Die.modJob; split <;> rfl
@[simp] theorem Die.modJob_lfsr (d : Die) (h : Nat) (g : Job → Job) : (d.modJob h g).lfsr = d.lfsr := by unfold Die.modJob; split <;> rfl
@[simp] theorem Die.modJob_popTurn (d : Die) (h : Nat) (g : Job → Job) : (d.modJob h g).popTurn = d.popTurn := by unfold Die.modJob; split <;> rfl
@[simp] theorem Die.modJob_cmds (d : Die) (h : Nat) (g : Job → Job) : (d.modJob h g).cmds = d.cmds := by unfold Die.modJob; split <;> rfl
@[simp] theorem Die.modJob_missed (d : Die) (h : Nat) (g : Job → Job) : (d.modJob h g).missed = d.missed := by unfold Die.modJob; split <;> rfl
@[simp] theorem Die.modJob_sfu (d : Die) (h : Nat) (g : Job → Job) : (d.modJob h g).sfu = d.sfu := by unfold Die.modJob; split <;> rfl
@[simp] theorem Die.modJob_walks (d : Die) (h : Nat) (g : Job → Job) : (d.modJob h g).walks = d.walks := by unfold Die.modJob; split <;> rfl
@[simp] theorem Die.modJob_orders (d : Die) (h : Nat) (g : Job → Job) : (d.modJob h g).orders = d.orders := by unfold Die.modJob; split <;> rfl
@[simp] theorem Die.modJob_retired (d : Die) (h : Nat) (g : Job → Job) : (d.modJob h g).retired = d.retired := by unfold Die.modJob; split <;> rfl
@[simp] theorem Die.modJob_lost (d : Die) (h : Nat) (g : Job → Job) : (d.modJob h g).lost = d.lost := by unfold Die.modJob; split <;> rfl
@[simp] theorem Die.modJob_tokens (d : Die) (h : Nat) (g : Job → Job) : (d.modJob h g).tokens = d.tokens := by unfold Die.modJob; split <;> rfl
@[simp] theorem Die.modJob_ports (d : Die) (h : Nat) (g : Job → Job) : (d.modJob h g).ports = d.ports := by unfold Die.modJob; split <;> rfl
@[simp] theorem Die.modJob_pkg (d : Die) (h : Nat) (g : Job → Job) : (d.modJob h g).pkg = d.pkg := by unfold Die.modJob; split <;> rfl
@[simp] theorem Die.modJob_sqs (d : Die) (h : Nat) (g : Job → Job) : (d.modJob h g).sqs = d.sqs := by unfold Die.modJob; split <;> rfl
@[simp] theorem Die.modJob_mig (d : Die) (h : Nat) (g : Job → Job) : (d.modJob h g).mig = d.mig := by unfold Die.modJob; split <;> rfl

/-- A scalar register read after it was written (R14). -/
theorem Strand.setReg_same (t : Strand) (r : Fin 32) (v : Word) (h : r ≠ 0) : (t.setReg r v).reg r = v := by
  simp [Strand.setReg, Strand.reg, h]

/-- Every other scalar register keeps its value (R14). -/
theorem Strand.setReg_other (t : Strand) (r q : Fin 32) (v : Word) (h : q ≠ r) : (t.setReg r v).reg q = t.reg q := by
  unfold Strand.setReg Strand.reg
  split
  · rfl
  · split
    · rfl
    · exact Vector.getElem_set_ne (hi := r.isLt) (hj := q.isLt) (by simpa [Fin.ext_iff, eq_comm] using h)

/-- `s0` reads as zero (R14). -/
@[simp] theorem Strand.reg_zero (t : Strand) : t.reg 0 = 0 := rfl

/-- The registers of the issuing strand, after a step that only retires. -/
@[simp] theorem State.retire_reg (s : State) (r : Fin 32) : s.retire.reg r = s.reg r := rfl
@[simp] theorem State.retireAt_reg (s : State) (pc : Word) (r : Fin 32) : (s.retireAt pc).reg r = s.reg r := rfl
@[simp] theorem State.setReg_reg (s : State) (r q : Fin 32) (v : Word) : (s.setReg r v).reg q = (s.me.setReg r v).reg q := rfl
@[simp] theorem State.writeRetire_reg (s : State) (r q : Fin 32) (v : Word) : (s.writeRetire r v).reg q = (s.me.setReg r v).reg q := rfl
@[simp] theorem State.writeRetire_me_pc (s : State) (r : Fin 32) (v : Word) : (s.writeRetire r v).me.pc = s.me.pc + 4 := by
  simp [State.writeRetire]

end Sys2Proof.Machine
end

