-- ==== Sys2Proof/Laws/Memory.lean ====
section
/-! SUPPORT. Every operation of memory keeps its canonical form, and what a physical write changes. -/

namespace Sys2Proof.Machine

/-- The canonical form, list by list. -/
theorem Mem.wf_iff (m : Mem) : m.wf = true ↔ swf 0 m.bytes = true ∧ swf 0 m.keys = true ∧ swf 0 m.gens = true ∧ swf 0 m.otags = true
    ∧ swf 0 m.unclean = true ∧ swf false m.errs = true ∧ swf Line.none m.lines = true ∧ swf [] m.under = true := by
  simp [Mem.wf, and_assoc]

/-- Memories are in their form where each of their lists is. -/
theorem Mem.wf_mk {b k g o u e l n c} (h1 : swf 0 b = true) (h2 : swf 0 k = true) (h3 : swf 0 g = true) (h4 : swf 0 o = true)
    (h5 : swf 0 u = true) (h6 : swf false e = true) (h7 : swf Line.none l = true) (h8 : swf [] n = true) :
    (Mem.mk b k g o u e l n c).wf = true :=
  (Mem.wf_iff _).2 ⟨h1, h2, h3, h4, h5, h6, h7, h8⟩

theorem Die.wf_iff (d : Die) : d.wf = true ↔ d.mem.wf = true ∧ swf 0 d.mmio = true := by
  simp [Die.wf]

/-- Replace the memories, keeping the form. -/
theorem Die.wf_mem {d : Die} {m : Mem} (h : d.wf = true) (hm : m.wf = true) : ({ d with mem := m } : Die).wf = true :=
  (Die.wf_iff _).2 ⟨hm, ((Die.wf_iff _).1 h).2⟩

theorem Die.wf_memOf {d : Die} (h : d.wf = true) : d.mem.wf = true := ((Die.wf_iff _).1 h).1

/-! ### Registers and records -/

theorem Die.setReg_wf {d : Die} (pa v : Nat) (h : d.wf = true) : (d.setReg pa v).wf = true := by
  rw [Die.wf_iff] at *
  exact ⟨h.1, swf_sset _ _ h.2⟩

theorem Die.addReg_wf {d : Die} (pa n : Nat) (h : d.wf = true) : (d.addReg pa n).wf = true := Die.setReg_wf _ _ h

/-! ### Encryption and snapshots -/

theorem Mem.rekey_wf {m : Mem} (o b : Nat) (h : m.wf = true) : (m.rekey o b).wf = true := by
  unfold Mem.rekey
  dsimp only
  split
  · exact h
  · rw [Mem.wf_iff] at *
    refine ⟨?_, swf_sset _ _ h.2.1, h.2.2⟩
    split
    · exact h.1
    · exact swf_ssetAll _ _ h.1

theorem Mem.rekeyAll_wf {m : Mem} (o b n : Nat) (h : m.wf = true) : (m.rekeyAll o b n).wf = true := by
  induction n generalizing m b with
  | zero => exact h
  | succ n ih => exact ih _ (Mem.rekey_wf o b h)

theorem Mem.restore_wf {m : Mem} (k : Nat) (h : m.wf = true) : (m.restore k).wf = true := by
  unfold Mem.restore
  split
  · exact h
  · obtain ⟨h1, h2, h3, h4, h5, h6, h7, h8⟩ := (Mem.wf_iff _).1 h
    exact Mem.wf_mk (swf_ssetAll _ _ h1) (swf_ssetAll _ _ h2) (h3) (h4) (h5) (h6) (h7) (swf_sdel _ h8)

/-! ### The L2 -/

theorem Die.writeBackSector_wf {d : Die} (line : Nat) (l : Line) (k : Nat) (h : d.wf = true) : (d.writeBackSector line l k).wf = true := by
  obtain ⟨h1, h2, h3, h4, h5, h6, h7, h8⟩ := (Mem.wf_iff _).1 (Die.wf_memOf h)
  unfold Die.writeBackSector
  dsimp only
  split
  · split
    · exact Die.addReg_wf _ _ (Die.wf_mem h (Mem.wf_mk h1 h2 h3 h4 h5 h6 h7 (swf_sdel _ h8)))
    · exact Die.wf_mem h (Mem.restore_wf _ (Die.wf_memOf h))
  · exact h

theorem Mem.setLine_wf {m : Mem} (a : Nat) (l : Line) (h : m.wf = true) :
    ({ m with lines := sset Line.none m.lines a l } : Mem).wf = true := by
  obtain ⟨h1, h2, h3, h4, h5, h6, h7, h8⟩ := (Mem.wf_iff _).1 h
  exact Mem.wf_mk (h1) (h2) (h3) (h4) (h5) (h6) (swf_sset _ _ h7) (h8)

theorem Die.evict_wf {d : Die} (line : Nat) (h : d.wf = true) : (d.evict line).wf = true := by
  have hw : ∀ l : Line, ((((d.writeBackSector line l 0).writeBackSector line l 1).writeBackSector line l 2).writeBackSector line l 3).wf = true :=
    fun l => Die.writeBackSector_wf line l 3 (Die.writeBackSector_wf line l 2 (Die.writeBackSector_wf line l 1 (Die.writeBackSector_wf line l 0 h)))
  exact Die.wf_mem (hw _) (Mem.setLine_wf _ _ (Die.wf_memOf (hw _)))

theorem Die.makeRoom_wf {d : Die} (pa : Nat) (h : d.wf = true) : (d.makeRoom pa).wf = true := by
  unfold Die.makeRoom
  dsimp only
  split
  · exact h
  · split
    · exact Die.evict_wf _ h
    · exact h

theorem Die.uncached_wf {d d' : Die} {o pa : Nat} {w x : Bool} (h : d.wf = true) (he : d.uncached o pa w x = .ok d') : d'.wf = true := by
  unfold Die.uncached at he
  split at he
  · cases he
  · have hd : (if w then d.addReg (telemetry o 0x18) 128 else d).wf = true := by
      split
      · exact Die.addReg_wf _ _ h
      · exact h
    rw [← Except.ok.inj he]
    obtain ⟨h1, h2, h3, h4, h5, h6, h7, h8⟩ := (Mem.wf_iff _).1 (Die.wf_memOf hd)
    dsimp only
    split
    · exact Die.wf_mem hd (Mem.wf_mk h1 h2 h3 h4 h5 (swf_sset _ _ h6) h7 h8)
    · exact hd

/-- An access of the L2 that succeeds keeps the form. -/
theorem Die.l2Access_wf {d d' : Die} {o pa : Nat} {f w : Bool} (h : d.wf = true) (he : d.l2Access o pa f w = .ok d') : d'.wf = true := by
  unfold Die.l2Access at he
  extract_lets line k l d1 l1 hit d2 d3 l2 at he
  have h1 : d1.wf = true := by
    unfold d1
    split
    · exact Die.evict_wf _ h
    · exact h
  have h2 : d2.wf = true := by
    unfold d2
    split
    · exact Die.addReg_wf _ _ h1
    · exact h1
  have h3 : d3.wf = true := by
    unfold d3
    split
    · exact Die.makeRoom_wf _ h2
    · exact h2
  iterate 4 (split at he; · cases he)
  split at he
  · exact Die.uncached_wf h3 he
  · rw [← Except.ok.inj he]
    obtain ⟨a1, a2, a3, a4, a5, a6, a7, a8⟩ := (Mem.wf_iff _).1 (Die.wf_memOf h3)
    refine Die.wf_mem h3 (Mem.wf_mk a1 a2 a3 a4 a5 ?_ (swf_sset _ _ a7) ?_)
    · split
      · exact swf_sset _ _ a6
      · exact a6
    · split
      · exact swf_sset _ _ a8
      · exact a8

/-! ### On-die memories -/

theorem Mem.retag_wf {m : Mem} (o b : Nat) (h : m.wf = true) : (m.retag o b).wf = true := by
  unfold Mem.retag
  split
  · exact h
  · obtain ⟨h1, h2, h3, h4, h5, h6, h7, h8⟩ := (Mem.wf_iff _).1 h
    exact Mem.wf_mk (h1) (h2) (h3) (swf_sset _ _ h4) (swf_sset _ _ h5) (h6) (h7) (h8)

theorem Mem.cleanGranule_wf {m : Mem} (g : Nat) (h : m.wf = true) : (m.cleanGranule g).wf = true := by
  unfold Mem.cleanGranule
  dsimp only
  split
  · obtain ⟨h1, h2, h3, h4, h5, h6, h7, h8⟩ := (Mem.wf_iff _).1 h
    exact Mem.wf_mk (swf_ssetAll _ _ h1) (h2) (h3) (h4) (swf_sset _ _ h5) (h6) (h7) (h8)
  · exact h

theorem Mem.cleanFor_wf {m : Mem} (pa n : Nat) (h : m.wf = true) : (m.cleanFor pa n).wf = true := by
  unfold Mem.cleanFor
  split
  · exact h
  · exact Mem.cleanGranule_wf _ (Mem.cleanGranule_wf _ (Mem.cleanGranule_wf _ h))

theorem swf_clear {e : List (Nat × Bool)} (ws : List Nat) (h : swf false e = true) :
    swf false (ws.foldl (fun e w => sset false e w false) e) = true := by
  induction ws generalizing e with
  | nil => exact h
  | cons w ws ih => exact ih (swf_sset _ _ h)

theorem Mem.setBytes_wf {m : Mem} (pa : Nat) (bs : List Byte) (h : m.wf = true) :
    ({ m with bytes := ssetAll 0 m.bytes pa bs } : Mem).wf = true := by
  rw [Mem.wf_iff] at *
  exact ⟨swf_ssetAll _ _ h.1, h.2⟩

/-! ### Requests -/

/-- A physical read that answers keeps the form. -/
theorem Die.physRead_wf {d d' : Die} {o pa n : Nat} {bs : List Byte} (h : d.wf = true) (he : d.physRead o pa n = .ok (bs, d')) :
    d'.wf = true := by
  unfold Die.physRead at he
  dsimp only at he
  split at he
  case h_1 =>
    split at he
    · split at he
      · cases he
      · next h1 => cases he; exact Die.l2Access_wf h h1
    · cases he
  all_goals (try split at he) <;> (try split at he) <;> cases he <;> exact Die.wf_mem h (Mem.retag_wf _ _ (Die.wf_memOf h))

/-- A physical write that is accepted keeps the form. -/
theorem Die.physWrite_wf {d d' : Die} {o pa : Nat} {bs : List Byte} (h : d.wf = true) (he : d.physWrite o pa bs = .ok d') :
    d'.wf = true := by
  obtain ⟨m1, m2, m3, m4, m5, m6, m7, m8⟩ := (Mem.wf_iff _).1 (Mem.cleanFor_wf pa bs.length (Mem.retag_wf o (pa / 4096) (Die.wf_memOf h)))
  unfold Die.physWrite at he
  dsimp only at he
  split at he
  case h_1 =>
    split at he
    · split at he
      · cases he
      · next h1 =>
        cases he
        have hd := Die.l2Access_wf h h1
        exact Die.wf_mem hd (Mem.setBytes_wf _ _ (Mem.rekeyAll_wf _ _ _ (Die.wf_memOf hd)))
    · cases he
  case h_2 =>
    (split at he <;> try split at he) <;> cases he
    exact Die.wf_mem h (Mem.wf_mk (swf_ssetAll _ _ m1) m2 m3 m4 m5 (swf_sset _ _ m6) m7 m8)
  all_goals (try split at he) <;> (try split at he) <;> cases he <;>
    exact Die.wf_mem h (Mem.wf_mk (swf_ssetAll _ _ m1) m2 m3 m4 m5 (swf_clear _ m6) m7 m8)

/-- An error record keeps the form. -/
theorem Die.errorRecord_wf {d : Die} (c i a : Nat) (h : d.wf = true) : (d.errorRecord c i a).wf = true := by
  have hd : ({ d with errlog := ⟨c, i, a⟩ :: d.errlog } : Die).wf = true := h
  unfold Die.errorRecord
  dsimp only
  split
  · apply Die.setReg_wf
    split
    · next hw => exact Die.physWrite_wf hd hw
    · exact h
  · exact h

/-- A long read keeps the form. -/
theorem Die.readLong_wf {d : Die} (o pa n k : Nat) (h : d.wf = true) : (d.readLong o pa n k).2.1.wf = true := by
  induction k generalizing d pa n with
  | zero => exact h
  | succ k ih =>
    unfold Die.readLong
    split
    · exact h
    · dsimp only
      split
      · exact h
      · next bs d1 h1 => exact ih _ _ (Die.physRead_wf h h1)

/-- A long write keeps the form. -/
theorem Die.writeLong_wf {d : Die} (o pa : Nat) (bs : List Byte) (k : Nat) (h : d.wf = true) : (d.writeLong o pa bs k).1.wf = true := by
  induction k generalizing d pa bs with
  | zero => exact h
  | succ k ih =>
    unfold Die.writeLong
    split
    · exact h
    · dsimp only
      split
      · exact h
      · next d1 h1 =>
        have := ih (pa + Nat.min bs.length (128 - pa % 128)) (bs.drop (Nat.min bs.length (128 - pa % 128))) (Die.physWrite_wf h h1)
        split
        · next heq => rw [heq] at this; exact this
        · next heq => rw [heq] at this; exact this

/-! ### Events of the memories -/

theorem Mem.clearCsm_wf {m : Mem} (lo hi : Nat) (h : m.wf = true) : (m.clearCsm lo hi).wf = true := by
  obtain ⟨h1, h2, h3, h4, h5, h6, h7, h8⟩ := (Mem.wf_iff _).1 h
  exact Mem.wf_mk (swf_sfilter _ h1) (h2) (h3) (swf_sfilter _ h4) (swf_sfilter _ h5) (swf_filter _ h6) (h7) (h8)

theorem Die.dropLine_wf {d : Die} (line : Nat) (h : d.wf = true) : (d.dropLine line).wf = true := by
  have hf : ∀ (l : Line) (ks : List Nat) (m : Mem), m.wf = true →
      (ks.foldl (fun m k => if l.dirty.getLsbD k then m.restore (4 * line + k) else m) m).wf = true := by
    intro l ks
    induction ks with
    | nil => intro m hm; exact hm
    | cons k ks ih =>
      intro m hm
      apply ih
      show (if l.dirty.getLsbD k then m.restore (4 * line + k) else m).wf = true
      split
      · exact Mem.restore_wf _ hm
      · exact hm
  have hm := hf (sget Line.none d.mem.lines line) (List.range 4) d.mem (Die.wf_memOf h)
  unfold Die.dropLine
  apply Die.wf_mem h
  obtain ⟨m1, m2, m3, m4, m5, m6, m7, m8⟩ := (Mem.wf_iff _).1 hm
  exact Mem.wf_mk (m1) (m2) (m3) (m4) (m5) (m6) (swf_sdel _ m7) (m8)

/-- A key regeneration keeps the form (R425). -/
theorem Die.keyRegen_wf {d : Die} (o : Nat) (h : d.wf = true) : (d.keyRegen o).wf = true := by
  have hf : ∀ (ls : List Nat) (x : Die), x.wf = true → (ls.foldl Die.dropLine x).wf = true := by
    intro ls
    induction ls with
    | nil => intro x hx; exact hx
    | cons a ls ih => intro x hx; exact ih _ (Die.dropLine_wf a hx)
  unfold Die.keyRegen
  split
  · exact h
  · dsimp only
    have hx := hf (((d.setReg (mkeyAddr o) 2).mem.lines.filter fun e => e.2.owner == o).map (·.1)) _ (Die.setReg_wf (mkeyAddr o) 2 h)
    apply Die.wf_mem hx
    obtain ⟨m1, m2, m3, m4, m5, m6, m7, m8⟩ := (Mem.wf_iff _).1 (Die.wf_memOf hx)
    exact Mem.wf_mk (m1) (m2) (swf_sset _ _ m3) (m4) (m5) (m6) (m7) (m8)

/-- The memories and registers at reset are in their canonical form. -/
theorem State.reset_wf : State.reset.wf := by
  unfold State.wf
  decide

end Sys2Proof.Machine
end

