-- ==== Sys2Proof/Laws/PerInstr.lean ====
section
/-! SUPPORT. What is said of every instruction as syntax, one lemma a constructor. Family Fits: the word of an instruction has 32 bits
(R53). -/

namespace Sys2Proof.Laws.Fits

/-- The word of an instruction fits 32 bits (R53). -/
def Statement (i : Instr) : Prop := encode i < 2 ^ 32

theorem encA_lt {m rd ra rb fn : Nat} (h1 : m < 64) (h2 : rd < 32) (h3 : ra < 32) (h4 : rb < 32) (h5 : fn < 2048) : encA m rd ra rb fn < 2 ^ 32 := by
  unfold encA
  omega
theorem encI_lt {m rd ra imm : Nat} (h1 : m < 64) (h2 : rd < 32) (h3 : ra < 32) (h4 : imm < 65536) : encI m rd ra imm < 2 ^ 32 := by
  unfold encI
  omega
theorem encM_lt {m rd ra sz imm : Nat} (h1 : m < 64) (h2 : rd < 32) (h3 : ra < 32) (h4 : sz < 8) (h5 : imm < 8192) : encM m rd ra sz imm < 2 ^ 32 := by
  unfold encM
  omega
theorem encU_lt {m rd imm : Nat} (h1 : m < 64) (h2 : rd < 32) (h3 : imm < 2097152) : encU m rd imm < 2 ^ 32 := by
  unfold encU
  omega
theorem encBZ_lt {m c ra off : Nat} (h1 : m < 64) (h2 : c < 8) (h3 : ra < 32) (h4 : off < 262144) : encBZ m c ra off < 2 ^ 32 := by
  unfold encBZ
  omega
theorem encBC_lt {m ra rb c off : Nat} (h1 : m < 64) (h2 : ra < 32) (h3 : rb < 32) (h4 : c < 8) (h5 : off < 8192) : encBC m ra rb c off < 2 ^ 32 := by
  unfold encBC
  omega
theorem encJ_lt {m off : Nat} (h1 : m < 64) (h2 : off < 67108864) : encJ m off < 2 ^ 32 := by
  unfold encJ
  omega
theorem encV_lt {m vd va vb op md : Nat} (h1 : m < 64) (h2 : vd < 32) (h3 : va < 32) (h4 : vb < 32) (h5 : op < 64) (h6 : md < 32) : encV m vd va vb op md < 2 ^ 32 := by
  unfold encV
  omega
theorem encW_lt {m vd va vb vc op md : Nat} (h1 : m < 64) (h2 : vd < 32) (h3 : va < 32) (h4 : vb < 32) (h5 : vc < 32) (h6 : op < 8) (h7 : md < 8) : encW m vd va vb vc op md < 2 ^ 32 := by
  unfold encW
  omega
theorem encL_lt {m v sd vi op md : Nat} (h1 : m < 64) (h2 : v < 32) (h3 : sd < 16) (h4 : vi < 32) (h5 : op < 32) (h6 : md < 128) : encL m v sd vi op md < 2 ^ 32 := by
  unfold encL
  omega
theorem encT_lt {m ac va vb qa qb op md : Nat} (h1 : m < 64) (h2 : ac < 4) (h3 : va < 32) (h4 : vb < 32) (h5 : qa < 4) (h6 : qb < 4) (h7 : op < 16) (h8 : md < 64) : encT m ac va vb qa qb op md < 2 ^ 32 := by
  unfold encT
  omega

theorem add (d a b : Fin 32) (w : Bool) : Statement (.add d a b w) :=
  encA_lt (by decide) d.isLt a.isLt b.isLt (by have hw := w.toNat_le; omega)
theorem sub (d a b : Fin 32) (w : Bool) : Statement (.sub d a b w) :=
  encA_lt (by decide) d.isLt a.isLt b.isLt (by have hw := w.toNat_le; omega)
theorem and (d a b : Fin 32) : Statement (.and d a b) :=
  encA_lt (by decide) d.isLt a.isLt b.isLt (by decide)
theorem or (d a b : Fin 32) : Statement (.or d a b) :=
  encA_lt (by decide) d.isLt a.isLt b.isLt (by decide)
theorem xor (d a b : Fin 32) : Statement (.xor d a b) :=
  encA_lt (by decide) d.isLt a.isLt b.isLt (by decide)
theorem andn (d a b : Fin 32) : Statement (.andn d a b) :=
  encA_lt (by decide) d.isLt a.isLt b.isLt (by decide)
theorem orn (d a b : Fin 32) : Statement (.orn d a b) :=
  encA_lt (by decide) d.isLt a.isLt b.isLt (by decide)
theorem sll (d a b : Fin 32) (w : Bool) : Statement (.sll d a b w) :=
  encA_lt (by decide) d.isLt a.isLt b.isLt (by have hw := w.toNat_le; omega)
theorem srl (d a b : Fin 32) (w : Bool) : Statement (.srl d a b w) :=
  encA_lt (by decide) d.isLt a.isLt b.isLt (by have hw := w.toNat_le; omega)
theorem sra (d a b : Fin 32) (w : Bool) : Statement (.sra d a b w) :=
  encA_lt (by decide) d.isLt a.isLt b.isLt (by have hw := w.toNat_le; omega)
theorem rotr (d a b : Fin 32) (w : Bool) : Statement (.rotr d a b w) :=
  encA_lt (by decide) d.isLt a.isLt b.isLt (by have hw := w.toNat_le; omega)
theorem slt (d a b : Fin 32) : Statement (.slt d a b) :=
  encA_lt (by decide) d.isLt a.isLt b.isLt (by decide)
theorem sltu (d a b : Fin 32) : Statement (.sltu d a b) :=
  encA_lt (by decide) d.isLt a.isLt b.isLt (by decide)
theorem min (d a b : Fin 32) : Statement (.min d a b) :=
  encA_lt (by decide) d.isLt a.isLt b.isLt (by decide)
theorem max (d a b : Fin 32) : Statement (.max d a b) :=
  encA_lt (by decide) d.isLt a.isLt b.isLt (by decide)
theorem minu (d a b : Fin 32) : Statement (.minu d a b) :=
  encA_lt (by decide) d.isLt a.isLt b.isLt (by decide)
theorem maxu (d a b : Fin 32) : Statement (.maxu d a b) :=
  encA_lt (by decide) d.isLt a.isLt b.isLt (by decide)
theorem mul (d a b : Fin 32) (w : Bool) : Statement (.mul d a b w) :=
  encA_lt (by decide) d.isLt a.isLt b.isLt (by have hw := w.toNat_le; omega)
theorem mulh (d a b : Fin 32) : Statement (.mulh d a b) :=
  encA_lt (by decide) d.isLt a.isLt b.isLt (by decide)
theorem mulhu (d a b : Fin 32) : Statement (.mulhu d a b) :=
  encA_lt (by decide) d.isLt a.isLt b.isLt (by decide)
theorem div (d a b : Fin 32) (w : Bool) : Statement (.div d a b w) :=
  encA_lt (by decide) d.isLt a.isLt b.isLt (by have hw := w.toNat_le; omega)
theorem divu (d a b : Fin 32) (w : Bool) : Statement (.divu d a b w) :=
  encA_lt (by decide) d.isLt a.isLt b.isLt (by have hw := w.toNat_le; omega)
theorem rem (d a b : Fin 32) (w : Bool) : Statement (.rem d a b w) :=
  encA_lt (by decide) d.isLt a.isLt b.isLt (by have hw := w.toNat_le; omega)
theorem remu (d a b : Fin 32) (w : Bool) : Statement (.remu d a b w) :=
  encA_lt (by decide) d.isLt a.isLt b.isLt (by have hw := w.toNat_le; omega)
theorem clz (d a : Fin 32) (w : Bool) : Statement (.clz d a w) :=
  encA_lt (by decide) d.isLt a.isLt (by decide) (by have hw := w.toNat_le; omega)
theorem ctz (d a : Fin 32) (w : Bool) : Statement (.ctz d a w) :=
  encA_lt (by decide) d.isLt a.isLt (by decide) (by have hw := w.toNat_le; omega)
theorem popc (d a : Fin 32) (w : Bool) : Statement (.popc d a w) :=
  encA_lt (by decide) d.isLt a.isLt (by decide) (by have hw := w.toNat_le; omega)
theorem brev (d a : Fin 32) : Statement (.brev d a) :=
  encA_lt (by decide) d.isLt a.isLt (by decide) (by decide)
theorem sext (d a s : Fin 32) : Statement (.sext d a s) :=
  encA_lt (by decide) d.isLt a.isLt s.isLt (by decide)
theorem zext (d a s : Fin 32) : Statement (.zext d a s) :=
  encA_lt (by decide) d.isLt a.isLt s.isLt (by decide)
theorem shadd (d a b : Fin 32) (w : Bool) : Statement (.shadd d a b w) :=
  encA_lt (by decide) d.isLt a.isLt b.isLt (by have hw := w.toNat_le; omega)
theorem cmovz (d a b : Fin 32) : Statement (.cmovz d a b) :=
  encA_lt (by decide) d.isLt a.isLt b.isLt (by decide)
theorem cmovnz (d a b : Fin 32) : Statement (.cmovnz d a b) :=
  encA_lt (by decide) d.isLt a.isLt b.isLt (by decide)
theorem addi (d a : Fin 32) (i : Fin 65536) : Statement (.addi d a i) :=
  encI_lt (by decide) d.isLt a.isLt i.isLt
theorem andi (d a : Fin 32) (i : Fin 65536) : Statement (.andi d a i) :=
  encI_lt (by decide) d.isLt a.isLt i.isLt
theorem ori (d a : Fin 32) (i : Fin 65536) : Statement (.ori d a i) :=
  encI_lt (by decide) d.isLt a.isLt i.isLt
theorem xori (d a : Fin 32) (i : Fin 65536) : Statement (.xori d a i) :=
  encI_lt (by decide) d.isLt a.isLt i.isLt
theorem slti (d a : Fin 32) (i : Fin 65536) : Statement (.slti d a i) :=
  encI_lt (by decide) d.isLt a.isLt i.isLt
theorem sltiu (d a : Fin 32) (i : Fin 65536) : Statement (.sltiu d a i) :=
  encI_lt (by decide) d.isLt a.isLt i.isLt
theorem slli (d a : Fin 32) (w : Bool) (n : Fin 64) : Statement (.slli d a w n) :=
  encI_lt (by decide) d.isLt a.isLt (by have hw := w.toNat_le; have hn := n.isLt; omega)
theorem srli (d a : Fin 32) (w : Bool) (n : Fin 64) : Statement (.srli d a w n) :=
  encI_lt (by decide) d.isLt a.isLt (by have hw := w.toNat_le; have hn := n.isLt; omega)
theorem srai (d a : Fin 32) (w : Bool) (n : Fin 64) : Statement (.srai d a w n) :=
  encI_lt (by decide) d.isLt a.isLt (by have hw := w.toNat_le; have hn := n.isLt; omega)
theorem rotri (d a : Fin 32) (w : Bool) (n : Fin 64) : Statement (.rotri d a w n) :=
  encI_lt (by decide) d.isLt a.isLt (by have hw := w.toNat_le; have hn := n.isLt; omega)
theorem luh (d : Fin 32) (i : Fin 2097152) : Statement (.luh d i) :=
  encU_lt (by decide) d.isLt i.isLt
theorem pcadd (d : Fin 32) (i : Fin 2097152) : Statement (.pcadd d i) :=
  encU_lt (by decide) d.isLt i.isLt
theorem ld (d a : Fin 32) (s : Fin 8) (i : Fin 8192) : Statement (.ld d a s i) :=
  encM_lt (by decide) d.isLt a.isLt s.isLt i.isLt
theorem st (t a : Fin 32) (s : Fin 8) (i : Fin 8192) : Statement (.st t a s i) :=
  encM_lt (by decide) t.isLt a.isLt s.isLt i.isLt
theorem lda (d a : Fin 32) (w : Bool) (o : Fin 4) (s : Fin 8) : Statement (.lda d a w o s) :=
  encA_lt (by decide) d.isLt a.isLt (by decide) (by have hw := w.toNat_le; have ho := o.isLt; have hs := s.isLt; omega)
theorem sta (a b : Fin 32) (w : Bool) (o : Fin 4) (s : Fin 8) : Statement (.sta a b w o s) :=
  encA_lt (by decide) (by decide) a.isLt b.isLt (by have hw := w.toNat_le; have ho := o.isLt; have hs := s.isLt; omega)
theorem swap (d a b : Fin 32) (w : Bool) (o : Fin 4) (s : Fin 8) : Statement (.swap d a b w o s) :=
  encA_lt (by decide) d.isLt a.isLt b.isLt (by have hw := w.toNat_le; have ho := o.isLt; have hs := s.isLt; omega)
theorem cas (d a b : Fin 32) (w : Bool) (o : Fin 4) (s : Fin 8) : Statement (.cas d a b w o s) :=
  encA_lt (by decide) d.isLt a.isLt b.isLt (by have hw := w.toNat_le; have ho := o.isLt; have hs := s.isLt; omega)
theorem amoFadd (d a b : Fin 32) (w : Bool) (o : Fin 4) (s : Fin 8) : Statement (.amoFadd d a b w o s) :=
  encA_lt (by decide) d.isLt a.isLt b.isLt (by have hw := w.toNat_le; have ho := o.isLt; have hs := s.isLt; omega)
theorem amoFand (d a b : Fin 32) (w : Bool) (o : Fin 4) (s : Fin 8) : Statement (.amoFand d a b w o s) :=
  encA_lt (by decide) d.isLt a.isLt b.isLt (by have hw := w.toNat_le; have ho := o.isLt; have hs := s.isLt; omega)
theorem amoFor (d a b : Fin 32) (w : Bool) (o : Fin 4) (s : Fin 8) : Statement (.amoFor d a b w o s) :=
  encA_lt (by decide) d.isLt a.isLt b.isLt (by have hw := w.toNat_le; have ho := o.isLt; have hs := s.isLt; omega)
theorem amoFxor (d a b : Fin 32) (w : Bool) (o : Fin 4) (s : Fin 8) : Statement (.amoFxor d a b w o s) :=
  encA_lt (by decide) d.isLt a.isLt b.isLt (by have hw := w.toNat_le; have ho := o.isLt; have hs := s.isLt; omega)
theorem amoFmin (d a b : Fin 32) (w : Bool) (o : Fin 4) (s : Fin 8) : Statement (.amoFmin d a b w o s) :=
  encA_lt (by decide) d.isLt a.isLt b.isLt (by have hw := w.toNat_le; have ho := o.isLt; have hs := s.isLt; omega)
theorem amoFmax (d a b : Fin 32) (w : Bool) (o : Fin 4) (s : Fin 8) : Statement (.amoFmax d a b w o s) :=
  encA_lt (by decide) d.isLt a.isLt b.isLt (by have hw := w.toNat_le; have ho := o.isLt; have hs := s.isLt; omega)
theorem amoFminu (d a b : Fin 32) (w : Bool) (o : Fin 4) (s : Fin 8) : Statement (.amoFminu d a b w o s) :=
  encA_lt (by decide) d.isLt a.isLt b.isLt (by have hw := w.toNat_le; have ho := o.isLt; have hs := s.isLt; omega)
theorem amoFmaxu (d a b : Fin 32) (w : Bool) (o : Fin 4) (s : Fin 8) : Statement (.amoFmaxu d a b w o s) :=
  encA_lt (by decide) d.isLt a.isLt b.isLt (by have hw := w.toNat_le; have ho := o.isLt; have hs := s.isLt; omega)
theorem amoFaddf (d a b : Fin 32) (o : Fin 4) (s : Fin 8) : Statement (.amoFaddf d a b o s) :=
  encA_lt (by decide) d.isLt a.isLt b.isLt (by have ho := o.isLt; have hs := s.isLt; omega)
theorem fadd (d a b : Fin 32) (f : Fin 4) (z : Bool) : Statement (.fadd d a b f z) :=
  encA_lt (by decide) d.isLt a.isLt b.isLt (by have hf := f.isLt; have hz := z.toNat_le; omega)
theorem fsub (d a b : Fin 32) (f : Fin 4) (z : Bool) : Statement (.fsub d a b f z) :=
  encA_lt (by decide) d.isLt a.isLt b.isLt (by have hf := f.isLt; have hz := z.toNat_le; omega)
theorem fmul (d a b : Fin 32) (f : Fin 4) (z : Bool) : Statement (.fmul d a b f z) :=
  encA_lt (by decide) d.isLt a.isLt b.isLt (by have hf := f.isLt; have hz := z.toNat_le; omega)
theorem fdiv (d a b : Fin 32) (f : Fin 4) (z : Bool) : Statement (.fdiv d a b f z) :=
  encA_lt (by decide) d.isLt a.isLt b.isLt (by have hf := f.isLt; have hz := z.toNat_le; omega)
theorem fsqrt (d a : Fin 32) (f : Fin 4) (z : Bool) : Statement (.fsqrt d a f z) :=
  encA_lt (by decide) d.isLt a.isLt (by decide) (by have hf := f.isLt; have hz := z.toNat_le; omega)
theorem fmin (d a b : Fin 32) (f : Fin 4) : Statement (.fmin d a b f) :=
  encA_lt (by decide) d.isLt a.isLt b.isLt (by have hf := f.isLt; omega)
theorem fmax (d a b : Fin 32) (f : Fin 4) : Statement (.fmax d a b f) :=
  encA_lt (by decide) d.isLt a.isLt b.isLt (by have hf := f.isLt; omega)
theorem fmadd (d a b : Fin 32) (f : Fin 4) (z : Bool) : Statement (.fmadd d a b f z) :=
  encA_lt (by decide) d.isLt a.isLt b.isLt (by have hf := f.isLt; have hz := z.toNat_le; omega)
theorem feq (d a b : Fin 32) (f : Fin 4) : Statement (.feq d a b f) :=
  encA_lt (by decide) d.isLt a.isLt b.isLt (by have hf := f.isLt; omega)
theorem flt (d a b : Fin 32) (f : Fin 4) : Statement (.flt d a b f) :=
  encA_lt (by decide) d.isLt a.isLt b.isLt (by have hf := f.isLt; omega)
theorem fle (d a b : Fin 32) (f : Fin 4) : Statement (.fle d a b f) :=
  encA_lt (by decide) d.isLt a.isLt b.isLt (by have hf := f.isLt; omega)
theorem fclass (d a : Fin 32) (f : Fin 4) : Statement (.fclass d a f) :=
  encA_lt (by decide) d.isLt a.isLt (by decide) (by have hf := f.isLt; omega)
theorem fcvtI (d a : Fin 32) (f : Fin 4) (z : Bool) (t : Fin 4) : Statement (.fcvtI d a f z t) :=
  encA_lt (by decide) d.isLt a.isLt (by decide) (by have hf := f.isLt; have hz := z.toNat_le; have ht := t.isLt; omega)
theorem fcvtF (d a : Fin 32) (f : Fin 4) (z : Bool) (t : Fin 4) : Statement (.fcvtF d a f z t) :=
  encA_lt (by decide) d.isLt a.isLt (by decide) (by have hf := f.isLt; have hz := z.toNat_le; have ht := t.isLt; omega)
theorem fcvt (d a : Fin 32) (f : Fin 4) (z : Bool) (g : Fin 4) : Statement (.fcvt d a f z g) :=
  encA_lt (by decide) d.isLt a.isLt (by decide) (by have hf := f.isLt; have hz := z.toNat_le; have hg := g.isLt; omega)
theorem beqz (a : Fin 32) (o : Fin 262144) : Statement (.beqz a o) :=
  encBZ_lt (by decide) (by decide) a.isLt o.isLt
theorem bnez (a : Fin 32) (o : Fin 262144) : Statement (.bnez a o) :=
  encBZ_lt (by decide) (by decide) a.isLt o.isLt
theorem bltz (a : Fin 32) (o : Fin 262144) : Statement (.bltz a o) :=
  encBZ_lt (by decide) (by decide) a.isLt o.isLt
theorem bgez (a : Fin 32) (o : Fin 262144) : Statement (.bgez a o) :=
  encBZ_lt (by decide) (by decide) a.isLt o.isLt
theorem bgtz (a : Fin 32) (o : Fin 262144) : Statement (.bgtz a o) :=
  encBZ_lt (by decide) (by decide) a.isLt o.isLt
theorem blez (a : Fin 32) (o : Fin 262144) : Statement (.blez a o) :=
  encBZ_lt (by decide) (by decide) a.isLt o.isLt
theorem beq (a b : Fin 32) (o : Fin 8192) : Statement (.beq a b o) :=
  encBC_lt (by decide) a.isLt b.isLt (by decide) o.isLt
theorem bne (a b : Fin 32) (o : Fin 8192) : Statement (.bne a b o) :=
  encBC_lt (by decide) a.isLt b.isLt (by decide) o.isLt
theorem blt (a b : Fin 32) (o : Fin 8192) : Statement (.blt a b o) :=
  encBC_lt (by decide) a.isLt b.isLt (by decide) o.isLt
theorem bge (a b : Fin 32) (o : Fin 8192) : Statement (.bge a b o) :=
  encBC_lt (by decide) a.isLt b.isLt (by decide) o.isLt
theorem bltu (a b : Fin 32) (o : Fin 8192) : Statement (.bltu a b o) :=
  encBC_lt (by decide) a.isLt b.isLt (by decide) o.isLt
theorem bgeu (a b : Fin 32) (o : Fin 8192) : Statement (.bgeu a b o) :=
  encBC_lt (by decide) a.isLt b.isLt (by decide) o.isLt
theorem j (o : Fin 67108864) : Statement (.j o) :=
  encJ_lt (by decide) o.isLt
theorem jal (o : Fin 67108864) : Statement (.jal o) :=
  encJ_lt (by decide) o.isLt
theorem jalr (d a : Fin 32) (i : Fin 65536) : Statement (.jalr d a i) :=
  encI_lt (by decide) d.isLt a.isLt i.isLt
theorem fence (s k : Fin 8) : Statement (.fence s k) :=
  encA_lt (by decide) (by decide) (by decide) (by decide) (by have hs := s.isLt; have hk := k.isLt; omega)
theorem tlbinv (c a b : Fin 32) (l : Bool) : Statement (.tlbinv c a b l) :=
  encA_lt (by decide) c.isLt a.isLt b.isLt (by have hl := l.toNat_le; omega)
theorem csrr (d : Fin 32) (c : Fin 4096) : Statement (.csrr d c) :=
  encI_lt (by decide) d.isLt (by decide) (by have h := c.isLt; omega)
theorem csrw (a : Fin 32) (c : Fin 4096) : Statement (.csrw a c) :=
  encI_lt (by decide) (by decide) a.isLt (by have hc := c.isLt; omega)
theorem csrset (d a : Fin 32) (c : Fin 4096) : Statement (.csrset d a c) :=
  encI_lt (by decide) d.isLt a.isLt (by have hc := c.isLt; omega)
theorem csrclr (d a : Fin 32) (c : Fin 4096) : Statement (.csrclr d a c) :=
  encI_lt (by decide) d.isLt a.isLt (by have hc := c.isLt; omega)
theorem csrswap (d a : Fin 32) (c : Fin 4096) : Statement (.csrswap d a c) :=
  encI_lt (by decide) d.isLt a.isLt (by have hc := c.isLt; omega)
theorem send (n a b : Fin 32) : Statement (.send n a b) :=
  encA_lt (by decide) n.isLt a.isLt b.isLt (by decide)
theorem sendc (n a : Fin 32) : Statement (.sendc n a) :=
  encA_lt (by decide) n.isLt a.isLt (by decide) (by decide)
theorem contid (d n : Fin 32) : Statement (.contid d n) :=
  encA_lt (by decide) d.isLt (by decide) (by decide) (by have hn := n.isLt; omega)
theorem spawn (d a : Fin 32) : Statement (.spawn d a) :=
  encA_lt (by decide) d.isLt a.isLt (by decide) (by decide)
theorem jwait (d : Fin 32) : Statement (.jwait d) :=
  encA_lt (by decide) d.isLt (by decide) (by decide) (by decide)
theorem jdone (a : Fin 32) : Statement (.jdone a) :=
  encA_lt (by decide) (by decide) a.isLt (by decide) (by decide)
theorem jstat (d a : Fin 32) : Statement (.jstat d a) :=
  encA_lt (by decide) d.isLt a.isLt (by decide) (by decide)
theorem enq (a b : Fin 32) (r : Bool) : Statement (.enq a b r) :=
  encA_lt (by decide) (by decide) a.isLt b.isLt (by have hr := r.toNat_le; omega)
theorem enqr (n a : Fin 32) (r : Bool) : Statement (.enqr n a r) :=
  encA_lt (by decide) n.isLt a.isLt (by decide) (by have hr := r.toNat_le; omega)
theorem bararv (t : Fin 32) (d : Fin 16) : Statement (.bararv t d) :=
  encA_lt (by decide) t.isLt (by decide) (by decide) (by have hd := d.isLt; omega)
theorem barwt (a : Fin 32) (d : Fin 16) : Statement (.barwt a d) :=
  encA_lt (by decide) (by decide) a.isLt (by decide) (by have hd := d.isLt; omega)
theorem brnext (d a : Fin 32) : Statement (.brnext d a) :=
  encA_lt (by decide) d.isLt a.isLt (by decide) (by decide)
theorem brdone (a : Fin 32) : Statement (.brdone a) :=
  encA_lt (by decide) (by decide) a.isLt (by decide) (by decide)
theorem setvl (d a : Fin 32) (k : Bool) : Statement (.setvl d a k) :=
  encV_lt (by decide) d.isLt a.isLt (by decide) (by decide) (by have hk := k.toNat_le; omega)
theorem loopv (a : Fin 32) : Statement (.loopv a) :=
  encV_lt (by decide) (by decide) a.isLt (by decide) (by decide) (by decide)
theorem nexts (d : Fin 32) : Statement (.nexts d) :=
  encV_lt (by decide) d.isLt (by decide) (by decide) (by decide) (by decide)
theorem vrep (r : Bool) (n : Fin 16) : Statement (.vrep r n) :=
  encV_lt (by decide) (by decide) (by decide) (by decide) (by decide) (by have hr := r.toNat_le; have hn := n.isLt; omega)
theorem vtag (d : Fin 32) (t : Fin 16) : Statement (.vtag d t) :=
  encV_lt (by decide) d.isLt (by decide) (by decide) (by decide) (by have h := t.isLt; omega)
theorem vmvx (d a b : Fin 32) : Statement (.vmvx d a b) :=
  encV_lt (by decide) d.isLt a.isLt b.isLt (by decide) (by decide)
theorem vmvs (d a b : Fin 32) : Statement (.vmvs d a b) :=
  encV_lt (by decide) d.isLt a.isLt b.isLt (by decide) (by decide)
theorem vadd (d a b : Fin 32) (z : Bool) : Statement (.vadd d a b z) :=
  encV_lt (by decide) d.isLt a.isLt b.isLt (by decide) (by have hz := z.toNat_le; omega)
theorem vsub (d a b : Fin 32) (z : Bool) : Statement (.vsub d a b z) :=
  encV_lt (by decide) d.isLt a.isLt b.isLt (by decide) (by have hz := z.toNat_le; omega)
theorem vrsub (d a b : Fin 32) (z : Bool) : Statement (.vrsub d a b z) :=
  encV_lt (by decide) d.isLt a.isLt b.isLt (by decide) (by have hz := z.toNat_le; omega)
theorem vmul (d a b : Fin 32) (z : Bool) : Statement (.vmul d a b z) :=
  encV_lt (by decide) d.isLt a.isLt b.isLt (by decide) (by have hz := z.toNat_le; omega)
theorem vmulh (d a b : Fin 32) (z : Bool) : Statement (.vmulh d a b z) :=
  encV_lt (by decide) d.isLt a.isLt b.isLt (by decide) (by have hz := z.toNat_le; omega)
theorem vmin (d a b : Fin 32) (z : Bool) : Statement (.vmin d a b z) :=
  encV_lt (by decide) d.isLt a.isLt b.isLt (by decide) (by have hz := z.toNat_le; omega)
theorem vmax (d a b : Fin 32) (z : Bool) : Statement (.vmax d a b z) :=
  encV_lt (by decide) d.isLt a.isLt b.isLt (by decide) (by have hz := z.toNat_le; omega)
theorem vabs (d a : Fin 32) : Statement (.vabs d a) :=
  encV_lt (by decide) d.isLt a.isLt (by decide) (by decide) (by decide)
theorem vneg (d a : Fin 32) : Statement (.vneg d a) :=
  encV_lt (by decide) d.isLt a.isLt (by decide) (by decide) (by decide)
theorem vand (d a b : Fin 32) : Statement (.vand d a b) :=
  encV_lt (by decide) d.isLt a.isLt b.isLt (by decide) (by decide)
theorem vor (d a b : Fin 32) : Statement (.vor d a b) :=
  encV_lt (by decide) d.isLt a.isLt b.isLt (by decide) (by decide)
theorem vxor (d a b : Fin 32) : Statement (.vxor d a b) :=
  encV_lt (by decide) d.isLt a.isLt b.isLt (by decide) (by decide)
theorem vandn (d a b : Fin 32) : Statement (.vandn d a b) :=
  encV_lt (by decide) d.isLt a.isLt b.isLt (by decide) (by decide)
theorem vsll (d a b : Fin 32) : Statement (.vsll d a b) :=
  encV_lt (by decide) d.isLt a.isLt b.isLt (by decide) (by decide)
theorem vsrl (d a b : Fin 32) : Statement (.vsrl d a b) :=
  encV_lt (by decide) d.isLt a.isLt b.isLt (by decide) (by decide)
theorem vsra (d a b : Fin 32) : Statement (.vsra d a b) :=
  encV_lt (by decide) d.isLt a.isLt b.isLt (by decide) (by decide)
theorem vsadd (d a b : Fin 32) (z : Bool) : Statement (.vsadd d a b z) :=
  encV_lt (by decide) d.isLt a.isLt b.isLt (by decide) (by have hz := z.toNat_le; omega)
theorem vssub (d a b : Fin 32) (z : Bool) : Statement (.vssub d a b z) :=
  encV_lt (by decide) d.isLt a.isLt b.isLt (by decide) (by have hz := z.toNat_le; omega)
theorem vavg (d a b : Fin 32) (z : Bool) : Statement (.vavg d a b z) :=
  encV_lt (by decide) d.isLt a.isLt b.isLt (by decide) (by have hz := z.toNat_le; omega)
theorem vdiv (d a b : Fin 32) (z : Bool) : Statement (.vdiv d a b z) :=
  encV_lt (by decide) d.isLt a.isLt b.isLt (by decide) (by have hz := z.toNat_le; omega)
theorem vcvt (d a : Fin 32) (z : Bool) : Statement (.vcvt d a z) :=
  encV_lt (by decide) d.isLt a.isLt (by decide) (by decide) (by have hz := z.toNat_le; omega)
theorem vcmpeq (d a b : Fin 32) : Statement (.vcmpeq d a b) :=
  encV_lt (by decide) d.isLt a.isLt b.isLt (by decide) (by decide)
theorem vcmpne (d a b : Fin 32) : Statement (.vcmpne d a b) :=
  encV_lt (by decide) d.isLt a.isLt b.isLt (by decide) (by decide)
theorem vcmplt (d a b : Fin 32) : Statement (.vcmplt d a b) :=
  encV_lt (by decide) d.isLt a.isLt b.isLt (by decide) (by decide)
theorem vcmple (d a b : Fin 32) : Statement (.vcmple d a b) :=
  encV_lt (by decide) d.isLt a.isLt b.isLt (by decide) (by decide)
theorem vsel (d a b : Fin 32) : Statement (.vsel d a b) :=
  encV_lt (by decide) d.isLt a.isLt b.isLt (by decide) (by decide)
theorem vmrg (d a b : Fin 32) : Statement (.vmrg d a b) :=
  encV_lt (by decide) d.isLt a.isLt b.isLt (by decide) (by decide)
theorem vclass (d a : Fin 32) : Statement (.vclass d a) :=
  encV_lt (by decide) d.isLt a.isLt (by decide) (by decide) (by decide)
theorem vaddVs (d a b : Fin 32) (z : Bool) : Statement (.vaddVs d a b z) :=
  encV_lt (by decide) d.isLt a.isLt b.isLt (by decide) (by have hz := z.toNat_le; omega)
theorem vsubVs (d a b : Fin 32) (z : Bool) : Statement (.vsubVs d a b z) :=
  encV_lt (by decide) d.isLt a.isLt b.isLt (by decide) (by have hz := z.toNat_le; omega)
theorem vrsubVs (d a b : Fin 32) (z : Bool) : Statement (.vrsubVs d a b z) :=
  encV_lt (by decide) d.isLt a.isLt b.isLt (by decide) (by have hz := z.toNat_le; omega)
theorem vmulVs (d a b : Fin 32) (z : Bool) : Statement (.vmulVs d a b z) :=
  encV_lt (by decide) d.isLt a.isLt b.isLt (by decide) (by have hz := z.toNat_le; omega)
theorem vmulhVs (d a b : Fin 32) (z : Bool) : Statement (.vmulhVs d a b z) :=
  encV_lt (by decide) d.isLt a.isLt b.isLt (by decide) (by have hz := z.toNat_le; omega)
theorem vminVs (d a b : Fin 32) (z : Bool) : Statement (.vminVs d a b z) :=
  encV_lt (by decide) d.isLt a.isLt b.isLt (by decide) (by have hz := z.toNat_le; omega)
theorem vmaxVs (d a b : Fin 32) (z : Bool) : Statement (.vmaxVs d a b z) :=
  encV_lt (by decide) d.isLt a.isLt b.isLt (by decide) (by have hz := z.toNat_le; omega)
theorem vandVs (d a b : Fin 32) : Statement (.vandVs d a b) :=
  encV_lt (by decide) d.isLt a.isLt b.isLt (by decide) (by decide)
theorem vorVs (d a b : Fin 32) : Statement (.vorVs d a b) :=
  encV_lt (by decide) d.isLt a.isLt b.isLt (by decide) (by decide)
theorem vxorVs (d a b : Fin 32) : Statement (.vxorVs d a b) :=
  encV_lt (by decide) d.isLt a.isLt b.isLt (by decide) (by decide)
theorem vandnVs (d a b : Fin 32) : Statement (.vandnVs d a b) :=
  encV_lt (by decide) d.isLt a.isLt b.isLt (by decide) (by decide)
theorem vsllVs (d a b : Fin 32) : Statement (.vsllVs d a b) :=
  encV_lt (by decide) d.isLt a.isLt b.isLt (by decide) (by decide)
theorem vsrlVs (d a b : Fin 32) : Statement (.vsrlVs d a b) :=
  encV_lt (by decide) d.isLt a.isLt b.isLt (by decide) (by decide)
theorem vsraVs (d a b : Fin 32) : Statement (.vsraVs d a b) :=
  encV_lt (by decide) d.isLt a.isLt b.isLt (by decide) (by decide)
theorem vsaddVs (d a b : Fin 32) (z : Bool) : Statement (.vsaddVs d a b z) :=
  encV_lt (by decide) d.isLt a.isLt b.isLt (by decide) (by have hz := z.toNat_le; omega)
theorem vssubVs (d a b : Fin 32) (z : Bool) : Statement (.vssubVs d a b z) :=
  encV_lt (by decide) d.isLt a.isLt b.isLt (by decide) (by have hz := z.toNat_le; omega)
theorem vavgVs (d a b : Fin 32) (z : Bool) : Statement (.vavgVs d a b z) :=
  encV_lt (by decide) d.isLt a.isLt b.isLt (by decide) (by have hz := z.toNat_le; omega)
theorem vdivVs (d a b : Fin 32) (z : Bool) : Statement (.vdivVs d a b z) :=
  encV_lt (by decide) d.isLt a.isLt b.isLt (by decide) (by have hz := z.toNat_le; omega)
theorem vcmpeqVs (d a b : Fin 32) : Statement (.vcmpeqVs d a b) :=
  encV_lt (by decide) d.isLt a.isLt b.isLt (by decide) (by decide)
theorem vcmpneVs (d a b : Fin 32) : Statement (.vcmpneVs d a b) :=
  encV_lt (by decide) d.isLt a.isLt b.isLt (by decide) (by decide)
theorem vcmpltVs (d a b : Fin 32) : Statement (.vcmpltVs d a b) :=
  encV_lt (by decide) d.isLt a.isLt b.isLt (by decide) (by decide)
theorem vcmpleVs (d a b : Fin 32) : Statement (.vcmpleVs d a b) :=
  encV_lt (by decide) d.isLt a.isLt b.isLt (by decide) (by decide)
theorem vfma (d a b c : Fin 32) (z : Bool) : Statement (.vfma d a b c z) :=
  encW_lt (by decide) d.isLt a.isLt b.isLt c.isLt (by decide) (by have hz := z.toNat_le; omega)
theorem vfms (d a b c : Fin 32) (z : Bool) : Statement (.vfms d a b c z) :=
  encW_lt (by decide) d.isLt a.isLt b.isLt c.isLt (by decide) (by have hz := z.toNat_le; omega)
theorem vfnma (d a b c : Fin 32) (z : Bool) : Statement (.vfnma d a b c z) :=
  encW_lt (by decide) d.isLt a.isLt b.isLt c.isLt (by decide) (by have hz := z.toNat_le; omega)
theorem vfnms (d a b c : Fin 32) (z : Bool) : Statement (.vfnms d a b c z) :=
  encW_lt (by decide) d.isLt a.isLt b.isLt c.isLt (by decide) (by have hz := z.toNat_le; omega)
theorem vmacc (d a b : Fin 32) (z : Bool) : Statement (.vmacc d a b z) :=
  encW_lt (by decide) d.isLt a.isLt b.isLt (by decide) (by decide) (by have hz := z.toNat_le; omega)
theorem vdot2 (d a b c : Fin 32) (z : Bool) : Statement (.vdot2 d a b c z) :=
  encW_lt (by decide) d.isLt a.isLt b.isLt c.isLt (by decide) (by have hz := z.toNat_le; omega)
theorem mand (d a b : Fin 32) : Statement (.mand d a b) :=
  encV_lt (by decide) d.isLt a.isLt b.isLt (by decide) (by decide)
theorem mor (d a b : Fin 32) : Statement (.mor d a b) :=
  encV_lt (by decide) d.isLt a.isLt b.isLt (by decide) (by decide)
theorem mxor (d a b : Fin 32) : Statement (.mxor d a b) :=
  encV_lt (by decide) d.isLt a.isLt b.isLt (by decide) (by decide)
theorem mandn (d a b : Fin 32) : Statement (.mandn d a b) :=
  encV_lt (by decide) d.isLt a.isLt b.isLt (by decide) (by decide)
theorem mnot (d a : Fin 32) : Statement (.mnot d a) :=
  encV_lt (by decide) d.isLt a.isLt (by decide) (by decide) (by decide)
theorem mmov (d a : Fin 32) : Statement (.mmov d a) :=
  encV_lt (by decide) d.isLt a.isLt (by decide) (by decide) (by decide)
theorem msbf (d a : Fin 32) : Statement (.msbf d a) :=
  encV_lt (by decide) d.isLt a.isLt (by decide) (by decide) (by decide)
theorem msif (d a : Fin 32) : Statement (.msif d a) :=
  encV_lt (by decide) d.isLt a.isLt (by decide) (by decide) (by decide)
theorem msof (d a : Fin 32) : Statement (.msof d a) :=
  encV_lt (by decide) d.isLt a.isLt (by decide) (by decide) (by decide)
theorem mpopc (d a : Fin 32) : Statement (.mpopc d a) :=
  encV_lt (by decide) d.isLt a.isLt (by decide) (by decide) (by decide)
theorem mfirst (d a : Fin 32) : Statement (.mfirst d a) :=
  encV_lt (by decide) d.isLt a.isLt (by decide) (by decide) (by decide)
theorem viota (d a : Fin 32) : Statement (.viota d a) :=
  encV_lt (by decide) d.isLt a.isLt (by decide) (by decide) (by decide)
theorem vid (d : Fin 32) : Statement (.vid d) :=
  encV_lt (by decide) d.isLt (by decide) (by decide) (by decide) (by decide)
theorem mset (d a : Fin 32) : Statement (.mset d a) :=
  encV_lt (by decide) d.isLt a.isLt (by decide) (by decide) (by decide)
theorem vslideup (d a b : Fin 32) : Statement (.vslideup d a b) :=
  encV_lt (by decide) d.isLt a.isLt b.isLt (by decide) (by decide)
theorem vslidedn (d a b : Fin 32) : Statement (.vslidedn d a b) :=
  encV_lt (by decide) d.isLt a.isLt b.isLt (by decide) (by decide)
theorem vrgather (d a b : Fin 32) : Statement (.vrgather d a b) :=
  encV_lt (by decide) d.isLt a.isLt b.isLt (by decide) (by decide)
theorem vcompress (d a : Fin 32) : Statement (.vcompress d a) :=
  encV_lt (by decide) d.isLt a.isLt (by decide) (by decide) (by decide)
theorem vexpand (d a : Fin 32) : Statement (.vexpand d a) :=
  encV_lt (by decide) d.isLt a.isLt (by decide) (by decide) (by decide)
theorem vshuf (d a : Fin 32) (p : Fin 8) : Statement (.vshuf d a p) :=
  encV_lt (by decide) d.isLt a.isLt (by decide) (by decide) (by have h := p.isLt; omega)
theorem vxch (d a : Fin 32) (x : Fin 16) : Statement (.vxch d a x) :=
  encV_lt (by decide) d.isLt a.isLt (by decide) (by decide) (by have h := x.isLt; omega)
theorem vbcast (d a b : Fin 32) : Statement (.vbcast d a b) :=
  encV_lt (by decide) d.isLt a.isLt b.isLt (by decide) (by decide)
theorem vredsum (d a b : Fin 32) (z : Bool) : Statement (.vredsum d a b z) :=
  encV_lt (by decide) d.isLt a.isLt b.isLt (by decide) (by have hz := z.toNat_le; omega)
theorem vredsumo (d a b : Fin 32) (z : Bool) : Statement (.vredsumo d a b z) :=
  encV_lt (by decide) d.isLt a.isLt b.isLt (by decide) (by have hz := z.toNat_le; omega)
theorem vredmin (d a b : Fin 32) (z : Bool) : Statement (.vredmin d a b z) :=
  encV_lt (by decide) d.isLt a.isLt b.isLt (by decide) (by have hz := z.toNat_le; omega)
theorem vredmax (d a b : Fin 32) (z : Bool) : Statement (.vredmax d a b z) :=
  encV_lt (by decide) d.isLt a.isLt b.isLt (by decide) (by have hz := z.toNat_le; omega)
theorem vcmul (d a b : Fin 32) (z n y x : Bool) : Statement (.vcmul d a b z n y x) :=
  encV_lt (by decide) d.isLt a.isLt b.isLt (by decide) (by have hz := z.toNat_le; have hn := n.toNat_le; have hy := y.toNat_le; have hx := x.toNat_le; omega)
theorem vcmac (d a b : Fin 32) (z n y x : Bool) : Statement (.vcmac d a b z n y x) :=
  encV_lt (by decide) d.isLt a.isLt b.isLt (by decide) (by have hz := z.toNat_le; have hn := n.toNat_le; have hy := y.toNat_le; have hx := x.toNat_le; omega)
theorem vcmag2 (d a : Fin 32) (z : Bool) : Statement (.vcmag2 d a z) :=
  encV_lt (by decide) d.isLt a.isLt (by decide) (by decide) (by have hz := z.toNat_le; omega)
theorem vconj (d a : Fin 32) (z : Bool) : Statement (.vconj d a z) :=
  encV_lt (by decide) d.isLt a.isLt (by decide) (by decide) (by have hz := z.toNat_le; omega)
theorem vbfly2 (d a b : Fin 32) (i z : Bool) : Statement (.vbfly2 d a b i z) :=
  encV_lt (by decide) d.isLt a.isLt b.isLt (by decide) (by have hi := i.toNat_le; have hz := z.toNat_le; omega)
theorem vbfly4 (d a b : Fin 32) (i z : Bool) : Statement (.vbfly4 d a b i z) :=
  encV_lt (by decide) d.isLt a.isLt b.isLt (by decide) (by have hi := i.toNat_le; have hz := z.toNat_le; omega)
theorem vcinv2 (d a : Fin 32) (z : Bool) : Statement (.vcinv2 d a z) :=
  encV_lt (by decide) d.isLt a.isLt (by decide) (by decide) (by have hz := z.toNat_le; omega)
theorem vqmul (d a b : Fin 32) (n y x : Bool) : Statement (.vqmul d a b n y x) :=
  encV_lt (by decide) d.isLt a.isLt b.isLt (by decide) (by have hn := n.toNat_le; have hy := y.toNat_le; have hx := x.toNat_le; omega)
theorem vqscl (d a b : Fin 32) : Statement (.vqscl d a b) :=
  encV_lt (by decide) d.isLt a.isLt b.isLt (by decide) (by decide)
theorem sfRcp (d a : Fin 32) (z : Bool) : Statement (.sfRcp d a z) :=
  encV_lt (by decide) d.isLt a.isLt (by decide) (by decide) (by have hz := z.toNat_le; omega)
theorem sfRsq (d a : Fin 32) (z : Bool) : Statement (.sfRsq d a z) :=
  encV_lt (by decide) d.isLt a.isLt (by decide) (by decide) (by have hz := z.toNat_le; omega)
theorem sfSqrt (d a : Fin 32) (z : Bool) : Statement (.sfSqrt d a z) :=
  encV_lt (by decide) d.isLt a.isLt (by decide) (by decide) (by have hz := z.toNat_le; omega)
theorem sfExp2 (d a : Fin 32) (z : Bool) : Statement (.sfExp2 d a z) :=
  encV_lt (by decide) d.isLt a.isLt (by decide) (by decide) (by have hz := z.toNat_le; omega)
theorem sfLog2 (d a : Fin 32) (z : Bool) : Statement (.sfLog2 d a z) :=
  encV_lt (by decide) d.isLt a.isLt (by decide) (by decide) (by have hz := z.toNat_le; omega)
theorem sfSinpi (d a : Fin 32) (z : Bool) : Statement (.sfSinpi d a z) :=
  encV_lt (by decide) d.isLt a.isLt (by decide) (by decide) (by have hz := z.toNat_le; omega)
theorem sfCospi (d a : Fin 32) (z : Bool) : Statement (.sfCospi d a z) :=
  encV_lt (by decide) d.isLt a.isLt (by decide) (by decide) (by have hz := z.toNat_le; omega)
theorem sfAtan2pi (d a b : Fin 32) (z : Bool) : Statement (.sfAtan2pi d a b z) :=
  encV_lt (by decide) d.isLt a.isLt b.isLt (by decide) (by have hz := z.toNat_le; omega)
theorem vld (d : Fin 32) (s : Fin 16) (c : Bool) : Statement (.vld d s c) :=
  encL_lt (by decide) d.isLt s.isLt (by decide) (by decide) (by have hc := c.toNat_le; omega)
theorem vst (t : Fin 32) (s : Fin 16) (c : Bool) : Statement (.vst t s c) :=
  encL_lt (by decide) t.isLt s.isLt (by decide) (by decide) (by have hc := c.toNat_le; omega)
theorem vstu (t : Fin 32) (s : Fin 16) : Statement (.vstu t s) :=
  encL_lt (by decide) t.isLt s.isLt (by decide) (by decide) (by decide)
theorem vldff (d : Fin 32) (s : Fin 16) : Statement (.vldff d s) :=
  encL_lt (by decide) d.isLt s.isLt (by decide) (by decide) (by decide)
theorem vlds (d : Fin 32) (s : Fin 16) : Statement (.vlds d s) :=
  encL_lt (by decide) d.isLt s.isLt (by decide) (by decide) (by decide)
theorem vgath (d : Fin 32) (s : Fin 16) (i : Fin 32) (c : Bool) : Statement (.vgath d s i c) :=
  encL_lt (by decide) d.isLt s.isLt i.isLt (by decide) (by have hc := c.toNat_le; omega)
theorem vscat (t : Fin 32) (s : Fin 16) (i : Fin 32) (c : Bool) : Statement (.vscat t s i c) :=
  encL_lt (by decide) t.isLt s.isLt i.isLt (by decide) (by have hc := c.toNat_le; omega)
theorem vscatu (t : Fin 32) (s : Fin 16) (i : Fin 32) : Statement (.vscatu t s i) :=
  encL_lt (by decide) t.isLt s.isLt i.isLt (by decide) (by decide)
theorem vstcmp (t : Fin 32) (s : Fin 16) : Statement (.vstcmp t s) :=
  encL_lt (by decide) t.isLt s.isLt (by decide) (by decide) (by decide)
theorem vldexp (d : Fin 32) (s : Fin 16) : Statement (.vldexp d s) :=
  encL_lt (by decide) d.isLt s.isLt (by decide) (by decide) (by decide)
theorem vamo (d : Fin 32) (s : Fin 16) (i : Fin 32) (c : Bool) (p : Fin 16) : Statement (.vamo d s i c p) :=
  encL_lt (by decide) d.isLt s.isLt i.isLt (by decide) (by have hc := c.toNat_le; have hp := p.isLt; omega)
theorem vredm (t : Fin 32) (s : Fin 16) (i : Fin 32) (p : Fin 16) : Statement (.vredm t s i p) :=
  encL_lt (by decide) t.isLt s.isLt i.isLt (by decide) (by have h := p.isLt; omega)
theorem sdset (a : Fin 32) (s f : Fin 16) : Statement (.sdset a s f) :=
  encL_lt (by decide) a.isLt s.isLt (by decide) (by decide) (by have h := f.isLt; omega)
theorem sdget (d : Fin 32) (s f : Fin 16) : Statement (.sdget d s f) :=
  encL_lt (by decide) d.isLt s.isLt (by decide) (by decide) (by have h := f.isLt; omega)
theorem sdld (a : Fin 32) (s : Fin 16) : Statement (.sdld a s) :=
  encL_lt (by decide) a.isLt s.isLt (by decide) (by decide) (by decide)
theorem sdst (a : Fin 32) (s : Fin 16) : Statement (.sdst a s) :=
  encL_lt (by decide) a.isLt s.isLt (by decide) (by decide) (by decide)
theorem sdadv (a : Fin 32) (s : Fin 16) : Statement (.sdadv a s) :=
  encL_lt (by decide) a.isLt s.isLt (by decide) (by decide) (by decide)
theorem sdpos (d : Fin 32) (s : Fin 16) : Statement (.sdpos d s) :=
  encL_lt (by decide) d.isLt s.isLt (by decide) (by decide) (by decide)
theorem mopa (c : Fin 4) (a b : Fin 32) (p q : Fin 4) (l z : Bool) : Statement (.mopa c a b p q l z) :=
  encT_lt (by decide) c.isLt a.isLt b.isLt p.isLt q.isLt (by decide) (by have hl := l.toNat_le; have hz := z.toNat_le; omega)
theorem mops (c : Fin 4) (a b : Fin 32) (p q : Fin 4) (l z : Bool) : Statement (.mops c a b p q l z) :=
  encT_lt (by decide) c.isLt a.isLt b.isLt p.isLt q.isLt (by decide) (by have hl := l.toNat_le; have hz := z.toNat_le; omega)
theorem cmopa (c : Fin 4) (a b : Fin 32) (p q : Fin 4) (l z : Bool) : Statement (.cmopa c a b p q l z) :=
  encT_lt (by decide) c.isLt a.isLt b.isLt p.isLt q.isLt (by decide) (by have hl := l.toNat_le; have hz := z.toNat_le; omega)
theorem mopasp (c : Fin 4) (a b : Fin 32) (p q : Fin 4) (l z n : Bool) (m : Fin 8) : Statement (.mopasp c a b p q l z n m) :=
  encT_lt (by decide) c.isLt a.isLt b.isLt p.isLt q.isLt (by decide) (by have hl := l.toNat_le; have hz := z.toNat_le; have hn := n.toNat_le; have hm := m.isLt; omega)
theorem mld (c : Fin 4) (s : Fin 16) : Statement (.mld c s) :=
  encT_lt (by decide) c.isLt (by have h := s.isLt; omega) (by decide) (by decide) (by decide) (by decide) (by decide)
theorem mst (c : Fin 4) (s : Fin 16) : Statement (.mst c s) :=
  encT_lt (by decide) c.isLt (by have h := s.isLt; omega) (by decide) (by decide) (by decide) (by decide) (by decide)
theorem mrdv (c : Fin 4) (d b : Fin 32) : Statement (.mrdv c d b) :=
  encT_lt (by decide) c.isLt d.isLt b.isLt (by decide) (by decide) (by decide) (by decide)
theorem mwrv (c : Fin 4) (a b : Fin 32) : Statement (.mwrv c a b) :=
  encT_lt (by decide) c.isLt a.isLt b.isLt (by decide) (by decide) (by decide) (by decide)
theorem rlld (a : Fin 32) (p : Fin 4) : Statement (.rlld a p) :=
  encT_lt (by decide) (by decide) a.isLt (by decide) p.isLt (by decide) (by decide) (by decide)
theorem rlrd (a : Fin 32) (p : Fin 4) : Statement (.rlrd a p) :=
  encT_lt (by decide) (by decide) a.isLt (by decide) p.isLt (by decide) (by decide) (by decide)
theorem ecall : Statement .ecall :=
  encA_lt (by decide) (by decide) (by decide) (by decide) (by decide)
theorem trapret : Statement .trapret :=
  encA_lt (by decide) (by decide) (by decide) (by decide) (by decide)
theorem brk : Statement .brk :=
  encA_lt (by decide) (by decide) (by decide) (by decide) (by decide)
theorem ptfenceStrand : Statement .ptfenceStrand :=
  encA_lt (by decide) (by decide) (by decide) (by decide) (by decide)
theorem ptfenceCore : Statement .ptfenceCore :=
  encA_lt (by decide) (by decide) (by decide) (by decide) (by decide)
theorem ptfenceCluster : Statement .ptfenceCluster :=
  encA_lt (by decide) (by decide) (by decide) (by decide) (by decide)
theorem ptfenceDie : Statement .ptfenceDie :=
  encA_lt (by decide) (by decide) (by decide) (by decide) (by decide)
theorem ptfenceSystem : Statement .ptfenceSystem :=
  encA_lt (by decide) (by decide) (by decide) (by decide) (by decide)
theorem tlbsyncStrand : Statement .tlbsyncStrand :=
  encA_lt (by decide) (by decide) (by decide) (by decide) (by decide)
theorem tlbsyncCore : Statement .tlbsyncCore :=
  encA_lt (by decide) (by decide) (by decide) (by decide) (by decide)
theorem tlbsyncCluster : Statement .tlbsyncCluster :=
  encA_lt (by decide) (by decide) (by decide) (by decide) (by decide)
theorem tlbsyncDie : Statement .tlbsyncDie :=
  encA_lt (by decide) (by decide) (by decide) (by decide) (by decide)
theorem tlbsyncSystem : Statement .tlbsyncSystem :=
  encA_lt (by decide) (by decide) (by decide) (by decide) (by decide)
theorem xpfence : Statement .xpfence :=
  encA_lt (by decide) (by decide) (by decide) (by decide) (by decide)
theorem park : Statement .park :=
  encA_lt (by decide) (by decide) (by decide) (by decide) (by decide)
theorem yield : Statement .yield :=
  encA_lt (by decide) (by decide) (by decide) (by decide) (by decide)
theorem jexit : Statement .jexit :=
  encA_lt (by decide) (by decide) (by decide) (by decide) (by decide)
theorem bar0 : Statement .bar0 :=
  encA_lt (by decide) (by decide) (by decide) (by decide) (by decide)
theorem bar1 : Statement .bar1 :=
  encA_lt (by decide) (by decide) (by decide) (by decide) (by decide)
theorem bar2 : Statement .bar2 :=
  encA_lt (by decide) (by decide) (by decide) (by decide) (by decide)
theorem bar3 : Statement .bar3 :=
  encA_lt (by decide) (by decide) (by decide) (by decide) (by decide)
theorem bar4 : Statement .bar4 :=
  encA_lt (by decide) (by decide) (by decide) (by decide) (by decide)
theorem bar5 : Statement .bar5 :=
  encA_lt (by decide) (by decide) (by decide) (by decide) (by decide)
theorem bar6 : Statement .bar6 :=
  encA_lt (by decide) (by decide) (by decide) (by decide) (by decide)
theorem bar7 : Statement .bar7 :=
  encA_lt (by decide) (by decide) (by decide) (by decide) (by decide)
theorem bar8 : Statement .bar8 :=
  encA_lt (by decide) (by decide) (by decide) (by decide) (by decide)
theorem bar9 : Statement .bar9 :=
  encA_lt (by decide) (by decide) (by decide) (by decide) (by decide)
theorem bar10 : Statement .bar10 :=
  encA_lt (by decide) (by decide) (by decide) (by decide) (by decide)
theorem bar11 : Statement .bar11 :=
  encA_lt (by decide) (by decide) (by decide) (by decide) (by decide)
theorem bar12 : Statement .bar12 :=
  encA_lt (by decide) (by decide) (by decide) (by decide) (by decide)
theorem bar13 : Statement .bar13 :=
  encA_lt (by decide) (by decide) (by decide) (by decide) (by decide)
theorem bar14 : Statement .bar14 :=
  encA_lt (by decide) (by decide) (by decide) (by decide) (by decide)
theorem bar15 : Statement .bar15 :=
  encA_lt (by decide) (by decide) (by decide) (by decide) (by decide)
theorem vfork2 : Statement .vfork2 :=
  encV_lt (by decide) (by decide) (by decide) (by decide) (by decide) (by decide)
theorem vfork4 : Statement .vfork4 :=
  encV_lt (by decide) (by decide) (by decide) (by decide) (by decide) (by decide)
theorem vjoin : Statement .vjoin :=
  encV_lt (by decide) (by decide) (by decide) (by decide) (by decide) (by decide)
theorem vwait : Statement .vwait :=
  encV_lt (by decide) (by decide) (by decide) (by decide) (by decide) (by decide)
theorem vpref0 : Statement .vpref0 :=
  encL_lt (by decide) (by decide) (by decide) (by decide) (by decide) (by decide)
theorem vpref1 : Statement .vpref1 :=
  encL_lt (by decide) (by decide) (by decide) (by decide) (by decide) (by decide)
theorem vpref2 : Statement .vpref2 :=
  encL_lt (by decide) (by decide) (by decide) (by decide) (by decide) (by decide)
theorem vpref3 : Statement .vpref3 :=
  encL_lt (by decide) (by decide) (by decide) (by decide) (by decide) (by decide)
theorem vpref4 : Statement .vpref4 :=
  encL_lt (by decide) (by decide) (by decide) (by decide) (by decide) (by decide)
theorem vpref5 : Statement .vpref5 :=
  encL_lt (by decide) (by decide) (by decide) (by decide) (by decide) (by decide)
theorem vpref6 : Statement .vpref6 :=
  encL_lt (by decide) (by decide) (by decide) (by decide) (by decide) (by decide)
theorem vpref7 : Statement .vpref7 :=
  encL_lt (by decide) (by decide) (by decide) (by decide) (by decide) (by decide)
theorem vpref8 : Statement .vpref8 :=
  encL_lt (by decide) (by decide) (by decide) (by decide) (by decide) (by decide)
theorem vpref9 : Statement .vpref9 :=
  encL_lt (by decide) (by decide) (by decide) (by decide) (by decide) (by decide)
theorem vpref10 : Statement .vpref10 :=
  encL_lt (by decide) (by decide) (by decide) (by decide) (by decide) (by decide)
theorem vpref11 : Statement .vpref11 :=
  encL_lt (by decide) (by decide) (by decide) (by decide) (by decide) (by decide)
theorem vpref12 : Statement .vpref12 :=
  encL_lt (by decide) (by decide) (by decide) (by decide) (by decide) (by decide)
theorem vpref13 : Statement .vpref13 :=
  encL_lt (by decide) (by decide) (by decide) (by decide) (by decide) (by decide)
theorem vpref14 : Statement .vpref14 :=
  encL_lt (by decide) (by decide) (by decide) (by decide) (by decide) (by decide)
theorem vpref15 : Statement .vpref15 :=
  encL_lt (by decide) (by decide) (by decide) (by decide) (by decide) (by decide)
theorem mzero0 : Statement .mzero0 :=
  encT_lt (by decide) (by decide) (by decide) (by decide) (by decide) (by decide) (by decide) (by decide)
theorem mzero1 : Statement .mzero1 :=
  encT_lt (by decide) (by decide) (by decide) (by decide) (by decide) (by decide) (by decide) (by decide)
theorem mzero2 : Statement .mzero2 :=
  encT_lt (by decide) (by decide) (by decide) (by decide) (by decide) (by decide) (by decide) (by decide)
theorem mzero3 : Statement .mzero3 :=
  encT_lt (by decide) (by decide) (by decide) (by decide) (by decide) (by decide) (by decide) (by decide)
theorem rlpass : Statement .rlpass :=
  encT_lt (by decide) (by decide) (by decide) (by decide) (by decide) (by decide) (by decide) (by decide)
theorem frontEndIssue (core : Nat) : Statement (.frontEndIssue core) := Nat.two_pow_pos 32
theorem syncTrapEntry (strand code tval telem : Nat) : Statement (.syncTrapEntry strand code tval telem) := Nat.two_pow_pos 32
theorem asyncTrapEntry (strand : Nat) : Statement (.asyncTrapEntry strand) := Nat.two_pow_pos 32
theorem postedStoreError (strand code addr : Nat) : Statement (.postedStoreError strand code addr) := Nat.two_pow_pos 32
theorem watchdogExpiry (strand : Nat) : Statement (.watchdogExpiry strand) := Nat.two_pow_pos 32
theorem watchdogReset (strand : Nat) : Statement (.watchdogReset strand) := Nat.two_pow_pos 32
theorem registerFileError (strand : Nat) (scalarReg : Bool) (reg word : Nat) : Statement (.registerFileError strand scalarReg reg word) := Nat.two_pow_pos 32
theorem handlerStart (core : Nat) : Statement (.handlerStart core) := Nat.two_pow_pos 32
theorem reservationTimeout (core : Nat) : Statement (.reservationTimeout core) := Nat.two_pow_pos 32
theorem growOffer (core : Nat) : Statement (.growOffer core) := Nat.two_pow_pos 32
theorem laneChange (strand : Nat) : Statement (.laneChange strand) := Nat.two_pow_pos 32
theorem messageArrival (core : Nat) : Statement (.messageArrival core) := Nat.two_pow_pos 32
theorem messageReoffer (core : Nat) : Statement (.messageReoffer core) := Nat.two_pow_pos 32
theorem continuationDelivery (strand : Nat) : Statement (.continuationDelivery strand) := Nat.two_pow_pos 32
theorem preemptRequest (strand : Nat) : Statement (.preemptRequest strand) := Nat.two_pow_pos 32
theorem saveComplete (strand : Nat) : Statement (.saveComplete strand) := Nat.two_pow_pos 32
theorem resume (handle core : Nat) : Statement (.resume handle core) := Nat.two_pow_pos 32
theorem resumeComplete (strand : Nat) : Statement (.resumeComplete strand) := Nat.two_pow_pos 32
theorem vectorInstructionStart (strand : Nat) : Statement (.vectorInstructionStart strand) := Nat.two_pow_pos 32
theorem vectorBeat (strand : Nat) : Statement (.vectorBeat strand) := Nat.two_pow_pos 32
theorem vectorLoadDataReturn (strand elem addr : Nat) : Statement (.vectorLoadDataReturn strand elem addr) := Nat.two_pow_pos 32
theorem repetitionReissue (strand : Nat) : Statement (.repetitionReissue strand) := Nat.two_pow_pos 32
theorem vforkSplit (strand : Nat) : Statement (.vforkSplit strand) := Nat.two_pow_pos 32
theorem vjoinReassemble (strand : Nat) : Statement (.vjoinReassemble strand) := Nat.two_pow_pos 32
theorem sfuRequestSend (core : Nat) : Statement (.sfuRequestSend core) := Nat.two_pow_pos 32
theorem sfuServiceStart (cluster : Nat) : Statement (.sfuServiceStart cluster) := Nat.two_pow_pos 32
theorem sfuResultReturn (cluster : Nat × Bool) : Statement (.sfuResultReturn cluster) := Nat.two_pow_pos 32
theorem rlpassSend (strand : Nat) : Statement (.rlpassSend strand) := Nat.two_pow_pos 32
theorem rlpassTake (strand : Nat) : Statement (.rlpassTake strand) := Nat.two_pow_pos 32
theorem fenceRetire (strand : Nat) : Statement (.fenceRetire strand) := Nat.two_pow_pos 32
theorem xpfenceRetire (strand : Nat) : Statement (.xpfenceRetire strand) := Nat.two_pow_pos 32
theorem ptfenceRetire (strand : Nat) : Statement (.ptfenceRetire strand) := Nat.two_pow_pos 32
theorem tlbinvDrop (strand : Nat) : Statement (.tlbinvDrop strand) := Nat.two_pow_pos 32
theorem tlbsyncRetire (strand : Nat) : Statement (.tlbsyncRetire strand) := Nat.two_pow_pos 32
theorem pageWalk (strand : Nat) (vas : List Nat) : Statement (.pageWalk strand vas) := Nat.two_pow_pos 32
theorem walkerReadReturn (strand : Nat) : Statement (.walkerReadReturn strand) := Nat.two_pow_pos 32
theorem mgWaitPoll (strand : Nat) : Statement (.mgWaitPoll strand) := Nat.two_pow_pos 32
theorem mgWaitTimeout (strand : Nat) : Statement (.mgWaitTimeout strand) := Nat.two_pow_pos 32
theorem loadDataReturn (strand reg size va : Nat) (uncorrectable : Bool) : Statement (.loadDataReturn strand reg size va uncorrectable) := Nat.two_pow_pos 32
theorem hostRequestCompletion (strand : Nat) (ok : Bool) (data : Nat) : Statement (.hostRequestCompletion strand ok data) := Nat.two_pow_pos 32
theorem hostCompletionTimeout (strand : Nat) : Statement (.hostCompletionTimeout strand) := Nat.two_pow_pos 32
theorem clmBankAccess (core off owner : Nat) (data : List Nat) : Statement (.clmBankAccess core off owner data) := Nat.two_pow_pos 32
theorem cspBankAccess (cluster off owner : Nat) (data : List Nat) : Statement (.cspBankAccess cluster off owner data) := Nat.two_pow_pos 32
theorem l2BankAccess (pa owner : Nat) (write : Bool) : Statement (.l2BankAccess pa owner write) := Nat.two_pow_pos 32
theorem l2FillReturn (pa owner : Nat) : Statement (.l2FillReturn pa owner) := Nat.two_pow_pos 32
theorem csmAccess (off owner : Nat) (data : List Nat) : Statement (.csmAccess off owner data) := Nat.two_pow_pos 32
theorem nearBankOperation (pa owner op operand : Nat) : Statement (.nearBankOperation pa owner op operand) := Nat.two_pow_pos 32
theorem ownerScrub (granule : Nat) : Statement (.ownerScrub granule) := Nat.two_pow_pos 32
theorem l2PatrolScrub (bank pa found : Nat) : Statement (.l2PatrolScrub bank pa found) := Nat.two_pow_pos 32
theorem lpddrSectorService (controller owner : Nat) : Statement (.lpddrSectorService controller owner) := Nat.two_pow_pos 32
theorem regulatorTokenFill (controller owner : Nat) : Statement (.regulatorTokenFill controller owner) := Nat.two_pow_pos 32
theorem lpddrPatrolScrub (sector : Nat) : Statement (.lpddrPatrolScrub sector) := Nat.two_pow_pos 32
theorem domJoin (strand slot value : Nat) : Statement (.domJoin strand slot value) := Nat.two_pow_pos 32
theorem domLeave (strand slot : Nat) : Statement (.domLeave strand slot) := Nat.two_pow_pos 32
theorem barrierCounterError (level unit id : Nat) : Statement (.barrierCounterError level unit id) := Nat.two_pow_pos 32
theorem vlWrite (strand value : Nat) : Statement (.vlWrite strand value) := Nat.two_pow_pos 32
theorem vmcWrite (strand value : Nat) : Statement (.vmcWrite strand value) := Nat.two_pow_pos 32
theorem fcsrWrite (strand value : Nat) : Statement (.fcsrWrite strand value) := Nat.two_pow_pos 32
theorem tprvHoldClear (strand : Nat) : Statement (.tprvHoldClear strand) := Nat.two_pow_pos 32
theorem xasidWrite (strand value : Nat) : Statement (.xasidWrite strand value) := Nat.two_pow_pos 32
theorem berthRecordPlace (cluster ring flags eaxc sym prb : Nat) (payload : List Nat) : Statement (.berthRecordPlace cluster ring flags eaxc sym prb payload) := Nat.two_pow_pos 32
theorem brctlEnable (cluster ring value : Nat) : Statement (.brctlEnable cluster ring value) := Nat.two_pow_pos 32
theorem brctlCursorEnable (cluster ring cursor : Nat) : Statement (.brctlCursorEnable cluster ring cursor) := Nat.two_pow_pos 32
theorem ecpriUplaneFrame (port eaxc sym startPrb numPrb comp : Nat) (bytes : List Nat) : Statement (.ecpriUplaneFrame port eaxc sym startPrb numPrb comp bytes) := Nat.two_pow_pos 32
theorem ecpriCplaneFrame (port eaxc sym startPrb : Nat) (bytes : List Nat) : Statement (.ecpriCplaneFrame port eaxc sym startPrb bytes) := Nat.two_pow_pos 32
theorem ecpriDelayMeasurement (port t1 : Nat) : Statement (.ecpriDelayMeasurement port t1) := Nat.two_pow_pos 32
theorem unmatchedFrame (port : Nat) : Statement (.unmatchedFrame port) := Nat.two_pow_pos 32
theorem ptpEventFrame (port offset : Nat) (locked : Bool) : Statement (.ptpEventFrame port offset locked) := Nat.two_pow_pos 32
theorem synceLockChange (locked : Bool) : Statement (.synceLockChange locked) := Nat.two_pow_pos 32
theorem ptmRequest : Statement .ptmRequest := Nat.two_pow_pos 32
theorem jobRelease (handle : Nat) : Statement (.jobRelease handle) := Nat.two_pow_pos 32
theorem promotionSweep : Statement .promotionSweep := Nat.two_pow_pos 32
theorem timetablePop : Statement .timetablePop := Nat.two_pow_pos 32
theorem dispatchWithdraw (handle : Nat) : Statement (.dispatchWithdraw handle) := Nat.two_pow_pos 32
theorem serverBudgetExhausted (vf : Nat) : Statement (.serverBudgetExhausted vf) := Nat.two_pow_pos 32
theorem serverSuspensionEnd (vf : Nat) : Statement (.serverSuspensionEnd vf) := Nat.two_pow_pos 32
theorem jsrvWrite (vf value : Nat) : Statement (.jsrvWrite vf value) := Nat.two_pow_pos 32
theorem jobEnd (handle status word : Nat) : Statement (.jobEnd handle status word) := Nat.two_pow_pos 32
theorem deadlineExpiry (handle : Nat) : Statement (.deadlineExpiry handle) := Nat.two_pow_pos 32
theorem exitRoutineStart (handle : Nat) : Statement (.exitRoutineStart handle) := Nat.two_pow_pos 32
theorem exitBudgetExpiry (handle : Nat) : Statement (.exitBudgetExpiry handle) := Nat.two_pow_pos 32
theorem commandAccept (engine : Nat) : Statement (.commandAccept engine) := Nat.two_pow_pos 32
theorem ferryCopy (engine : Nat) : Statement (.ferryCopy engine) := Nat.two_pow_pos 32
theorem ferryCopy3 (engine : Nat) : Statement (.ferryCopy3 engine) := Nat.two_pow_pos 32
theorem ferryGather (engine : Nat) : Statement (.ferryGather engine) := Nat.two_pow_pos 32
theorem ferryScatter (engine : Nat) : Statement (.ferryScatter engine) := Nat.two_pow_pos 32
theorem ferryFill (engine : Nat) : Statement (.ferryFill engine) := Nat.two_pow_pos 32
theorem ferryMigrate (engine : Nat) : Statement (.ferryMigrate engine) := Nat.two_pow_pos 32
theorem ferryUpdate (engine : Nat) : Statement (.ferryUpdate engine) := Nat.two_pow_pos 32
theorem ldpcDecode (engine : Nat) : Statement (.ldpcDecode engine) := Nat.two_pow_pos 32
theorem ldpcEncode (engine : Nat) : Statement (.ldpcEncode engine) := Nat.two_pow_pos 32
theorem polarEncode (engine : Nat) : Statement (.polarEncode engine) := Nat.two_pow_pos 32
theorem polarDecode (engine : Nat) : Statement (.polarDecode engine) := Nat.two_pow_pos 32
theorem txUplane (engine : Nat) : Statement (.txUplane engine) := Nat.two_pow_pos 32
theorem txCplane (engine : Nat) : Statement (.txCplane engine) := Nat.two_pow_pos 32
theorem txRawFrame (engine : Nat) : Statement (.txRawFrame engine) := Nat.two_pow_pos 32
theorem txLaunch (engine : Nat) : Statement (.txLaunch engine) := Nat.two_pow_pos 32
theorem txLate (engine : Nat) : Statement (.txLate engine) := Nat.two_pow_pos 32
theorem commandCompletion (engine : Nat) : Statement (.commandCompletion engine) := Nat.two_pow_pos 32
theorem clearanceGo (part : Nat) : Statement (.clearanceGo part) := Nat.two_pow_pos 32
theorem clearanceDecision (part : Nat) : Statement (.clearanceDecision part) := Nat.two_pow_pos 32
theorem clearanceStopPoint (part : Nat) : Statement (.clearanceStopPoint part) := Nat.two_pow_pos 32
theorem clearanceHorizon (part : Nat) : Statement (.clearanceHorizon part) := Nat.two_pow_pos 32
theorem clearanceVacancy (part : Nat) : Statement (.clearanceVacancy part) := Nat.two_pow_pos 32
theorem clusterRetirement (cluster : Nat) : Statement (.clusterRetirement cluster) := Nat.two_pow_pos 32
theorem channelRetirement (controller : Nat) : Statement (.channelRetirement controller) := Nat.two_pow_pos 32
theorem l2cfgCsmwWrite (value : Nat) : Statement (.l2cfgCsmwWrite value) := Nat.two_pow_pos 32
theorem csmResizeComplete : Statement .csmResizeComplete := Nat.two_pow_pos 32
theorem l2errDiscard (bank : Nat) : Statement (.l2errDiscard bank) := Nat.two_pow_pos 32
theorem xdirWrite (owner value : Nat) : Statement (.xdirWrite owner value) := Nat.two_pow_pos 32
theorem xhlogDisable (owner : Nat) : Statement (.xhlogDisable owner) := Nat.two_pow_pos 32
theorem partitionRegisterWrite (addr value : Nat) : Statement (.partitionRegisterWrite addr value) := Nat.two_pow_pos 32
theorem accessTableWrite (addr value : Nat) : Statement (.accessTableWrite addr value) := Nat.two_pow_pos 32
theorem clrlogWrite (value : Nat) : Statement (.clrlogWrite value) := Nat.two_pow_pos 32
theorem mkeyRegen (owner : Nat) : Statement (.mkeyRegen owner) := Nat.two_pow_pos 32
theorem keyRegenComplete (owner : Nat) : Statement (.keyRegenComplete owner) := Nat.two_pow_pos 32
theorem mregWrite (controller owner value : Nat) : Statement (.mregWrite controller owner value) := Nat.two_pow_pos 32
theorem pwrcapWrite (value : Nat) : Statement (.pwrcapWrite value) := Nat.two_pow_pos 32
theorem powerCapExceeded : Statement .powerCapExceeded := Nat.two_pow_pos 32
theorem partitionCapExceeded (part : Nat) : Statement (.partitionCapExceeded part) := Nat.two_pow_pos 32
theorem thermalThrottle : Statement .thermalThrottle := Nat.two_pow_pos 32
theorem thermalStop : Statement .thermalStop := Nat.two_pow_pos 32
theorem thermalSupplyRemoval : Statement .thermalSupplyRemoval := Nat.two_pow_pos 32
theorem powerOnBoot : Statement .powerOnBoot := Nat.two_pow_pos 32
theorem hostRecoverySupply (table image : List Nat) : Statement (.hostRecoverySupply table image) := Nat.two_pow_pos 32
theorem spdmRequest : Statement .spdmRequest := Nat.two_pow_pos 32
theorem fwhoStart (value : Nat) : Statement (.fwhoStart value) := Nat.two_pow_pos 32
theorem handoverVerified (ok : Bool) : Statement (.handoverVerified ok) := Nat.two_pow_pos 32
theorem handoverCommit : Statement .handoverCommit := Nat.two_pow_pos 32
theorem hostMemoryRequest (vf bar off : Nat) (data : Nat × Bool × List Nat) : Statement (.hostMemoryRequest vf bar off data) := Nat.two_pow_pos 32
theorem atsTranslationResponse (strand : Nat) (found allowed : Bool) : Statement (.atsTranslationResponse strand found allowed) := Nat.two_pow_pos 32
theorem atsTimeout (strand : Nat) : Statement (.atsTimeout strand) := Nat.two_pow_pos 32
theorem priResponse (strand : Nat) (success : Bool) : Statement (.priResponse strand success) := Nat.two_pow_pos 32
theorem priTimeout (strand : Nat) : Statement (.priTimeout strand) := Nat.two_pow_pos 32
theorem atsInvalidation (vf : Nat) : Statement (.atsInvalidation vf) := Nat.two_pow_pos 32
theorem sqEnable (vf queue value : Nat) : Statement (.sqEnable vf queue value) := Nat.two_pow_pos 32
theorem sqDoorbell (vf queue value : Nat) : Statement (.sqDoorbell vf queue value) := Nat.two_pow_pos 32
theorem sqDescriptorFetch (vf queue desc : Nat) : Statement (.sqDescriptorFetch vf queue desc) := Nat.two_pow_pos 32
theorem sqStop (vf queue : Nat) : Statement (.sqStop vf queue) := Nat.two_pow_pos 32
theorem sqStopComplete (vf queue : Nat) : Statement (.sqStopComplete vf queue) := Nat.two_pow_pos 32
theorem vfFlr (vf : Nat) : Statement (.vfFlr vf) := Nat.two_pow_pos 32
theorem twinRequest (owner pa : Nat) (data : Nat × List Nat) : Statement (.twinRequest owner pa data) := Nat.two_pow_pos 32
theorem twinLinkDown : Statement .twinLinkDown := Nat.two_pow_pos 32
theorem migrationExport (vf : Nat) : Statement (.migrationExport vf) := Nat.two_pow_pos 32
theorem migrationQuiesced : Statement .migrationQuiesced := Nat.two_pow_pos 32
theorem migrationQuiesceTimeout : Statement .migrationQuiesceTimeout := Nat.two_pow_pos 32
theorem migrationStreamed : Statement .migrationStreamed := Nat.two_pow_pos 32
theorem migrationCancel : Statement .migrationCancel := Nat.two_pow_pos 32
theorem migrationImport (vf ticket : Nat) : Statement (.migrationImport vf ticket) := Nat.two_pow_pos 32
theorem migrationSourceDone : Statement .migrationSourceDone := Nat.two_pow_pos 32
theorem registerWrite (owner addr size value : Nat) : Statement (.registerWrite owner addr size value) := Nat.two_pow_pos 32
theorem twinLinkUp : Statement .twinLinkUp := Nat.two_pow_pos 32
theorem ptpHoldover : Statement .ptpHoldover := Nat.two_pow_pos 32
theorem twinPtmTime (time : Nat) : Statement (.twinPtmTime time) := Nat.two_pow_pos 32

end Sys2Proof.Laws.Fits
end

