-- ==== Sys2Proof/Laws/Phys.lean ====
section
/-! SUPPORT. What a physical access and an error record change of the die: memory, registers and the work that is due, and nothing else. -/

namespace Sys2Proof.Machine

/-- Dies that agree on everything but memory, registers and the work that is due. -/
def Die.Kept (d d' : Die) : Prop := ({ d' with mem := d.mem, mmio := d.mmio, due := d.due } : Die) = d

theorem Die.Kept.refl (d : Die) : d.Kept d := rfl

theorem Die.Kept.trans {a b c : Die} (h : a.Kept b) (k : b.Kept c) : a.Kept c := by
  unfold Die.Kept at *
  rw [← k] at h
  exact h

/-- A choice of two dies that are kept is kept. -/
theorem Die.Kept.ite {p : Prop} [Decidable p] {d a b : Die} (h : d.Kept a) (k : d.Kept b) : d.Kept (if p then a else b) := by
  by_cases hp : p
  · rw [if_pos hp]; exact h
  · rw [if_neg hp]; exact k

theorem Die.addReg_kept (d : Die) (pa n : Nat) : d.Kept (d.addReg pa n) := rfl

theorem Die.writeBackSector_kept (d : Die) (line : Nat) (l : Line) (k : Nat) : d.Kept (d.writeBackSector line l k) :=
  .ite (.ite rfl rfl) rfl

theorem Die.evict_kept (d : Die) (line : Nat) : d.Kept (d.evict line) := by
  have w (d : Die) (l : Line) (k : Nat) := d.writeBackSector_kept line l k
  exact (((w d _ 0).trans (w _ _ 1)).trans (w _ _ 2)).trans ((w _ _ 3).trans rfl)

theorem Die.makeRoom_kept (d : Die) (pa : Nat) : d.Kept (d.makeRoom pa) := by
  unfold Die.makeRoom
  refine .ite rfl ?_
  split
  · exact d.evict_kept _
  · rfl

theorem Die.uncached_kept {d d' : Die} {o pa : Nat} {w x : Bool} (he : d.uncached o pa w x = .ok d') : d.Kept d' := by
  unfold Die.uncached at he
  split at he
  · exact nomatch he
  · rw [← Except.ok.inj he]
    have hw : d.Kept (if w then d.addReg (telemetry o 0x18) 128 else d) := .ite (d.addReg_kept _ _) rfl
    exact hw.trans (.ite rfl rfl)

/-- An access of the L2 that succeeds. -/
theorem Die.l2Access_kept {d d' : Die} {o pa : Nat} {f w : Bool} (he : d.l2Access o pa f w = .ok d') : d.Kept d' := by
  unfold Die.l2Access at he
  extract_lets line k l d1 l1 hit d2 d3 l2 at he
  have k1 : d.Kept d1 := .ite (d.evict_kept _) rfl
  have k2 : d.Kept d2 := k1.trans (.ite (d1.addReg_kept _ _) rfl)
  have k3 : d.Kept d3 := k2.trans (.ite (d2.makeRoom_kept _) rfl)
  iterate 4 (split at he; · exact nomatch he)
  split at he
  · exact k3.trans (Die.uncached_kept he)
  · rw [← Except.ok.inj he]
    exact k3.trans rfl

/-- A physical write that is accepted. -/
theorem Die.physWrite_kept {d d' : Die} {o pa : Nat} {bs : List Byte} (he : d.physWrite o pa bs = .ok d') : d.Kept d' := by
  unfold Die.physWrite at he
  dsimp only at he
  split at he
  case h_1 =>
    split at he
    · split at he
      · exact nomatch he
      · next d1 h1 => rw [← Except.ok.inj he]; exact (Die.l2Access_kept h1).trans rfl
    · exact nomatch he
  all_goals (try split at he) <;> (try split at he) <;> cases he <;> rfl

/-- The die of an error record: one record more. -/
theorem Die.errorRecord_kept (d : Die) (c k a : Nat) : ({ d with errlog := ⟨c, k, a⟩ :: d.errlog } : Die).Kept (d.errorRecord c k a) := by
  unfold Die.errorRecord
  dsimp only
  split
  · split
    · next h => exact (Die.physWrite_kept h).trans rfl
    · rfl
  · rfl

@[simp] theorem Die.errorRecord_errlog (d : Die) (c k a : Nat) : (d.errorRecord c k a).errlog = ⟨c, k, a⟩ :: d.errlog :=
  (congrArg Die.errlog (d.errorRecord_kept c k a) :)
@[simp] theorem Die.errorRecord_cores (d : Die) (c k a : Nat) : (d.errorRecord c k a).cores = d.cores :=
  (congrArg Die.cores (d.errorRecord_kept c k a) :)
@[simp] theorem Die.errorRecord_jobs (d : Die) (c k a : Nat) : (d.errorRecord c k a).jobs = d.jobs :=
  (congrArg Die.jobs (d.errorRecord_kept c k a) :)

end Sys2Proof.Machine
end

