-- ==== Sys2Proof/Laws/Strand.lean ====
section
/-! SUPPORT. What replacing a strand, changing the issuing one and acting as another strand do to every strand; what taking an exception and
writing an error record leave unchanged. -/

namespace Sys2Proof.Machine

variable (s : State) (i j : Nat) (t : Strand) (f : Strand → Strand)

/-- The strand of a number after the strand of another, or the same, number is replaced. -/
theorem strand_setStrand : (s.setStrand i t).strand j = if j = i then t else s.strand j := by
  unfold State.setStrand State.strand
  by_cases h : i = s.meId <;> by_cases hj : j = s.meId <;> simp [h, hj, sget_sset]
  intro e; exact absurd e.symm h

@[simp] theorem strand_setStrand_same : (s.setStrand i t).strand i = t := by simp [strand_setStrand]
theorem strand_setStrand_other (h : j ≠ i) : (s.setStrand i t).strand j = s.strand j := by simp [strand_setStrand, h]
@[simp] theorem setStrand_meId : (s.setStrand i t).meId = s.meId := by unfold State.setStrand; split <;> rfl
@[simp] theorem setStrand_die : (s.setStrand i t).die = s.die := by unfold State.setStrand; split <;> rfl
@[simp] theorem setStrand_agenda : (s.setStrand i t).agenda = s.agenda := by unfold State.setStrand; split <;> rfl
@[simp] theorem strand_modStrand_same : (s.modStrand i f).strand i = f (s.strand i) := by simp [State.modStrand]
theorem strand_modStrand_other (h : j ≠ i) : (s.modStrand i f).strand j = s.strand j := by simp [State.modStrand, strand_setStrand, h]
@[simp] theorem modStrand_meId : (s.modStrand i f).meId = s.meId := by simp [State.modStrand]
@[simp] theorem modStrand_die : (s.modStrand i f).die = s.die := by simp [State.modStrand]
@[simp] theorem modStrand_agenda : (s.modStrand i f).agenda = s.agenda := by simp [State.modStrand]

/-- The strands of a state are those of `me`, `meId` and `others` alone. -/
theorem strand_congr {s t : State} (hm : t.me = s.me) (hi : t.meId = s.meId) (ho : t.others = s.others) : t.strand j = s.strand j := by
  simp [State.strand, hm, hi, ho]
@[simp] theorem strand_modDie (g : Die → Die) : (s.modDie g).strand j = s.strand j := rfl
@[simp] theorem strand_withDie (d : Die) : (s.withDie d).strand j = s.strand j := rfl
@[simp] theorem strand_meId : s.strand s.meId = s.me := by simp [State.strand]

/-- Which strand issues changes no strand. -/
@[simp] theorem strand_focus : (s.focus i).strand j = s.strand j := by
  unfold State.focus
  split
  · rfl
  · rename_i h
    unfold State.strand
    by_cases hj : j = i
    · subst hj; simp [h]
    · by_cases hm : j = s.meId
      · subst hm; simp [hj]
      · simp [hj, hm, sget_sset, sget_sdel_other]
@[simp] theorem focus_meId : (s.focus i).meId = i := by unfold State.focus; split <;> simp_all
@[simp] theorem focus_die : (s.focus i).die = s.die := by unfold State.focus; split <;> rfl
@[simp] theorem focus_agenda : (s.focus i).agenda = s.agenda := by unfold State.focus; split <;> rfl
@[simp] theorem focus_me : (s.focus i).me = s.strand i := by
  unfold State.focus State.strand; split <;> simp_all

/-- Acting as another strand. -/
@[simp] theorem at_meId (g : State → State) : (s.at i g).meId = s.meId := by simp [State.at]
@[simp] theorem at_die (g : State → State) : (s.at i g).die = (g (s.focus i)).die := by simp [State.at]
@[simp] theorem strand_at (g : State → State) : (s.at i g).strand j = (g (s.focus i)).strand j := by simp [State.at]

/-- The strands after the issuing strand alone is changed. -/
theorem strand_modMe : (s.modMe f).strand j = if j = s.meId then f s.me else s.strand j := by
  unfold State.modMe State.strand
  by_cases h : j = s.meId <;> simp [h]

/-! ### Error records and exceptions -/

/-- A failure of a strand leaves every strand as it is. -/
@[simp] theorem strand_strandFailed (c : Nat) : (s.strandFailed i c).strand j = s.strand j := rfl

/-- Taking an exception changes no other strand. -/
theorem trapWith_others (v : TrapVals) : (s.trapWith v).others = s.others ∧ (s.trapWith v).meId = s.meId ∧ (s.trapWith v).agenda = s.agenda := by
  unfold State.trapWith; dsimp only; split <;> exact ⟨rfl, rfl, rfl⟩

/-- Taking an exception where the handler has an entry leaves the die as it is. -/
theorem trapWith_die (v : TrapVals) (h : s.me.trap.ftvec ≠ 0) : (s.trapWith v).die = s.die := by
  unfold State.trapWith Strand.trapEntry Strand.enterAt
  dsimp only
  by_cases h' : s.me.priv.trapTarget = .supervisor ∧ s.me.trap.stvec ≠ 0
  · rw [if_pos h']; rfl
  · rw [if_neg h', if_pos h]; rfl

end Sys2Proof.Machine
end

