-- ==== Sys2Proof/Tests/Slice0.lean ====
section
/-! SUPPORT. Tests of the model: words written out from the encoding tables, ill-formed terms, witnesses for the hypotheses of the statements,
and single steps with results calculated by hand from the rules. -/

open Sys2Proof Sys2Proof.Machine Sys2Proof.Claims

namespace Sys2Proof.Tests

-- Each test is checked before the next is read: many kernel evaluations that wait for one another would take a thread each.
set_option Elab.async false

/-! ### Words (Tables 3.1 to 3.8): the bits that opcode_table.json fixes, with operands in the fields that it names -/

/-- The decoder answers this instruction for the word. -/
def reads (w : Nat) (i : Instr) : Bool := match decodeWord w with | .ok j => decide (j = i) | .error _ => false

def words0 : List (Nat × Instr) :=
  [(0b00010000100010000110010000000000, .add 4 8 12 true),
   (0b00010000100010000110010000000001, .sub 4 8 12 true),
   (0b00010000100010000110000000000010, .and 4 8 12),
   (0b00010000100010000110000000000011, .or 4 8 12),
   (0b00010000100010000110000000000100, .xor 4 8 12),
   (0b00010000100010000110000000000101, .andn 4 8 12),
   (0b00010000100010000110000000000110, .orn 4 8 12),
   (0b00010000100010000110010000000111, .sll 4 8 12 true),
   (0b00010000100010000110010000001000, .srl 4 8 12 true),
   (0b00010000100010000110010000001001, .sra 4 8 12 true),
   (0b00010000100010000110010000001010, .rotr 4 8 12 true),
   (0b00010000100010000110000000001011, .slt 4 8 12),
   (0b00010000100010000110000000001100, .sltu 4 8 12),
   (0b00010000100010000110000000001101, .min 4 8 12),
   (0b00010000100010000110000000001110, .max 4 8 12),
   (0b00010000100010000110000000001111, .minu 4 8 12),
   (0b00010000100010000110000000010000, .maxu 4 8 12),
   (0b00010000100010000110010000010001, .mul 4 8 12 true),
   (0b00010000100010000110000000010010, .mulh 4 8 12),
   (0b00010000100010000110000000010011, .mulhu 4 8 12),
   (0b00010000100010000110010000010100, .div 4 8 12 true),
   (0b00010000100010000110010000010101, .divu 4 8 12 true),
   (0b00010000100010000110010000010110, .rem 4 8 12 true),
   (0b00010000100010000110010000010111, .remu 4 8 12 true)]

theorem test_decode_words0 : (words0.all fun p => reads p.1 p.2 && encode p.2 == p.1 && decide (WellFormed p.2)) = true := by decide +kernel

def words1 : List (Nat × Instr) :=
  [(0b00010000100010000000010000011000, .clz 4 8 true),
   (0b00010000100010000000010000011001, .ctz 4 8 true),
   (0b00010000100010000000010000011010, .popc 4 8 true),
   (0b00010000100010000000000000011011, .brev 4 8),
   (0b00010000100010000001000000011100, .sext 4 8 2),
   (0b00010000100010000001000000011101, .zext 4 8 2),
   (0b00010000100010000110010000011110, .shadd 4 8 12 true),
   (0b00010000100010000110000000011111, .cmovz 4 8 12),
   (0b00010000100010000110000000100000, .cmovnz 4 8 12),
   (0b00010100100010001111111111111100, .addi 4 8 65532),
   (0b00011000100010001111111111111100, .andi 4 8 65532),
   (0b00011100100010001111111111111100, .ori 4 8 65532),
   (0b00100000100010001111111111111100, .xori 4 8 65532),
   (0b00100100100010001111111111111100, .slti 4 8 65532),
   (0b00101000100010001111111111111100, .sltiu 4 8 65532),
   (0b00101100100010000000000100011000, .slli 4 8 true 24),
   (0b00101100100010000000000101011000, .srli 4 8 true 24),
   (0b00101100100010000000000110011000, .srai 4 8 true 24),
   (0b00101100100010000000000111011000, .rotri 4 8 true 24),
   (0b00001000100111111111111111111000, .luh 4 2097144),
   (0b00001100100111111111111111111000, .pcadd 4 2097144),
   (0b00110000100010000101111111111000, .ld 4 8 2 8184),
   (0b00110100100010000101111111111000, .st 4 8 2 8184),
   (0b00111000100010000000000000101010, .lda 4 8 true 1 2)]

theorem test_decode_words1 : (words1.all fun p => reads p.1 p.2 && encode p.2 == p.1 && decide (WellFormed p.2)) = true := by decide +kernel

def words2 : List (Nat × Instr) :=
  [(0b00111000000001000100000001110010, .sta 4 8 true 2 2),
   (0b00111000100010000110000010101010, .swap 4 8 12 true 1 2),
   (0b00111000100010000110000011101010, .cas 4 8 12 true 1 2),
   (0b00111000100010000110000100101010, .amoFadd 4 8 12 true 1 2),
   (0b00111000100010000110000101101010, .amoFand 4 8 12 true 1 2),
   (0b00111000100010000110000110101010, .amoFor 4 8 12 true 1 2),
   (0b00111000100010000110000111101010, .amoFxor 4 8 12 true 1 2),
   (0b00111000100010000110001000101010, .amoFmin 4 8 12 true 1 2),
   (0b00111000100010000110001001101010, .amoFmax 4 8 12 true 1 2),
   (0b00111000100010000110001010101010, .amoFminu 4 8 12 true 1 2),
   (0b00111000100010000110001011101010, .amoFmaxu 4 8 12 true 1 2),
   (0b00111000100010000110001100001010, .amoFaddf 4 8 12 1 2),
   (0b00111100100010000110000000001100, .fadd 4 8 12 1 true),
   (0b00111100100010000110000000101100, .fsub 4 8 12 1 true),
   (0b00111100100010000110000001001100, .fmul 4 8 12 1 true),
   (0b00111100100010000110000001101100, .fdiv 4 8 12 1 true),
   (0b00111100100010000000000010001100, .fsqrt 4 8 1 true),
   (0b00111100100010000110000010101000, .fmin 4 8 12 1),
   (0b00111100100010000110000011001000, .fmax 4 8 12 1),
   (0b00111100100010000110000011101100, .fmadd 4 8 12 1 true),
   (0b00111100100010000110000100001000, .feq 4 8 12 1),
   (0b00111100100010000110000100101000, .flt 4 8 12 1),
   (0b00111100100010000110000101001000, .fle 4 8 12 1),
   (0b00111100100010000000000101101000, .fclass 4 8 1)]

theorem test_decode_words2 : (words2.all fun p => reads p.1 p.2 && encode p.2 == p.1 && decide (WellFormed p.2)) = true := by decide +kernel

def words3 : List (Nat × Instr) :=
  [(0b00111100100010000000000110001101, .fcvtI 4 8 1 true 1),
   (0b00111100100010000000000110101101, .fcvtF 4 8 1 true 1),
   (0b00111100100010000000000111001110, .fcvt 4 8 1 true 2),
   (0b01000000000100111111111111111000, .beqz 4 262136),
   (0b01000000100100111111111111111000, .bnez 4 262136),
   (0b01000001000100111111111111111000, .bltz 4 262136),
   (0b01000001100100111111111111111000, .bgez 4 262136),
   (0b01000010000100111111111111111000, .bgtz 4 262136),
   (0b01000010100100111111111111111000, .blez 4 262136),
   (0b01000100100010000001111111111000, .beq 4 8 8184),
   (0b01000100100010000011111111111000, .bne 4 8 8184),
   (0b01000100100010000101111111111000, .blt 4 8 8184),
   (0b01000100100010000111111111111000, .bge 4 8 8184),
   (0b01000100100010001001111111111000, .bltu 4 8 8184),
   (0b01000100100010001011111111111000, .bgeu 4 8 8184),
   (0b01001011111111111111111111111000, .j 67108856),
   (0b01001111111111111111111111111000, .jal 67108856),
   (0b01010000100010001111111111111100, .jalr 4 8 65532),
   (0b00000100000000000000000011010010, .fence 2 2),
   (0b00000100000010000000000101000001, .tlbinv 0 8 0 true),
   (0b01011100100000000000111111111000, .csrr 4 4088),
   (0b01011100000001000001111111111000, .csrw 4 4088),
   (0b01011100100010000010111111111000, .csrset 4 8 4088),
   (0b01011100100010000011111111111000, .csrclr 4 8 4088)]

theorem test_decode_words3 : (words3.all fun p => reads p.1 p.2 && encode p.2 == p.1 && decide (WellFormed p.2)) = true := by decide +kernel

def words4 : List (Nat × Instr) :=
  [(0b01011100100010000100111111111000, .csrswap 4 8 4088),
   (0b01010100100010000110000000000000, .send 4 8 12),
   (0b01010100100010000000000001000000, .sendc 4 8),
   (0b01010100100000000000000010001000, .contid 4 8),
   (0b01010100100010000000000101000000, .spawn 4 8),
   (0b01010100100000000000000110000000, .jwait 4),
   (0b01010100000001000000000111000000, .jdone 4),
   (0b01010100100010000000001001000000, .jstat 4 8),
   (0b01011000000001000100000000000001, .enq 4 8 true),
   (0b01011000100010000000000001000001, .enqr 4 8 true),
   (0b01011000100000000000000011001000, .bararv 4 8),
   (0b01011000000001000000000100001000, .barwt 4 8),
   (0b01011000100010000000000101000000, .brnext 4 8),
   (0b01011000000001000000000110000000, .brdone 4),
   (0b10000000100010000000000000000001, .setvl 4 8 true),
   (0b10000000000001000000000000100000, .loopv 4),
   (0b10000000100000000000000001000000, .nexts 4),
   (0b10000000000000000000000001111000, .vrep true 8),
   (0b10000000100000000000000011001000, .vtag 4 8),
   (0b10000000100010000110000100000000, .vmvx 4 8 12),
   (0b10000000100010000110000100100000, .vmvs 4 8 12),
   (0b10000100100010000110000000010000, .vadd 4 8 12 true),
   (0b10000100100010000110000000110000, .vsub 4 8 12 true),
   (0b10000100100010000110000001010000, .vrsub 4 8 12 true)]

theorem test_decode_words4 : (words4.all fun p => reads p.1 p.2 && encode p.2 == p.1 && decide (WellFormed p.2)) = true := by decide +kernel

def words5 : List (Nat × Instr) :=
  [(0b10000100100010000110000001110000, .vmul 4 8 12 true),
   (0b10000100100010000110000010010000, .vmulh 4 8 12 true),
   (0b10000100100010000110000010110000, .vmin 4 8 12 true),
   (0b10000100100010000110000011010000, .vmax 4 8 12 true),
   (0b10000100100010000000000011100000, .vabs 4 8),
   (0b10000100100010000000000100000000, .vneg 4 8),
   (0b10000100100010000110000100100000, .vand 4 8 12),
   (0b10000100100010000110000101000000, .vor 4 8 12),
   (0b10000100100010000110000101100000, .vxor 4 8 12),
   (0b10000100100010000110000110000000, .vandn 4 8 12),
   (0b10000100100010000110000110100000, .vsll 4 8 12),
   (0b10000100100010000110000111000000, .vsrl 4 8 12),
   (0b10000100100010000110000111100000, .vsra 4 8 12),
   (0b10000100100010000110001000010000, .vsadd 4 8 12 true),
   (0b10000100100010000110001000110000, .vssub 4 8 12 true),
   (0b10000100100010000110001001010000, .vavg 4 8 12 true),
   (0b10000100100010000110001001110000, .vdiv 4 8 12 true),
   (0b10000100100010000000001010010000, .vcvt 4 8 true),
   (0b10000100100010000110001010100000, .vcmpeq 4 8 12),
   (0b10000100100010000110001011000000, .vcmpne 4 8 12),
   (0b10000100100010000110001011100000, .vcmplt 4 8 12),
   (0b10000100100010000110001100000000, .vcmple 4 8 12),
   (0b10000100100010000110001100100000, .vsel 4 8 12),
   (0b10000100100010000110001101000000, .vmrg 4 8 12)]

theorem test_decode_words5 : (words5.all fun p => reads p.1 p.2 && encode p.2 == p.1 && decide (WellFormed p.2)) = true := by decide +kernel

def words6 : List (Nat × Instr) :=
  [(0b10000100100010000000001101100000, .vclass 4 8),
   (0b10001000100010000110000000010000, .vaddVs 4 8 12 true),
   (0b10001000100010000110000000110000, .vsubVs 4 8 12 true),
   (0b10001000100010000110000001010000, .vrsubVs 4 8 12 true),
   (0b10001000100010000110000001110000, .vmulVs 4 8 12 true),
   (0b10001000100010000110000010010000, .vmulhVs 4 8 12 true),
   (0b10001000100010000110000010110000, .vminVs 4 8 12 true),
   (0b10001000100010000110000011010000, .vmaxVs 4 8 12 true),
   (0b10001000100010000110000100100000, .vandVs 4 8 12),
   (0b10001000100010000110000101000000, .vorVs 4 8 12),
   (0b10001000100010000110000101100000, .vxorVs 4 8 12),
   (0b10001000100010000110000110000000, .vandnVs 4 8 12),
   (0b10001000100010000110000110100000, .vsllVs 4 8 12),
   (0b10001000100010000110000111000000, .vsrlVs 4 8 12),
   (0b10001000100010000110000111100000, .vsraVs 4 8 12),
   (0b10001000100010000110001000010000, .vsaddVs 4 8 12 true),
   (0b10001000100010000110001000110000, .vssubVs 4 8 12 true),
   (0b10001000100010000110001001010000, .vavgVs 4 8 12 true),
   (0b10001000100010000110001001110000, .vdivVs 4 8 12 true),
   (0b10001000100010000110001010100000, .vcmpeqVs 4 8 12),
   (0b10001000100010000110001011000000, .vcmpneVs 4 8 12),
   (0b10001000100010000110001011100000, .vcmpltVs 4 8 12),
   (0b10001000100010000110001100000000, .vcmpleVs 4 8 12),
   (0b10001100100010000110010000000100, .vfma 4 8 12 16 true)]

theorem test_decode_words6 : (words6.all fun p => reads p.1 p.2 && encode p.2 == p.1 && decide (WellFormed p.2)) = true := by decide +kernel

def words7 : List (Nat × Instr) :=
  [(0b10001100100010000110010000001100, .vfms 4 8 12 16 true),
   (0b10001100100010000110010000010100, .vfnma 4 8 12 16 true),
   (0b10001100100010000110010000011100, .vfnms 4 8 12 16 true),
   (0b10001100100010000110000000100100, .vmacc 4 8 12 true),
   (0b10001100100010000110010000101100, .vdot2 4 8 12 16 true),
   (0b10010000011001100010100000000000, .mand 3 6 5),
   (0b10010000011001100010100000100000, .mor 3 6 5),
   (0b10010000011001100010100001000000, .mxor 3 6 5),
   (0b10010000011001100010100001100000, .mandn 3 6 5),
   (0b10010000011001100000000010000000, .mnot 3 6),
   (0b10010000011001100000000010100000, .mmov 3 6),
   (0b10010000011001100000000011000000, .msbf 3 6),
   (0b10010000011001100000000011100000, .msif 3 6),
   (0b10010000011001100000000100000000, .msof 3 6),
   (0b10010000100001100000000100100000, .mpopc 4 6),
   (0b10010000100001100000000101000000, .mfirst 4 6),
   (0b10010000100001100000000101100000, .viota 4 6),
   (0b10010000100000000000000110000000, .vid 4),
   (0b10010000100010000000000110100000, .mset 4 8),
   (0b10010100100010000110000000000000, .vslideup 4 8 12),
   (0b10010100100010000110000000100000, .vslidedn 4 8 12),
   (0b10010100100010000110000001000000, .vrgather 4 8 12),
   (0b10010100100010000000000001100000, .vcompress 4 8),
   (0b10010100100010000000000010000000, .vexpand 4 8)]

theorem test_decode_words7 : (words7.all fun p => reads p.1 p.2 && encode p.2 == p.1 && decide (WellFormed p.2)) = true := by decide +kernel

def words8 : List (Nat × Instr) :=
  [(0b10010100100010000000000010100010, .vshuf 4 8 2),
   (0b10010100100010000000000011000011, .vxch 4 8 3),
   (0b10010100100010000110000011100000, .vbcast 4 8 12),
   (0b10010100100010000110000100010000, .vredsum 4 8 12 true),
   (0b10010100100010000110000100110000, .vredsumo 4 8 12 true),
   (0b10010100100010000110000101010000, .vredmin 4 8 12 true),
   (0b10010100100010000110000101110000, .vredmax 4 8 12 true),
   (0b10011000100010000110000000001111, .vcmul 4 8 12 true true true true),
   (0b10011000100010000110000000101111, .vcmac 4 8 12 true true true true),
   (0b10011000100010000000000001001000, .vcmag2 4 8 true),
   (0b10011000100010000000000001101000, .vconj 4 8 true),
   (0b10011000100010000110000010011000, .vbfly2 4 8 12 true true),
   (0b10011000100010000110000010111000, .vbfly4 4 8 12 true true),
   (0b10011000100010000000000011001000, .vcinv2 4 8 true),
   (0b10011000100010000110000011100111, .vqmul 4 8 12 true true true),
   (0b10011000100010000110000100000000, .vqscl 4 8 12),
   (0b10011100100010000000000000010000, .sfRcp 4 8 true),
   (0b10011100100010000000000000110000, .sfRsq 4 8 true),
   (0b10011100100010000000000001010000, .sfSqrt 4 8 true),
   (0b10011100100010000000000001110000, .sfExp2 4 8 true),
   (0b10011100100010000000000010010000, .sfLog2 4 8 true),
   (0b10011100100010000000000010110000, .sfSinpi 4 8 true),
   (0b10011100100010000000000011010000, .sfCospi 4 8 true),
   (0b10011100100010000110000011110000, .sfAtan2pi 4 8 12 true)]

theorem test_decode_words8 : (words8.all fun p => reads p.1 p.2 && encode p.2 == p.1 && decide (WellFormed p.2)) = true := by decide +kernel

def words9 : List (Nat × Instr) :=
  [(0b10100000100100000000000001000000, .vld 4 8 true),
   (0b10100000100100000000000011000000, .vst 4 8 true),
   (0b10100000100100000000000100000000, .vstu 4 8),
   (0b10100000100100000000000110000000, .vldff 4 8),
   (0b10100000100100000000001000000000, .vlds 4 8),
   (0b10100000100100001100001011000000, .vgath 4 8 12 true),
   (0b10100000100100001100001101000000, .vscat 4 8 12 true),
   (0b10100000100100001100001110000000, .vscatu 4 8 12),
   (0b10100000100100000000010000000000, .vstcmp 4 8),
   (0b10100000100100000000010010000000, .vldexp 4 8),
   (0b10100000100100001100010101000100, .vamo 4 8 12 true 4),
   (0b10100000100100001100010110000000, .vredm 4 8 12 0),
   (0b10100100100100000000000000000011, .sdset 4 8 3),
   (0b10100100100100000000000010000011, .sdget 4 8 3),
   (0b10100100100100000000000100000000, .sdld 4 8),
   (0b10100100100100000000000110000000, .sdst 4 8),
   (0b10100100100100000000001000000000, .sdadv 4 8),
   (0b10100100100100000000001010000000, .sdpos 4 8),
   (0b10101001010001111111000001110000, .mopa 1 8 31 3 0 true true),
   (0b10101001010001111111000010110000, .mops 1 8 31 3 0 true true),
   (0b10101001010001111111000011110000, .cmopa 1 8 31 3 0 true true),
   (0b10101001010001111111000100111010, .mopasp 1 8 31 3 0 true true true 2),
   (0b10101001010000000000000101000000, .mld 1 8),
   (0b10101001010000000000000110000000, .mst 1 8)]

theorem test_decode_words9 : (words9.all fun p => reads p.1 p.2 && encode p.2 == p.1 && decide (WellFormed p.2)) = true := by decide +kernel

def words10 : List (Nat × Instr) :=
  [(0b10101001010000110000000111000000, .mrdv 1 8 12),
   (0b10101001010000110000001000000000, .mwrv 1 8 12),
   (0b10101000001000000001001001000000, .rlld 4 1),
   (0b10101000001000000001001011000000, .rlrd 4 1),
   (0b00000100000000000000000000000000, .ecall),
   (0b00000100000000000000000001000000, .trapret),
   (0b00000100000000000000000010000000, .brk),
   (0b00000100000000000000000100000000, .ptfenceStrand),
   (0b00000100000000000000000100001000, .ptfenceCore),
   (0b00000100000000000000000100010000, .ptfenceCluster),
   (0b00000100000000000000000100011000, .ptfenceDie),
   (0b00000100000000000000000100100000, .ptfenceSystem),
   (0b00000100000000000000000110000000, .tlbsyncStrand),
   (0b00000100000000000000000110001000, .tlbsyncCore),
   (0b00000100000000000000000110010000, .tlbsyncCluster),
   (0b00000100000000000000000110011000, .tlbsyncDie),
   (0b00000100000000000000000110100000, .tlbsyncSystem),
   (0b00000100000000000000000111000000, .xpfence),
   (0b01010100000000000000000011000000, .park),
   (0b01010100000000000000000100000000, .yield),
   (0b01010100000000000000001000000000, .jexit),
   (0b01011000000000000000000010000000, .bar0),
   (0b01011000000000000000000010000001, .bar1),
   (0b01011000000000000000000010000010, .bar2)]

theorem test_decode_words10 : (words10.all fun p => reads p.1 p.2 && encode p.2 == p.1 && decide (WellFormed p.2)) = true := by decide +kernel

def words11 : List (Nat × Instr) :=
  [(0b01011000000000000000000010000011, .bar3),
   (0b01011000000000000000000010000100, .bar4),
   (0b01011000000000000000000010000101, .bar5),
   (0b01011000000000000000000010000110, .bar6),
   (0b01011000000000000000000010000111, .bar7),
   (0b01011000000000000000000010001000, .bar8),
   (0b01011000000000000000000010001001, .bar9),
   (0b01011000000000000000000010001010, .bar10),
   (0b01011000000000000000000010001011, .bar11),
   (0b01011000000000000000000010001100, .bar12),
   (0b01011000000000000000000010001101, .bar13),
   (0b01011000000000000000000010001110, .bar14),
   (0b01011000000000000000000010001111, .bar15),
   (0b10000000000000000000000010000000, .vfork2),
   (0b10000000000000000000000010000001, .vfork4),
   (0b10000000000000000000000010100000, .vjoin),
   (0b10000000000000000000000011100000, .vwait),
   (0b10100000000000000000011000000000, .vpref0),
   (0b10100000000000100000011000000000, .vpref1),
   (0b10100000000001000000011000000000, .vpref2),
   (0b10100000000001100000011000000000, .vpref3),
   (0b10100000000010000000011000000000, .vpref4),
   (0b10100000000010100000011000000000, .vpref5),
   (0b10100000000011000000011000000000, .vpref6)]

theorem test_decode_words11 : (words11.all fun p => reads p.1 p.2 && encode p.2 == p.1 && decide (WellFormed p.2)) = true := by decide +kernel

def words12 : List (Nat × Instr) :=
  [(0b10100000000011100000011000000000, .vpref7),
   (0b10100000000100000000011000000000, .vpref8),
   (0b10100000000100100000011000000000, .vpref9),
   (0b10100000000101000000011000000000, .vpref10),
   (0b10100000000101100000011000000000, .vpref11),
   (0b10100000000110000000011000000000, .vpref12),
   (0b10100000000110100000011000000000, .vpref13),
   (0b10100000000111000000011000000000, .vpref14),
   (0b10100000000111100000011000000000, .vpref15),
   (0b10101000000000000000000000000000, .mzero0),
   (0b10101001000000000000000000000000, .mzero1),
   (0b10101010000000000000000000000000, .mzero2),
   (0b10101011000000000000000000000000, .mzero3),
   (0b10101000000000000000001010000000, .rlpass)]

theorem test_decode_words12 : (words12.all fun p => reads p.1 p.2 && encode p.2 == p.1 && decide (WellFormed p.2)) = true := by decide +kernel

/-- One ill-formed term at least for each check of WellFormed. -/
def illFormed : List Instr :=
  [.sext 1 2 3, .zext 1 2 3, .slli 1 2 true 32, .srli 1 2 true 63, .srai 1 2 true 32, .rotri 1 2 true 40,
   .ld 1 2 7 0, .st 1 2 4 0, .lda 1 2 false 0 5, .lda 1 2 false 2 0, .sta 1 2 true 0 5, .sta 1 2 true 1 0,
   .swap 1 2 3 true 0 5, .cas 1 2 3 true 0 7, .amoFadd 1 2 3 true 0 5, .amoFand 1 2 3 true 0 5, .amoFor 1 2 3 true 0 5, .amoFxor 1 2 3 true 0 5,
   .amoFmin 1 2 3 true 0 5, .amoFmax 1 2 3 true 0 6, .amoFminu 1 2 3 true 0 5, .amoFmaxu 1 2 3 true 0 5, .amoFaddf 1 2 3 0 5, .fcvt 1 2 0 false 0,
   .fcvt 1 2 3 true 3, .fence 5 0, .fence 0 5, .tlbinv 1 2 0 true, .tlbinv 0 2 1 true, .send 0 1 2,
   .send 27 1 2, .sendc 0 1, .sendc 27 1, .contid 1 0, .contid 1 27, .enqr 0 1 false,
   .enqr 25 1 false, .vcmpeq 8 0 0, .vcmpne 31 0 0, .vcmplt 8 0 0, .vcmple 8 0 0, .vcmpeqVs 8 0 0,
   .vcmpneVs 8 0 0, .vcmpltVs 8 0 0, .vcmpleVs 8 0 0, .mand 8 0 0, .mor 0 8 0, .mxor 0 0 8,
   .mandn 8 8 8, .mnot 0 8, .mmov 8 0, .msbf 8 0, .msif 0 8, .msof 8 0,
   .mpopc 0 8, .mfirst 0 8, .viota 0 8, .mset 8 0, .vshuf 0 1 5, .vxch 0 1 11,
   .vamo 0 0 1 false 9, .vredm 0 0 1 9, .sdset 0 0 12, .sdget 0 0 15, .mopa 0 0 0 0 0 true false, .mopa 0 0 31 0 1 true false,
   .mops 0 0 30 0 0 true false, .cmopa 0 0 31 0 3 true false, .mopasp 0 0 0 0 0 true false false 0]

theorem test_ill_formed_refused : (illFormed.all fun i => !decide (WellFormed i)) = true := by decide +kernel

/-- The words that would carry them are refused by name (R57, check 4). -/
theorem test_ill_formed_words_refused : (illFormed.all fun i => match decodeWord (encode i) with | .ok _ => false | .error _ => true) = true := by decide +kernel

/-- Words that the decoder refuses by name: reserved majors (R53), reserved op values, a bit that must be zero (R55). -/
theorem test_reserved_words : ([0x00000000, 0xFFFFFFFF, 0x60000000, 0x7FFFFFFF, 0xAC000000, 0xF8000000, 0x10000021, 0x100007FF, 0x040001C1].all fun w =>
    match decodeWord w with | .error _ => true | .ok _ => false) = true := by decide +kernel

/-- The first of them: major 0x00, and major 0x3F. -/
theorem test_reserved_major : (match decodeWord 0 with | .error .reservedMajor => true | _ => false) = true
    ∧ (match decodeWord 0xFFFFFFFF with | .error .reservedMajor => true | _ => false) = true := by decide +kernel

/-- Fewer than four bytes are no word. -/
theorem test_truncated : (match decode [1, 2, 3] with | .error .truncated => true | _ => false) = true := by decide +kernel

/-! ### States for the tests -/

/-- Firmware of the column on strand 0, with every lane group, about to run a word: ASID 0, the first GiB mapped. -/
def base (w : Nat) : State := State.reset.withFetchWord 32 w

/-- The issuing strand changed. -/
def onMe (s : State) (f : Strand → Strand) : State := { s with me := f s.me }

/-- Its vector context changed. -/
def onCtx (s : State) (f : VCtx → VCtx) : State := onMe s fun t => { t with ctx := f t.ctx }

/-- The die changed. -/
def ofDie (s : State) (f : Die → Die) : State := { s with die := f s.die }

/-- Scalar registers set. -/
def withRegs (s : State) (rs : List (Fin 32 × Word)) : State :=
  onMe s fun t => { t with regs := rs.foldl (fun v e => v.set e.1.val e.2 e.1.isLt) t.regs }

/-- A root strand at user privilege with both trap vectors, of the running job 0x10005 of VF 1. -/
def rootStrand : Strand :=
  { Strand.empty with
    pc := 0x1000
    trap := { Strand.empty.trap with stvec := 0x2000, ftvec := 0x3000 }
    ctx := { VCtx.absent with gm := 0xF, vl := 4 }
    id := ⟨.root, 0x101, 0x10005, 1, 0, 1, 4⟩ }

/-- Its job, with a deadline far off. -/
def rootJob : Job := { Job.unused with gen := 1, vf := 1, owner := 0x101, state := .running, root := some 0, desc := 2 ^ 126 }

/-- The machine that runs it. -/
def atRoot : State := ofDie (onMe (base 0) fun _ => rootStrand) fun d => { d with jobs := [(5, rootJob)] }

/-! ### Witnesses: states and operands that meet the hypotheses of the statements, clause by clause -/

theorem witness_EncodedInstructionsDecode : WellFormed (.sub 3 1 2 true) ∧ (Instr.sub 3 1 2 true).hasWord = true := by decide +kernel

theorem witness_DecodedWordsAreEncodings : 0x10611001 < 2 ^ 32 ∧ reads 0x10611001 (.sub 3 1 2 false) = true := by decide +kernel

/-- A fetch gives this word, with something true of the state that it leaves. -/
def fetches (x : Fetched) (w : Nat) (p : State → Bool) : Bool := match x with | .word v f => v == w && p f | _ => false

theorem fetch_word (x : Fetched) (w : Nat) (p : State → Bool) (h : fetches x w p = true) : ∃ f, x = .word w f ∧ p f = true := by
  cases x <;> simp_all [fetches]

theorem witness_StepRunsDecodedInstruction : ∃ f,
    let s := base 0x10611001
    s.tick.die.due = [] ∧ s.tick.agenda = [] ∧ 8 ≤ s.tick.die.bootStep ∧ s.tick.die.bootStep ≠ 14 ∧ s.tick.auto.isNone = true
      ∧ s.tick.chooseStrand = some 0 ∧ (s.tick.strand 0).issuable = true ∧ (s.tick.focus 0).me.takesAsync = false ∧ (s.tick.strand 0).inQueue = false
      ∧ ((s.tick.focus 0).modMe fun t => { t with run := { t.run with lastIssue := s.tick.die.clock } }).fetch = .word 0x10611001 f
      ∧ (f.me.ctx.queue.isEmpty && !f.me.ctx.rep.running && f.me.ctx.rep.toCapture == 0) = true
      ∧ reads 0x10611001 (.sub 3 1 2 false) = true ∧ queued 0x10611001 = false := by
  obtain ⟨f, h, h'⟩ := fetch_word (((base 0x10611001).tick.focus 0).modMe fun t =>
    { t with run := { t.run with lastIssue := (base 0x10611001).tick.die.clock } }).fetch 0x10611001
    (fun f => f.me.ctx.queue.isEmpty && !f.me.ctx.rep.running && f.me.ctx.rep.toCapture == 0) (by decide +kernel)
  refine ⟨f, ?_, ?_, ?_, ?_, ?_, ?_, ?_, ?_, ?_, h, h', ?_, ?_⟩ <;> decide +kernel

theorem witness_StepGoesOnUnlessBootStopped : State.reset.die.bootStep ≠ 14
    ∧ (let s := withReg State.reset 0x20000A000000 14
       s.tick.die.due = [] ∧ s.tick.agenda = [] ∧ s.tick.die.bootStep = 14) := by decide +kernel

/-- The next step runs ST of 8 bytes, s2 = 7, to address s1 = 0: the form holds before, and the memory changes. -/
theorem witness_EveryStepKeepsCanonicalForm : (let s := onMe (base (encode (.st 2 1 3 0))) fun t => { t with regs := t.regs.set 2 7 }
    s.die.wf = true ∧ (match step s with | .next t => t.die.mem.lpByte 0 0 == 7 && t.die.mem.bytes != s.die.mem.bytes | _ => false) = true) := by
  decide +kernel

theorem witness_SynchronousTrapEntry : (atRoot.me.priv = .user ∧ atRoot.me.trap.stvec ≠ 0)
    ∧ ((base 0).me.priv ≠ .user ∧ (base 0).me.trap.ftvec = 0)
    ∧ (let s := onMe (base 0) fun t => { t with trap := rootStrand.trap }
       s.me.priv ≠ .user ∧ s.me.trap.ftvec ≠ 0) := by decide +kernel

theorem witness_CallAndBreakTrap : (atRoot.me.priv = .user ∧ atRoot.me.trap.stvec ≠ 0)
    ∧ (let s := onMe (base 0) fun t => { t with trap := rootStrand.trap }
       s.me.priv ≠ .user ∧ s.me.trap.ftvec ≠ 0) := by decide +kernel

/-- Firmware that returns to a target. -/
def returning (pc : Word) (p : Priv) : State := onMe (base 0) fun t => { t with trap := { t.trap with tpc := pc, pprv := p, hold := true } }

theorem witness_TrapReturn :
    ([0x40000000000000, 0xFFFFFFFFFFFFFFFC].all fun pc => decide (¬inRange (returning pc .user).me.trap.tpc)) = true
    ∧ ([0x3FFFFFFFFFFFFE, 1].all fun pc => decide (inRange (returning pc .user).me.trap.tpc ∧ (returning pc .user).me.trap.tpc.toNat % 4 ≠ 0)) = true
    ∧ ([0x3FFFFFFFFFFFFC, 0].all fun pc => decide (inRange (returning pc .firmware).me.trap.tpc ∧ (returning pc .firmware).me.trap.tpc.toNat % 4 = 0
        ∧ (returning pc .firmware).me.trap.pprv.code ≤ (returning pc .firmware).me.priv.code ∧ (returning pc .firmware).me.priv ≠ .user
        ∧ (returning pc .firmware).me.ctx.rep.suspended = false)) = true
    ∧ (let s := onMe (returning 0 .firmware) fun t => { t with priv := .supervisor }
       s.me.priv.code < s.me.trap.pprv.code) := by decide +kernel

theorem witness_TrapEvents :
    let c : Cause := ⟨0x70, 64⟩
    let due := onMe atRoot fun t => { t with run := { t.run with causes := [c] } }
    let idle := { atRoot with die := { atRoot.die with jobs := [] } }
    ((due.strand 0).alive = true ∧ (due.strand 0).run.causes = [c] ∧ (due.strand 0).trap.hold = false ∧ (due.strand 0).priv = .user
      ∧ (due.strand 0).trap.stvec ≠ 0)
    ∧ ((returning 0 .user).strand 0).trap.hold = true
    ∧ ((base 0).strand 0).watched = true ∧ ((base 0).strand 0).run.watchdog = false
    ∧ (let s := onMe (base 0) fun t => { t with run := { t.run with watchdog := true } }
       (s.strand 0).watched = true ∧ (s.strand 0).run.watchdog = true)
    ∧ ((base 0).strand 7).alive = false
    ∧ (((base 0).strand 0).alive = true ∧ ((base 0).strand 0).id.kind = .column)
    ∧ ((idle.strand 0).alive = true ∧ (idle.strand 0).id.kind = .root ∧ ∀ e ∈ idle.die.jobs, e.2.parent ≠ 0x10005)
    ∧ (let s := onMe atRoot fun t => { t with id := { t.id with kind := .aux } }
       (s.strand 0).alive = true ∧ (s.strand 0).id.kind = .aux) := by decide +kernel

theorem witness_IntegerRegisterResults : (aluRule (base 0) (.add 0 1 2 true)).isSome = true ∧ (aluRule (base 0) (.cmovz 31 1 2)).isSome = true := by
  decide +kernel

theorem witness_MultiplyDivideAndImmediateResults : WellFormed (.sext 1 2 2) ∧ (mulDivRule (base 0) (.sext 1 2 2)).isSome = true
    ∧ WellFormed (.remu 0 1 2 true) ∧ (mulDivRule (base 0) (.remu 0 1 2 true)).isSome = true
    ∧ (immRule (base 0) (.srai 1 2 true 31)).isSome = true ∧ (immRule (base 0) (.luh 0 0x1FFFFF)).isSome = true := by decide +kernel

theorem witness_ScalarFloatResults : (fpRule (base 0) (.fcvt 1 2 0 true 3)).isSome = true ∧ (fpRule (base 0) (.fmadd 0 1 2 2 false)).isSome = true := by
  decide +kernel

theorem witness_RoundedResults : ((1 : Nat) ≠ 0 ∧ ratOf (.fin false 1 0) = some 1 ∧ ratBits .f32 (rounded .f32 .rne false false 1 0).1 = some 1
    ∧ (1065353216 : Nat) < 2 ^ (Fmt.f32.signPos + 1) ∧ ratBits .f32 1065353216 = some 1)
    ∧ (ratOf (.fin true 3 (-1)) = some (-3 / 2) ∧ ratBits .f16 (rounded .f16 .rup false true 3 (-1)).1 = some (-3 / 2)
    ∧ ratBits .f16 (rounded .f16 .rdn false true 3 (-1)).1 = some (-3 / 2) ∧ Fmt.f16 ≠ .e4m3 ∧ Fmt.f16 ≠ .e5m2) := by decide +kernel

theorem witness_BranchesAndJumps : (∃ off, branchRule (base 0) (.beqz 0 5) = some (true, off)) ∧ (∃ off, branchRule (base 0) (.bltz 0 5) = some (false, off))
    ∧ inRange (targetOf (base 0) 5) ∧ ¬inRange (targetOf (base 0) (-0x401))
    ∧ (∃ off, branchRule (base 0) (.beq 0 0 0x1000) = some (true, off)) := by
  refine ⟨⟨5, ?_⟩, ⟨5, ?_⟩, ?_, ?_, ⟨-0x1000, ?_⟩⟩ <;> decide +kernel

theorem witness_JumpToRegister :
    let t (a : Word) (i : Fin 65536) : Word := BitVec.ofInt 64 (u (withRegs (base 0) [(1, a)]) 1 + simm i)
    ¬inRange (t 0x3FFFFFFFFFFFFC 4) ∧ inRange (t 0x40000000000000 0xFFFC) ∧ (t 0x40000000000000 0xFFFC).toNat % 4 = 0
      ∧ inRange (t 0x3FFFFFFFFFFFFC 3) ∧ (t 0x3FFFFFFFFFFFFC 3).toNat % 4 ≠ 0 ∧ ¬inRange (t 0 0xFFFF) := by decide +kernel

theorem ok_of {α β : Type} (x : Except α β) (h : x.isOk = true) : ∃ v, x = .ok v := by
  cases x
  · cases h
  · exact ⟨_, rfl⟩

theorem ok_pair {α β γ : Type} (x : Except α (β × γ)) (h : x.isOk = true) : ∃ v w, x = .ok (v, w) := by
  obtain ⟨⟨v, w⟩, h⟩ := ok_of x h
  exact ⟨v, w, h⟩

theorem error_of {α β : Type} (x : Except α β) (h : x.isOk = false) : ∃ e, x = .error e := by
  cases x
  · exact ⟨_, rfl⟩
  · cases h

/-- The owner of a target, as a truth value. -/
def memoryAt (d : Die) (pa : Nat) : Bool := match d.target pa with | .lpddr | .csm _ | .csp _ _ | .clm _ _ => true | _ => false

theorem isMemory_of (d : Die) (pa : Nat) (h : memoryAt d pa = true) : isMemory d pa := by
  unfold isMemory
  unfold memoryAt at h
  split at h <;> simp_all

theorem writesBack_of (d : Die) (h : d.mem.lines = []) : writesBack d := by
  intro a k _ hd
  rw [h] at hd
  simp [sget, Line.none] at hd

/-- A translation succeeds, with something true of the address and the state. -/
def goesTo (s : State) (va n : Nat) (a : Acc) (p : Nat → State → Bool) : Bool :=
  match s.resolveScalar va n a with
  | .inl (.ok (pa, _, s')) => p pa s'
  | _ => false

theorem goes_of (s : State) (va n : Nat) (a : Acc) (p : Nat → State → Bool) (h : goesTo s va n a p = true) :
    ∃ pa mt s', translatesTo s va n a pa mt s' ∧ p pa s' = true := by
  unfold goesTo at h
  split at h
  · rename_i pa mt s' e
    exact ⟨pa, mt, s', e, h⟩
  · cases h

theorem reads_of (s : State) (va n : Nat) (a : Acc) (h : goesTo s va n a (fun pa t => memoryAt t.die pa && (t.die.physRead s.me.id.owner pa n).isOk) = true) :
    ∃ pa mt s' bs d', translatesTo s va n a pa mt s' ∧ isMemory s'.die pa ∧ s'.die.physRead s.me.id.owner pa n = .ok (bs, d') := by
  obtain ⟨pa, mt, s', e, h⟩ := goes_of _ _ _ _ _ h
  rw [Bool.and_eq_true] at h
  obtain ⟨bs, d', h'⟩ := ok_pair _ h.2
  exact ⟨pa, mt, s', bs, d', e, isMemory_of _ _ h.1, h'⟩

theorem read_refused_of (s : State) (va n : Nat)
    (h : goesTo s va n .read (fun pa t => memoryAt t.die pa && !(t.die.physRead s.me.id.owner pa n).isOk) = true) : ∃ pa mt s' e,
    translatesTo s va n .read pa mt s' ∧ isMemory s'.die pa ∧ s'.die.physRead s.me.id.owner pa n = .error e := by
  obtain ⟨pa, mt, s', e, h⟩ := goes_of _ _ _ _ _ h
  rw [Bool.and_eq_true, Bool.not_eq_true'] at h
  obtain ⟨c, h'⟩ := error_of _ h.2
  exact ⟨pa, mt, s', c, e, isMemory_of _ _ h.1, h'⟩

theorem writes_of (s : State) (va n : Nat) (bs : List Byte) (h : goesTo s va n .write (fun pa t => memoryAt t.die pa && t.die.mem.lines.isEmpty
      && decide (inSector pa n ∧ holdsBlock t.die s.me.id.owner pa) && (t.die.physWrite s.me.id.owner pa bs).isOk) = true) :
    ∃ pa mt s' d', translatesTo s va n .write pa mt s' ∧ isMemory s'.die pa ∧ s'.die.physWrite s.me.id.owner pa bs = .ok d' ∧ writesBack s'.die
      ∧ inSector pa n ∧ holdsBlock s'.die s.me.id.owner pa := by
  obtain ⟨pa, mt, s', e, h⟩ := goes_of _ _ _ _ _ h
  simp only [Bool.and_eq_true, decide_eq_true_eq, List.isEmpty_iff] at h
  obtain ⟨⟨⟨hm, hl⟩, hs, hb⟩, hw⟩ := h
  obtain ⟨d', h'⟩ := ok_of _ hw
  exact ⟨pa, mt, s', d', e, isMemory_of _ _ hm, h', writesBack_of _ hl, hs, hb⟩

theorem write_refused_of (s : State) (va n : Nat) (bs : List Byte)
    (h : goesTo s va n .write (fun pa t => memoryAt t.die pa && !(t.die.physWrite s.me.id.owner pa bs).isOk) = true) : ∃ pa mt s' e,
    translatesTo s va n .write pa mt s' ∧ isMemory s'.die pa ∧ s'.die.physWrite s.me.id.owner pa bs = .error e := by
  obtain ⟨pa, mt, s', e, h⟩ := goes_of _ _ _ _ _ h
  rw [Bool.and_eq_true, Bool.not_eq_true'] at h
  obtain ⟨c, h'⟩ := error_of _ h.2
  exact ⟨pa, mt, s', c, e, isMemory_of _ _ h.1, h'⟩

/-- The CLM block of core 0 and the CSP block of cluster 0 in the hands of owner 0. -/
def held : State := ofDie (base 0) fun d => { d with mem := { d.mem with otags := [(0x110000000000 / 4096, 1), (0x120000000000 / 4096, 1)] } }

theorem witness_MemoryReads : ∀ pa ∈ [0x1000, 0x107C, 0x1FFFFFFF80, 0x120000000000, 0x120000000FFC, 0x110000000000], ∃ bs d',
    held.die.physRead 0 pa 4 = .ok (bs, d') ∧ inSector pa 4 ∧ writesBack held.die ∧ holdsBlock held.die 0 pa := by
  have all : ([0x1000, 0x107C, 0x1FFFFFFF80, 0x120000000000, 0x120000000FFC, 0x110000000000].all fun pa =>
      (held.die.physRead 0 pa 4).isOk && decide (inSector pa 4 ∧ holdsBlock held.die 0 pa)) = true := by decide +kernel
  intro pa h
  have h := List.all_eq_true.mp all pa h
  rw [Bool.and_eq_true, decide_eq_true_eq] at h
  obtain ⟨bs, d', e⟩ := ok_pair _ h.1
  exact ⟨bs, d', e, h.2.1, writesBack_of _ (by decide +kernel), h.2.2⟩

theorem witness_MemoryWrites : ∀ pa ∈ [0x1000, 0x107C, 0x120000000000, 0x110000000FFC], ∃ d',
    held.die.physWrite 0 pa [1, 2, 3, 4] = .ok d' ∧ inSector pa 4 ∧ writesBack held.die ∧ holdsBlock held.die 0 pa := by
  have all : ([0x1000, 0x107C, 0x120000000000, 0x110000000FFC].all fun pa =>
      (held.die.physWrite 0 pa [1, 2, 3, 4]).isOk && decide (inSector pa 4 ∧ holdsBlock held.die 0 pa)) = true := by decide +kernel
  intro pa h
  have h := List.all_eq_true.mp all pa h
  rw [Bool.and_eq_true, decide_eq_true_eq] at h
  obtain ⟨d', e⟩ := ok_of _ h.1
  exact ⟨d', e, h.2.1, writesBack_of _ (by decide +kernel), h.2.2⟩

/-- A write that is carried out and leaves its target readable and its sector whole. -/
def rereads (d : Die) (o pa : Nat) (bs : List Byte) : Bool :=
  match d.physWrite o pa bs with
  | .ok d' => d'.admits (tableOf pa (d'.target pa)) o false
      && (!decide (pa < 0x4000000000) || (d'.admits (0x400 + lpController pa) o false && !sget false d'.mem.errs (errSector pa)))
  | .error _ => false

theorem witness_WrittenIsReadBack : ∀ pa ∈ [0x1004, 0x120000000004], ∃ d', held.die.physWrite 0 pa [1, 2, 3, 4] = .ok d'
    ∧ d'.admits (tableOf pa (d'.target pa)) 0 false = true
    ∧ (pa < 0x4000000000 → d'.admits (0x400 + lpController pa) 0 false = true ∧ sget false d'.mem.errs (errSector pa) = false) := by
  have all (pa : Nat) (h : rereads held.die 0 pa [1, 2, 3, 4] = true) : ∃ d', held.die.physWrite 0 pa [1, 2, 3, 4] = .ok d'
      ∧ d'.admits (tableOf pa (d'.target pa)) 0 false = true
      ∧ (pa < 0x4000000000 → d'.admits (0x400 + lpController pa) 0 false = true ∧ sget false d'.mem.errs (errSector pa) = false) := by
    unfold rereads at h
    split at h
    · rename_i d' e
      simp only [Bool.and_eq_true, Bool.or_eq_true, Bool.not_eq_true', decide_eq_false_iff_not] at h
      exact ⟨d', e, h.1, fun hp => h.2.resolve_left fun hn => hn hp⟩
    · simp at h
  intro pa h
  simp only [List.mem_cons, List.not_mem_nil, or_false] at h
  rcases h with rfl | rfl <;> exact all _ (by decide +kernel)

theorem witness_ForeignBlocksReadZero : (∃ bs d', held.die.physRead 0 0x120000001000 4 = .ok (bs, d') ∧ ¬holdsBlock held.die 0 0x120000001000)
    ∧ ∃ d', held.die.physWrite 0 0x120000001FFC [1, 2, 3, 4] = .ok d' ∧ ¬holdsBlock held.die 0 0x120000001FFC := by
  obtain ⟨bs, d', e⟩ := ok_pair (held.die.physRead 0 0x120000001000 4) (by decide +kernel)
  obtain ⟨d'', e'⟩ := ok_of (held.die.physWrite 0 0x120000001FFC [1, 2, 3, 4]) (by decide +kernel)
  exact ⟨⟨bs, d', e, by decide +kernel⟩, d'', e', by decide +kernel⟩

/-- The first GiB cached for core 0, owner 0, ASID 0, with this leaf. -/
def cached (pte : Nat) : State := ofDie (base 0) fun d => { d with xlat := { d.xlat with coreTlb := [(0, [⟨0, 0, 0, 30, pte, 0x42000⟩])] } }

theorem witness_TranslationOfAccesses :
    (windowAt 0 0x3FFF8 = some 0x12000003FFF8 ∧ windowAt 0 0x40000 = none ∧ windowAt 5 0x10000000 = some 0x110000200000
      ∧ windowAt 5 0x101FFFF8 = some 0x1100003FFFF8 ∧ windowAt 5 0x10200000 = none ∧ windowAt 0 0xFFFFFFF = none)
    ∧ (base 0).die.admitsRW (tableOf 0x12000003FFF8 ((base 0).die.target 0x12000003FFF8)) 0 true true = true
    ∧ atRoot.die.admitsRW (tableOf 0x12000003FFF8 (atRoot.die.target 0x12000003FFF8)) 0x101 true false = false
    ∧ (leafServes (cached 0xBF) 0x3FFFFFF8 .rmw ⟨0, 0, 0, 30, 0xBF, 0x42000⟩ ∧ isMemory (cached 0xBF).die (pteFrame 0xBF + 0x3FFFFFF8 % 2 ^ 30))
    ∧ (let s := cached 0xBB
       s.die.findCopy s.core s.me.id.owner s.me.xasid.toNat 8 [] = some ⟨0, 0, 0, 30, 0xBB, 0x42000⟩ ∧ s.die.target (pteFrame 0xBB + 8 % 2 ^ 30) ≠ .hole
         ∧ pteBit 0xBB 2 = false)
    ∧ (base 0).die.reg (xdirAddr (base 0).me.id.owner) % 2 = 1 ∧ State.reset.die.reg (xdirAddr State.reset.me.id.owner) % 2 = 0 := by
  refine ⟨?_, ?_, ?_, ⟨⟨?_, ?_, ?_, ?_, ?_, ?_⟩, isMemory_of _ _ ?_⟩, ?_, ?_, ?_⟩ <;> decide +kernel

theorem witness_AccessedAndDirtyBits : let s := cached 0x8F
    (∃ d', s.die.setAD 0 0 ⟨0, 0, 0, 30, 0x8F, 0x42000⟩ true = .ok (true, d')) ∧ pteBit 0x8F 4 = false ∧ 0x42000 % 8 = 0 ∧ writesBack s.die
      ∧ holdsBlock s.die 0 0x42000 := by
  refine ⟨?_, ?_, ?_, writesBack_of _ ?_, ?_⟩
  any_goals decide +kernel
  have all (x : Except (Nat × Die) (Bool × Die)) (h : (match x with | .ok (b, _) => b | .error _ => false) = true) : ∃ d', x = .ok (true, d') := by
    rcases x with _ | ⟨_ | _, d⟩ <;> simp_all
  exact all _ (by decide +kernel)

/-- A leaf that maps the second GiB to the registers of the die, one that maps the third to the host's window. -/
def outside : State := ofDie (base 0) fun d => { d with xlat := { d.xlat with coreTlb :=
  [(0, [⟨0, 0, 0x40000000, 30, 0x200000000000 + 0x1B7, 0⟩, ⟨0, 0, 0x80000000, 30, 0x800000000000 + 0x1B7, 0⟩])] } }

theorem witness_LoadResults :
    WellFormed (.ld 1 2 6 0)
    ∧ (2 ^ 54 ≤ eaOf (withRegs (base 0) [(2, 0x3FFFFFFFFFFFFF)]) 2 1 ∧ eaOf (withRegs (base 0) [(2, 0x3FFFFFFFFFFFFF)]) 2 0 % 8 ≠ 0
      ∧ eaOf (withRegs (base 0) [(2, 0x3FFFFFFFFFFFFF)]) 2 0 < 2 ^ 54)
    ∧ (∃ e s', (base 0).resolveScalar 0x003FFF0000040000 4 .read = .inl (.error (e, s')))
    ∧ (∃ pa mt s' bs d', translatesTo (base 0) 0x1000 4 .read pa mt s' ∧ isMemory s'.die pa
        ∧ s'.die.physRead (base 0).me.id.owner pa 4 = .ok (bs, d'))
    ∧ (let s := ofDie (base 0) fun d => { d with mem := { d.mem with errs := [(errSector 0x1000, true)] } }
       ∃ pa mt s' e, translatesTo s 0x1000 4 .read pa mt s' ∧ isMemory s'.die pa ∧ s'.die.physRead s.me.id.owner pa 4 = .error e)
    ∧ (∃ pa mt s' x s'', translatesTo outside 0x43000000 8 .read pa mt s' ∧ s'.die.target pa = .mmio
        ∧ s'.mmioRead outside.me.id.owner outside.me.priv pa 8 = .ok (x, s''))
    ∧ ∃ pa mt s', translatesTo outside 0x80000000 8 .read pa mt s' ∧ s'.die.target pa = .hostWindow := by
  refine ⟨?_, ?_, ?_, reads_of _ _ _ _ ?_, read_refused_of _ _ _ ?_, ?_, ?_⟩
  any_goals decide +kernel
  · have all (x : Except (Nat × State) (Nat × Nat × State) ⊕ State) (h : (match x with | .inl (.error _) => true | _ => false) = true) :
        ∃ e s', x = .inl (.error (e, s')) := by
      rcases x with (⟨e, s⟩ | _) | _
      · exact ⟨e, s, rfl⟩
      · cases h
      · cases h
    exact all _ (by decide +kernel)
  · obtain ⟨pa, mt, s', e, h⟩ := goes_of outside 0x43000000 8 .read
      (fun pa t => decide (t.die.target pa = .mmio) && (t.mmioRead 0 .firmware pa 8).isOk) (by decide +kernel)
    rw [Bool.and_eq_true, decide_eq_true_eq] at h
    obtain ⟨x, s'', e'⟩ := ok_pair _ h.2
    exact ⟨pa, mt, s', x, s'', e, h.1, e'⟩
  · obtain ⟨pa, mt, s', e, h⟩ := goes_of outside 0x80000000 8 .read (fun pa t => decide (t.die.target pa = .hostWindow)) (by decide +kernel)
    exact ⟨pa, mt, s', e, of_decide_eq_true h⟩

theorem witness_StoreEffects :
    WellFormed (.st 1 2 3 0) ∧ (2 ^ 54 ≤ eaOf (withRegs (base 0) [(2, 0x3FFFFFFFFFFFFF)]) 2 1)
    ∧ (∃ pa mt s' d', translatesTo (cached 0xBF) 0x1000 8 .write pa mt s' ∧ isMemory s'.die pa
        ∧ s'.die.physWrite (cached 0xBF).me.id.owner pa (bytesOf 8 7) = .ok d' ∧ writesBack s'.die ∧ inSector pa 8
        ∧ holdsBlock s'.die (cached 0xBF).me.id.owner pa)
    ∧ (let s := onMe held fun t => { t with id := { t.id with owner := 0x101 } }
       let s := ofDie s fun d => { d with mmio := sset 0 d.mmio (xdirAddr 0x101) 1
                                          xlat := { d.xlat with coreTlb := [(0, [⟨0x101, 0, 0, 30, 0xBF, 0x42000⟩])] } }
       ∃ pa mt s' e, translatesTo s 0x1000 8 .write pa mt s' ∧ isMemory s'.die pa ∧ s'.die.physWrite s.me.id.owner pa (bytesOf 8 7) = .error e)
    ∧ (let s := withRegs (base 0) [(2, 0x3FFFFFFFFFFFFF)]
       eaOf s 2 0 < 2 ^ 54 ∧ eaOf s 2 0 % 8 ≠ 0) := by
  refine ⟨?_, ?_, writes_of _ _ _ _ ?_, write_refused_of _ _ _ _ ?_, ?_⟩ <;> decide +kernel

theorem witness_AtomicResults : (amoOf (.cas 1 2 3 true 3 0) == some (.cas, 1, 2, 3, true, 3, 0)) = true
    ∧ (∃ pa mt s' bs d', translatesTo held 0x1000 8 .rmw pa mt s' ∧ isMemory s'.die pa ∧ s'.die.physRead held.me.id.owner pa 8 = .ok (bs, d'))
    ∧ (∃ pa mt s', translatesTo held 0x003FFF0000000000 4 .rmw pa mt s' ∧ isMemory s'.die pa ∧ 0x110000000000 ≤ pa)
    ∧ (∃ d2, held.die.physWrite 0 0x1000 (bytesOf 8 7) = .ok d2)
    ∧ 2 ^ 54 ≤ u (withRegs (base 0) [(2, 0x40000000000000)]) 2 ∧ u (withRegs (base 0) [(2, 0x3FFFFFFFFFFFFC)]) 2 % 8 ≠ 0 := by
  refine ⟨?_, reads_of _ _ _ _ ?_, ?_, ok_of _ ?_, ?_, ?_⟩
  any_goals decide +kernel
  obtain ⟨pa, mt, s', e, h⟩ := goes_of held 0x003FFF0000000000 4 .rmw (fun pa t => memoryAt t.die pa && decide (0x110000000000 ≤ pa)) (by decide +kernel)
  rw [Bool.and_eq_true] at h
  exact ⟨pa, mt, s', e, isMemory_of _ _ h.1, of_decide_eq_true h.2⟩

theorem witness_CsrAccess : csrAllowed (base 0) 0x381 ∧ (csrValue (base 0) 0x381).isSome = true ∧ (csrAfter (base 0) 0x381 0).isSome = true
    ∧ csrAllowed atRoot 0x010 ∧ (csrValue atRoot 0x010).isSome = true ∧ (csrNeedsLease 0x010 → atRoot.me.ctx.gm ≠ 0) ∧ (csrAfter atRoot 0x010 7).isSome = true
    ∧ csrAllowed atRoot 0xC3F ∧ (csrValue atRoot 0xC3F).isSome = true := by decide +kernel

theorem witness_CsrChecks : ¬csrAllowed atRoot 0x100 ∧ (csrAllowed atRoot 0x013 ∧ csrKnown 0x013 = false)
    ∧ (csrAllowed atRoot 0xC00 ∧ csrKnown 0xC00 = true ∧ csrAllowed atRoot 0xC3F ∧ csrKnown 0xC3F = true ∧ csrKnown 0xC40 = false) := by decide +kernel

/-- Strand 0 at user privilege with element tags, VL = `n`. -/
def tagged (n : Nat) (l : List (Nat × Tag)) : State := onCtx atRoot fun c => { c with vl := n, tags := l }

theorem witness_ElementWrites : destFits (tagged 256 []).me.ctx ⟨4, 1, .i32, .i32, false, 1, false⟩
    ∧ destFits (tagged 5 []).me.ctx ⟨4, 1, .i16, .i16, false, 2, false⟩ ∧ destFits (tagged 5 []).me.ctx ⟨4, 2, .cf32, .cf32, true, 1, false⟩ := by
  decide +kernel

theorem witness_ElementWiseExecution :
    (∃ p, (AOp.add.plan ((tagged 4 [(1, .i32), (2, .i32), (3, .i32)]).rnd false) 1 2 (vb 3)) (tagged 4 [(1, .i32), (2, .i32), (3, .i32)]).me.ctx = .ok p)
    ∧ (∃ c, (AOp.add.plan ((tagged 4 []).rnd false) 1 2 (vb 3)) (tagged 4 []).me.ctx = .error c) ∧ (onCtx atRoot fun _ => VCtx.absent).me.ctx.gm = 0
    ∧ (∃ p, planSel ((tagged 4 [(1, .cf32), (2, .cf32), (3, .cf32)]).rnd false) 1 2 3 (tagged 4 [(1, .cf32), (2, .cf32), (3, .cf32)]).me.ctx
        = .ok p)
    ∧ (let c := { (tagged 4 [(1, .i32), (2, .i32), (3, .i32)]).me.ctx with masks := [(0, 1)], mf := 2 }
       c.vstart ≤ 1 ∧ 1 < c.vl ∧ c.mf.getLsbD 1 = true ∧ (maskBit c 0 1 != c.vmc.getLsbD 1) = false ∧ (maskBit c 0 0 != c.vmc.getLsbD 1) = true) := by
  refine ⟨ok_of _ ?_, error_of _ ?_, ?_, ok_of _ ?_, ?_⟩ <;> decide +kernel

theorem witness_VectorIntegerResults :
    (∀ t ∈ [Tag.i32, .ui32, .i16, .ui16, .i8, .ui8], intTag t ∧ uniform (tagged 4 [(1, t), (2, t), (3, t)]) t 1 (readRegs 2 3 false))
    ∧ uniform (tagged 4 [(2, .i32)]) .i32 1 (readRegs 2 3 true) ∧ uniform (tagged 4 []) .raw 1 (readRegs 2 3 false)
    ∧ uniform (tagged 4 [(1, .i32), (2, .i32), (3, .i32)]) .i32 1 [2, 3, 3]
    ∧ (let s := tagged 4 [(2, .i16), (3, .i16), (4, .i32)]
       (∀ r ∈ [(1 : Fin 32), 2, 3, 4], aligned s r) ∧ tagAt s.me.ctx 2 = .i16 ∧ tagAt s.me.ctx 4 = .i32 ∧ tagAt s.me.ctx 1 = .raw)
    ∧ uniform (tagged 4 [(2, .ci16), (3, .ci16)]) .ci16 1 [2, 3] ∧ uniform (tagged 4 [(2, .i16)]) .i16 1 [2] := by
  refine ⟨?_, ?_, ?_, ?_, ?_, ?_, ?_⟩ <;> decide +kernel

theorem witness_VectorFloatResults :
    (floatTag .e4m3 = some .e4m3 ∧ uniform (tagged 4 [(1, .e4m3), (2, .e4m3), (3, .e4m3)]) .e4m3 1 (readRegs 2 3 false))
    ∧ uniform (tagged 4 [(2, .f32), (3, .f32)]) .f32 1 [2, 3, 3]
    ∧ (let s := tagged 4 [(2, .bf16)]
       aligned s 1 ∧ aligned s 2 ∧ tagAt s.me.ctx 2 = .bf16 ∧ s.me.ctx.gm ≠ 0)
    ∧ (let s := tagged 4 [(2, .f16), (3, .f16), (4, .f32)]
       (∀ r ∈ [(1 : Fin 32), 2, 3, 4], aligned s r) ∧ tagAt s.me.ctx 2 = .f16 ∧ tagAt s.me.ctx 4 = .f32 ∧ tagAt s.me.ctx 1 = .raw)
    ∧ uniform (tagged 4 [(1, .cf32), (2, .cf32), (3, .cf32)]) .cf32 1 [2, 3, 1]
    ∧ (let s := tagged 4 [(2, .cbf16)]
       tagAt s.me.ctx 2 = .cbf16 ∧ tagAt s.me.ctx 1 = .raw) := by decide +kernel

theorem witness_PermutesAndReductions :
    (let s := tagged 4 [(2, .bf16), (3, .ui32)]
     (permuteRule s (.vrgather 1 2 3)).isSome = true ∧ aligned s 1 ∧ aligned s 2 ∧ (1 : Fin 32) ≠ 2 ∧ tagAt s.me.ctx 2 ≠ .cf32 ∧ aligned s 3
       ∧ (3 : Fin 32) ≠ 1 ∧ intTag (tagAt s.me.ctx 3))
    ∧ (let s := tagged 256 [(2, .f32)]
       s.me.ctx.vstart < s.me.ctx.vl ∧ s.me.ctx.vl ≤ s.me.ctx.g * (64 * s.me.ctx.k) ∧ (31 : Fin 32).val + s.me.ctx.g ≤ 32)
    ∧ (let s := tagged 4 [(2, .ui8)]
       (reduceOp (.vredmax 1 2 3 false)).isSome = true ∧ tagAt s.me.ctx 2 ≠ .raw ∧ (tagAt s.me.ctx 2).isComplex = false ∧ intTag (tagAt s.me.ctx 2)) := by
  decide +kernel

theorem witness_ComparesAndMasks :
    (let s := tagged 4 [(2, .i16), (3, .i16)]
     (vecCompare (.vcmple 7 2 3)).isSome = true ∧ s.me.ctx.gm ≠ 0 ∧ ∀ q ∈ readRegs 2 3 false, aligned s q ∧ tagAt s.me.ctx q = .i16)
    ∧ (let s := tagged 4 [(2, .f16)]
       floatTag .f16 = some .f16 ∧ ∀ q ∈ readRegs 2 3 true, aligned s q ∧ tagAt s.me.ctx q = .f16)
    ∧ (maskRule atRoot (.mset 7 1)).isSome = true ∧ (scanRule atRoot (.msof 7 0)).isSome = true ∧ atRoot.me.ctx.gm ≠ 0
    ∧ (let s := onCtx atRoot fun c => { c with masks := [(3, 4)] }
       (2 < s.me.ctx.vl ∧ (setBelow s 3 3 && !setBelow s 3 2) = true) ∧ setBelow s 4 s.me.ctx.vl = false) := by decide +kernel

theorem witness_BlocksAndSpecialFunctions :
    (let s := tagged 4 [(2, .cbf16), (4, .cbf16), (6, .cbf16)]
     s.me.ctx.gm ≠ 0 ∧ s.me.ctx.g = 1 ∧ (2 : Fin 32) ≠ 4 ∧ (6 : Fin 32) ≠ 2 ∧ tagAt s.me.ctx 4 = .cbf16 ∧ tagAt s.me.ctx 6 = .cbf16 ∧ tagAt s.me.ctx 2 = .cbf16)
    ∧ (∃ p, (planBfly 2 false ((tagged 4 [(2, .cbf16), (3, .cbf16), (4, .cbf16), (5, .cbf16), (6, .cbf16)]).rnd false) 2 4 6)
        (tagged 4 [(2, .cbf16), (3, .cbf16), (4, .cbf16), (5, .cbf16), (6, .cbf16)]).me.ctx = .ok p)
    ∧ (sfuOp (.sfRcp 1 2 false)).isSome = true ∧ uniform (tagged 4 [(2, .f32)]) .f32 1 [2] ∧ uniform (tagged 4 [(2, .f32), (3, .f32)]) .f32 1 [2, 3]
    ∧ (let s := onCtx (tagged 4 [(1, .f32), (2, .i32)]) fun c => { c with v := [(513, 0x1000001)] }
       aligned s 1 ∧ aligned s 2 ∧ tagAt s.me.ctx 2 = .i32 ∧ tagAt s.me.ctx 1 = .f32
         ∧ (elemActive s 1 ∧ ((FV.ofInt (asInt .i32 (wordAt s.me.ctx 2 1))).round .f32 .rne false).2 ≠ 0)
         ∧ ((FV.ofInt (asInt .i32 (wordAt s.me.ctx 2 0))).round .f32 .rne false).2 = 0 ∧ s.me.ctx.vmc.getLsbD 6 = false ∧ s.me.ctx.vl ≤ 2048) := by
  refine ⟨?_, ok_of _ ?_, ?_, ?_, ?_, ?_⟩ <;> decide +kernel

/-- Firmware with two words of its CLM to sweep through descriptor 0, the register indices 0 and 1 in v2. -/
def sweeping : State := onCtx held fun c => { c with
  vl := 2, tags := [(1, .i32), (2, .i32)], v := [(513, 1)]
  sd := [(0, { Desc.zero with space := 1, tag := 1, len0 := 8, stride0 := 4 })] }

theorem clm_ready (idx : Option (Fin 32)) (h : idx = none ∨ idx = some 2) : clmReady sweeping 1 0 idx .i32 := by
  refine ⟨?_, ?_, ?_, ?_, ?_, ?_, ?_, ?_, ?_, ?_⟩
  any_goals decide +kernel
  · intro r hr
    rcases h with rfl | rfl
    · cases hr
    · obtain rfl : 2 = r := by simpa using hr
      decide +kernel
  · intro n hn
    have : n < 2 := hn.2.1
    rcases h with rfl | rfl
    · exact (show ∀ n < 2, clmWord sweeping (elemOffset sweeping 0 none n) by decide +kernel) n this
    · exact (show ∀ n < 2, clmWord sweeping (elemOffset sweeping 0 (some 2) n) by decide +kernel) n this

theorem witness_VectorMemoryInClm : clmReady sweeping 1 0 none .i32 ∧ clmReady sweeping 1 0 (some 2) .i32 ∧ (2 : Fin 32) ≠ 1
    ∧ tagAt sweeping.me.ctx 1 = .i32 ∧ (∀ idx ∈ [none, some (2 : Fin 32)], elemOffset sweeping 0 idx 0 ≠ elemOffset sweeping 0 idx 1)
    ∧ (vecLoad (.vgath 1 0 2 true)).isSome = true ∧ (vecStore (.vscatu 1 0 2)).isSome = true ∧ (vecAtomic (.vamo 1 0 2 true 7)).isSome = true
    ∧ sweeping.me.ctx.vl ≤ sweeping.me.ctx.g * (64 * sweeping.me.ctx.k) := by
  refine ⟨clm_ready _ (.inl rfl), clm_ready _ (.inr rfl), ?_, ?_, ?_, ?_, ?_, ?_, ?_⟩
  all_goals decide +kernel

/-- The same with a record of two elements at offset 0, of which element 1 is stored. -/
def recorded : State := ofDie sweeping fun d => { d with mem := { d.mem with
  bytes := ssetAll 0 d.mem.bytes 0x120000000000 (recordBytes .i32 2 [1] fun _ => 5) } }

theorem witness_CompressedRecords :
    recordReady sweeping 1 0 .i32 (recordBytes .i32 (recordCovers .i32 sweeping.me.ctx.vl) (recordStores sweeping 1 .i32)
      fun j => elemOf sweeping.me.ctx 1 .i32 j).length
    ∧ (recordStores sweeping 1 .i32).length * (Tag.i32.ebits / 8) ≤ recordRoom (sdOf sweeping 0) ∧ sweeping.me.ctx.vl ≤ 2048
    ∧ recordReady recorded 1 0 .i32 (recordBytes .i32 2 [1] fun _ => 5).length ∧ 0 < recorded.me.ctx.vl
    ∧ ([1].Pairwise (· < ·) ∧ ∀ j ∈ [1], j < 2 ∧ 5 < 2 ^ Tag.i32.ebits) ∧ [1].length * (Tag.i32.ebits / 8) ≤ recordRoom (sdOf recorded 0)
    ∧ clmBytes recorded (sdOf recorded 0).base.toNat (recordBytes .i32 2 [1] fun _ => 5).length = recordBytes .i32 2 [1] (fun _ => 5)
    ∧ prefOf .vpref15 = some 15 ∧ (sdOf sweeping 0).tag ≠ 15 := by
  have ready (s : State) (n : Nat) (h : s.meId < 2048 ∧ s.me.ctx.gm ≠ 0 ∧ s.me.run.linkData = [] ∧ (sdOf s 0).space = 1
      ∧ Tag.ofCode (sdOf s 0).tag.toNat = some .i32 ∧ (sdOf s 0).base.toNat % 16 = 0 ∧ s.me.ctx.vstart = 0 ∧ aligned s 1 ∧ swf .raw s.me.ctx.tags = true
      ∧ ∀ i < (n + 3) / 4, clmWord s ((sdOf s 0).base.toNat + 4 * i)) : recordReady s 1 0 .i32 n := h
  refine ⟨ready _ _ ?_, ?_, ?_, ready _ _ ?_, ?_, ?_, ?_, ?_, ?_, ?_⟩ <;> decide +kernel

theorem witness_VectorLengthsAndWords : atRoot.me.ctx.gm ≠ 0 ∧ nothingPending (base 0)
    ∧ (let s := onCtx atRoot fun c => { c with vmc := 0x10 }
       ¬aligned s 3 ∧ aligned s 2 ∧ Tag.ofCode (14 : Fin 16) = some .cf32)
    ∧ (∃ pa mt s' bs d, translatesTo (cached 0xBF) 0x1000 64 .read pa mt s' ∧ isMemory s'.die pa
        ∧ s'.die.physRead (cached 0xBF).me.id.owner pa 64 = .ok (bs, d))
    ∧ ∃ pa mt s' d, translatesTo (cached 0xBF) 0x1000 64 .write pa mt s' ∧ isMemory s'.die pa
        ∧ s'.die.physWrite (cached 0xBF).me.id.owner pa (bytesOf 64 7) = .ok d := by
  refine ⟨?_, by unfold nothingPending; decide +kernel, ?_, reads_of _ _ _ _ ?_, ?_⟩
  any_goals decide +kernel
  obtain ⟨pa, mt, s', d, h⟩ := writes_of (cached 0xBF) 0x1000 64 (bytesOf 64 7) (by decide +kernel)
  exact ⟨pa, mt, s', d, h.1, h.2.1, h.2.2.1⟩

/-- A strand of a family. -/
def inFamily (f : Fork) (others : List (Nat × Strand)) : State := { onCtx atRoot fun c => { c with fork := f } with others := others }

theorem witness_ForkedContexts :
    (atRoot.me.ctx.gm ≠ 0 ∧ atRoot.me.ctx.fork.n = 0 ∧ 4 ≤ atRoot.me.ctx.k ∧ atRoot.me.ctx.g = 1 ∧ atRoot.me.ctx.vstart = 0 ∧ atRoot.me.id.kind ≠ .free
      ∧ (∀ j, j / 8 = atRoot.meId / 8 → j ≠ atRoot.meId → atRoot.strand j = Strand.empty) ∧ (atRoot.coreS (atRoot.meId / 8)).reservations = [])
    ∧ ((inFamily ⟨2, 1, 8, 15⟩ []).me.ctx.fork.n ≠ 0 ∧ (inFamily ⟨2, 1, 8, 15⟩ []).me.ctx.fork.index ≠ 0)
    ∧ (let kid := { rootStrand with id := { rootStrand.id with kind := .child }, ctx := { rootStrand.ctx with fork := ⟨2, 1, 0, 15⟩ } }
       (let s := inFamily ⟨2, 0, 0, 15⟩ [(1, kid)]
        s.me.ctx.fork.index = 0 ∧ ∃ e ∈ s.others, (e.2.id.kind = .child ∧ e.2.ctx.fork.root = s.meId ∧ e.1 ≠ s.meId) ∧ e.2.run.wait ≠ .join)
       ∧ (let s := inFamily ⟨2, 0, 0, 15⟩ [(1, { kid with run := { kid.run with wait := .join } })]
          ∀ e ∈ s.others, (e.2.id.kind = .child ∧ e.2.ctx.fork.root = s.meId ∧ e.1 ≠ s.meId) → e.2.run.wait = .join)) := by
  refine ⟨⟨?_, ?_, ?_, ?_, ?_, ?_, ?_, ?_⟩, ?_, ?_⟩
  any_goals decide +kernel
  intro j h h'
  have : j < 8 := by
    have : atRoot.meId = 0 := by decide +kernel
    omega
  exact (show ∀ j < 8, j ≠ atRoot.meId → atRoot.strand j = Strand.empty by decide +kernel) j this h'

/-- One row of a tile to sweep. -/
def sweep64 : State := onCtx sweeping fun c => { c with vl := 1, sd := [(0, { Desc.zero with space := 1, tag := 7, len0 := 64, stride0 := 4 })] }

theorem witness_MatrixUnit :
    (let s := tagged 4 [(2, .bf16), (3, .bf16)]
     bReady s 3 false ∧ floatTag (tagAt s.me.ctx 2) = some .bf16 ∧ floatTag (bTag s 3 false) = some .bf16 ∧ (tagAt s.me.ctx 2).ebits = 16)
    ∧ (let s := ofDie (tagged 4 [(2, .e4m3)]) fun d => { d with cores := [(0, { CoreS.empty with latch := { Latch.released with tag := .e5m2, owner := some 0 } })] }
       bReady s 0 true ∧ floatTag (tagAt s.me.ctx 2) = some .e4m3 ∧ floatTag (bTag s 31 true) = some .e5m2 ∧ (bTag s 31 true).ebits = 8)
    ∧ (let s := tagged 4 [(2, .cbf16), (3, .cbf16)]
       bReady s 0 false ∧ tagAt s.me.ctx 2 = .cbf16 ∧ bTag s 3 false = .cbf16)
    ∧ (let s := sweep64
       (sdOf s 0).space = 1 ∧ (sdOf s 0).tag = 7 ∧ 0 < s.me.ctx.vl
         ∧ (∀ r, rowActive s 0 r → ∀ j < 64, clmWord s (sweepOffset (sdOf s 0) (64 * r + j)))
         ∧ ∀ r r' j j' : Nat, rowActive s 0 r → rowActive s 0 r' → j < 64 → j' < 64 → (r, j) ≠ (r', j') →
            sweepOffset (sdOf s 0) (64 * r + j) ≠ sweepOffset (sdOf s 0) (64 * r' + j'))
    ∧ tagAt (tagged 4 [(2, .f32)]).me.ctx 2 = .f32 := by
  refine ⟨?_, ?_, ?_, ⟨?_, ?_, ?_, ?_, ?_⟩, ?_⟩
  any_goals decide +kernel
  · intro r hr j hj
    have : 16 * sweep64.me.ctx.k * 0 + r < 1 :=
      hr.2.2.1
    obtain rfl : r = 0 := by omega
    revert j
    decide +kernel
  · intro r r' j j' hr hr' hj hj' hne
    have h : 16 * sweep64.me.ctx.k * 0 + r < 1 :=
      hr.2.2.1
    have h' : 16 * sweep64.me.ctx.k * 0 + r' < 1 :=
      hr'.2.2.1
    obtain rfl : r = 0 := by omega
    obtain rfl : r' = 0 := by omega
    exact (show ∀ j < 64, ∀ j' < 64, j ≠ j' → sweepOffset (sdOf sweep64 0) (64 * 0 + j) ≠ sweepOffset (sdOf sweep64 0) (64 * 0 + j') by
      decide +kernel) j hj j' hj' fun e => hne (by rw [e])

/-- Strand 0 with the latch of core 0, and the latch of core 1 in another strand's hands. -/
def latched (full : Bool) : State := ofDie atRoot fun d => { d with cores :=
  [(0, { CoreS.empty with latch := { Latch.released with full := full, owner := some 0 } }), (1, { CoreS.empty with latch := { Latch.released with owner := some 8 } })] }

theorem witness_RingLatches : (3 : Fin 4).val * atRoot.me.ctx.k % 4 = 0 ∧ (atRoot.coreS (atRoot.meId / 8)).latch.owner = none
    ∧ ((latched true).coreS 0).latch.owner = some (latched true).meId
    ∧ ((ofDie atRoot fun d => { d with cores := [(0, { CoreS.empty with latch := { Latch.released with owner := some 3 } })] }).coreS 0).latch.owner = some 3
    ∧ ((latched true).me.run.passSent = false ∧ ((latched true).coreS 1).latch.owner ≠ none ∧ ((latched true).coreS 1).latch.full = false
        ∧ ((latched true).coreS 0).latch.full = true ∧ ((latched false).coreS 0).latch.full = false)
    ∧ (let s := onMe (latched true) fun t => { t with run := { t.run with wait := .ring } }
       (s.strand 0).run.wait = .ring ∧ (s.strand 0).run.passSent = false)
    ∧ (let s := onMe (latched true) fun t => { t with run := { t.run with wait := .ring, passSent := true } }
       (s.strand 0).run.wait = .ring ∧ (s.strand 0).run.passSent = true ∧ (s.coreS 0).latch.full = true) := by decide +kernel

/-- A request of an access through a page of the first GiB. -/
def request (p : LinkPhase) : HostReq := 
  ⟨false, .read, 5, 4, true, 0x4000, 0, 0, 0, false, 0, false, p, ⟨0, 0, 0, 30, 0xBF, 0x42000⟩, 3, false⟩

theorem witness_FencesAndInvalidation : (base 0).me.priv ≠ .user ∧ atRoot.me.priv = .user
    ∧ (let s := onMe (base 0) fun t => { t with run := { t.run with invals := [⟨0, 0, 0, 8, false, 7⟩] } }
       let s := { s with others := [(8, { Strand.empty with run := { Strand.empty.run with hostReq := some (request .sent) } })] }
       (∃ v ∈ s.me.run.invals, outstanding s 4 v) ∧ (∀ v ∈ s.me.run.invals, ¬outstanding s 3 v))
    ∧ swf [] (cached 0xBF).die.xlat.coreTlb = true := by
  refine ⟨?_, ?_, ⟨⟨⟨0, 0, 0, 8, false, 7⟩, List.mem_singleton.mpr rfl, .inr (.inl ⟨_, List.mem_singleton.mpr rfl, ?_⟩)⟩, ?_⟩, ?_⟩
  any_goals decide +kernel
  · exact ⟨.inr (.inr (by decide)), .inr ⟨by decide, request .sent, rfl, by decide +kernel⟩⟩
  · intro v h
    obtain rfl := List.mem_singleton.mp h
    rintro (⟨_, e, he, _⟩ | ⟨e, he, _, ⟨q, hq, _⟩ | ⟨_, q, hq, h⟩⟩ | ⟨p, hp, _⟩)
    · cases he
    · obtain rfl := List.mem_singleton.mp he
      cases hq
    · obtain rfl := List.mem_singleton.mp he
      cases hq
      exact absurd h (by decide +kernel)
    · cases hp

theorem witness_TranslationEvents :
    (∃ bs d, 0x1000 < 0x003FFF0000000000 ∧ (base 0).die.xlat.tables = [] ∧ (base 0).die.reg (xdirAddr ((base 0).strand 0).id.owner) % 2 = 1
      ∧ sget [] (base 0).die.walks 0 = [] ∧ (base 0).die.physRead ((base 0).strand 0).id.owner
        (bits ((base 0).die.reg (xdirAddr ((base 0).strand 0).id.owner)) 47 19 * 2 ^ 19 + 8 * ((base 0).strand 0).xasid.toNat) 8 = .ok (bs, d))
    ∧ (let s := ofDie (base 0) fun d => { d with walks := [(0, [⟨0, 0, 0x1000, 4, 0x40000, []⟩])] }
       sget [] s.die.walks 0 = [⟨0, 0, 0x1000, 4, 0x40000, []⟩]
         ∧ (∃ bs d, s.die.physRead (s.strand 0).id.owner (0x40000 + 8 * (0x1000 / 2 ^ 48 % 64)) 8 = .ok (bs, d))
         ∧ ∃ bs d, s.die.physRead (s.strand 0).id.owner (0x50000 + 8 * (0x1000 / 2 ^ 30 % 512)) 8 = .ok (bs, d))
    ∧ tableEntry 0x41001 ∧ (0 : Nat) % 2 = 0
    ∧ (let s := onMe (base 0) fun t => { t with run := { t.run with wait := .migrating } }
       (s.strand 0).run.wait = .migrating ∧ (s.strand 0).run.since + 100000 ≤ (ofDie s fun d => { d with dtime := 100000 }).die.dtime)
    ∧ ((base 0).die.reg (xdirAddr 0) % 2 = 1 ∧ 0x80000 % 2 = 0 ∧ 0x80000 / 2 ^ 19 = (base 0).die.reg (xdirAddr 0) / 2 ^ 19 % 2 ^ 29 ∧ 0x80000 % 2 ^ 19 < 2
      ∧ (base 0).die.reg (xdirAddr 511) % 2 = 0)
    ∧ (let s := ofDie (base 0) fun d => { d with mmio := sset 0 d.mmio (xhlogAddr 511) 1 }
       s.die.reg (xhlogAddr 511) % 2 = 1)
    ∧ ((base 0).me.id.kind ≠ .free ∧ (base 0).me.run.wait = .ready ∧ ∃ bs t, (base 0).loadVa 0x1000 4 = .ok bs t) := by
  refine ⟨?_, ⟨?_, ok_pair _ ?_, ok_pair _ ?_⟩, ?_, ?_, ?_, ?_, ?_, ?_, ?_, ?_⟩
  any_goals decide +kernel
  · obtain ⟨bs, d, h⟩ := ok_pair _ (show ((base 0).die.physRead ((base 0).strand 0).id.owner
      (bits ((base 0).die.reg (xdirAddr ((base 0).strand 0).id.owner)) 47 19 * 2 ^ 19 + 8 * ((base 0).strand 0).xasid.toNat) 8).isOk = true by decide +kernel)
    refine ⟨bs, d, ?_, ?_, ?_, ?_, h⟩ <;> decide +kernel
  · have all (x : LoadRes) (h : (match x with | .ok _ _ => true | _ => false) = true) : ∃ bs t, x = .ok bs t := by
      cases x
      case ok => exact ⟨_, _, rfl⟩
      all_goals cases h
    exact all _ (by decide +kernel)

/-- A message to a handler of core 1, and cores whose landing queues hold as many. -/
def note : Msg := ⟨0x101, 0, 0, 0, false, 0, 1, 0, false, 0x4000, [1, 2, 3, 4, 5, 6], 0x10005, false⟩
/-- A core that holds so many handler messages. -/
def holding (n : Nat) : CoreS := { CoreS.empty with handlers := List.replicate n note }
/-- A continuation for s1 to s6 of a strand. -/
def cont : Msg := { note with cont := true, target := 0x10000 }

theorem witness_MessagesAndParking :
    (let x := 2 ^ 14
     2 ^ 14 ≤ x ∧ ¬2 ^ 14 ≤ x - 1 ∧ (x - 1) / 2 ^ 9 % 2 = 1)
    ∧ (let bad (x : Nat) : Prop := 2 ^ 14 ≤ x ∨ x / 2 ^ 9 % 2 = 1 ∨ x / 2 ^ 10 % 4 = 2 ∨ x / 2 ^ 12 % 4 = 2 ∨ x / 2 ^ 12 % 4 < x / 2 ^ 10 % 4
       ¬bad 1 ∧ ¬bad 0x101 ∧ bad 0x800 ∧ bad 0x400)
    ∧ (2 ^ 54 ≤ (0x40000000000000 : Nat) ∧ 0x3FFFFFFFFFFFFD % 4 ≠ 0 ∧ 0x3FFFFFFFFFFFFC % 4 = 0)
    ∧ atRoot.die.admits (0x300 + 1) atRoot.me.id.owner true = false ∧ (base 0).die.admits (0x300 + 1) (base 0).me.id.owner true = true
    ∧ handlersHeld (holding 15) < 16 ∧ 16 ≤ handlersHeld (holding 16)
    ∧ (withReg (base 0) 0x20000C010000 2).die.reg 0x20000C010000 / 2 % 2 = 1 ∧ (base 0).die.reg 0x20000C010000 / 2 % 2 = 0
    ∧ (let x := 26 * 2 ^ 16 + 1
       x < 2 ^ 32 ∧ 1 ≤ x / 2 ^ 16 % 32 ∧ x / 2 ^ 16 % 32 ≤ 26 ∧ ((base 0).strand 0).id.kind ≠ .free ∧ ((base 0).strand 0).id.home = 0
         ∧ ((base 0).strand 0).id.gen = x % 2 ^ 16 ∧ ((base 0).strand 0).id.owner = (base 0).me.id.owner ∧ ((base 0).strand 0).run.wait ≠ .restoring
         ∧ ((coreOf (base 0) 0).conts.countP fun e => e.1 == 0) < 6)
    ∧ (6 ≤ ((List.replicate 6 (0, cont)).countP fun e => e.1 == 0)) ∧ ((base 0).strand 8).id.kind = .free ∧ (coreOf (base 0) 1).absent = []
    ∧ ((base 0).me.run.ring = [] ∧ ((coreOf (base 0) (base 0).core).conts.all fun e => e.1 != (base 0).meId) = true)
    ∧ (let s := onCore (base 0) 0 { coreOf (base 0) 0 with conts := [(0, cont)] }
       (s.strand 0).run.ring = [] ∧ (coreOf s 0).conts = [(0, cont)] ∧ 1 ≤ cont.target / 2 ^ 16 % 32 ∧ cont.target / 2 ^ 16 % 32 ≤ 26
         ∧ cont.payload.length = 6 ∧ ((onMe s fun t => { t with run := { t.run with wait := .park } }).strand 0).run.wait = .park)
    ∧ (let s := onCore (base 0) 1 { coreOf (base 0) 1 with offers := [note] }
       note.cont = false ∧ (coreOf s 1).offers = [note] ∧ handlersHeld (coreOf s 1) < 16)
    ∧ (coreOf (base 0) 1).offers = []
    ∧ (onMe (base 0) fun t => { t with run := { t.run with wait := .send } }).me.run.wait = .send := by decide +kernel

theorem witness_HandlerStart :
    (let s := onCore (base 0) 1 { CoreS.empty with handlers := [note] }
     (coreOf s 1).lat = List.replicate 4 ⟨none, none⟩ ∧ (coreOf s 1).reservations = [] ∧ (coreOf s 1).absent = [] ∧ (coreOf s 1).handlers = [note]
       ∧ note.noJob = false ∧ note.lmin ≤ note.lpref ∧ note.lpref ∈ [0, 1, 3] ∧ note.payload.length = 6 ∧ note.orig ≠ 2 ∧ (s.strand 8).id.kind = .free)
    ∧ (let m := { note with orig := 2 }
       let s := onCore atRoot 1 { CoreS.empty with handlers := [m] }
       m.orig = 2 ∧ (coreOf s 1).handlers = [m] ∧ (s.strand 8).id.kind = .free ∧ s.die.job m.job = some rootJob)
    ∧ (let r (m : Msg) : Reservation := ⟨9, 0x10005, some m, 1, 0, 20⟩
       let j := { rootJob with state := .dispatching }
       let s (m : Msg) := ofDie (onCore atRoot 1 { CoreS.empty with lat := ⟨some 8, some 9⟩ :: List.replicate 3 ⟨none, none⟩, reservations := [r m] })
        fun d => { d with dtime := 20000, jobs := [(5, j)] }
       (∀ m ∈ [note, { note with orig := 2 }], (coreOf (s m) 1).reservations = [r m] ∧ (r m).msg = some m ∧ (r m).since + 1000 * (r m).window ≤ (s m).die.dtime
         ∧ (coreOf (s m) 1).lat[0]? = some ⟨some 8, some 9⟩ ∧ (r m).groups.getLsbD 0 = true ∧ 8 ≠ (r m).strand)
         ∧ (s note).die.job (r note).job = some j ∧ j.state = .dispatching ∧ j.bare = false ∧ j.slots = []) := by decide +kernel

/-- A root strand of VF 1, under owner 0 here, with a descriptor in memory at 0x1000; the class table of the VF at 0x2000, which it may read, defines
class 0. -/
def spawning (d : Nat) : State := onMe (ofDie (cached 0xBF) fun x => { x with
    jobs := [(5, { rootJob with owner := 0 })]
    mmio := [(jsrvAddr 1 + 24, 0x2000), (0x200006000000 + 128 * 2 + 64, 4), (0x200006000000 + 128 * 0x400 + 64, 4), (0x200006110008, 3)].foldl
      (fun m e => sset 0 m e.1 (BitVec.ofNat 64 e.2)) x.mmio
    mem := { x.mem with bytes := ssetAll 0 (ssetAll 0 x.mem.bytes 0x1000 (leBytes 64 d)) 0x2000 (leBytes 8 0x5000), keys := [(0x200, 0x102)] } })
  fun t => { t with id := { rootStrand.id with owner := 0 }, regs := t.regs.set 2 0x1000 }

/-- A descriptor that SPAWN accepts: a deadline far off. -/
def goodDesc : Nat := 2 ^ 126 + 2 ^ 236

/-- SPAWN reads its descriptor, in a job of VF 1. -/
def spawnReads (s : State) (p : State → Nat → Bool) : Bool :=
  goesTo s 0x1000 64 .read fun pa u => match u.loadLinked 0x1000 pa 64 with
    | .ok bs v => (v.die.job v.me.id.job.toNat).isSome && decide (v.me.id.kind = s.me.id.kind) && p v (leVal bs)
    | _ => false

theorem spawn_reads (s : State) (p : State → Nat → Bool) (h : spawnReads s p = true) : ∃ pa mt u bs v j,
    s.resolveScalar 0x1000 64 .read = .inl (.ok (pa, mt, u)) ∧ u.loadLinked 0x1000 pa 64 = .ok bs v ∧ v.die.job v.me.id.job.toNat = some j
      ∧ v.me.id.kind = s.me.id.kind ∧ p v (leVal bs) = true := by
  obtain ⟨pa, mt, u, e, h⟩ := goes_of _ _ _ _ _ h
  split at h
  · rename_i bs v e'
    rw [Bool.and_eq_true, Bool.and_eq_true, decide_eq_true_eq] at h
    obtain ⟨j, hj⟩ := Option.isSome_iff_exists.mp h.1.1
    exact ⟨pa, mt, u, bs, v, j, e, e', hj, h.1.2, h.2⟩
  · cases h

theorem witness_JobInstructions :
    ((base 0).me.id.kind = .column ∧ atRoot.me.id.kind = .root)
    ∧ ((spawning goodDesc).me.id.kind = .root ∧ ((spawning goodDesc).reg 2).toNat = 0x1000
        ∧ spawnReads (spawning goodDesc) (fun v x => decide (v.die.reg 0x200006110008 % 16 ≠ 0 ∧ v.die.enterFault 1 x = none ∧ x / 2 ^ 192 % 2 ^ 32 = 0
          ∧ v.die.dtime < x / 2 ^ 64 % 2 ^ 64 ∧ v.die.freeEntry = some 0 ∧ (sget Job.unused v.die.jobs 0).gen < 65535)) = true
        ∧ spawnReads (spawning (goodDesc + 2 ^ 252)) (fun v x => decide (v.die.reg 0x200006110008 % 16 ≠ 0 ∧ x / 2 ^ 252 % 16 ≠ 0)) = true
        ∧ spawnReads (ofDie (spawning goodDesc) fun d => { d with mmio := sset 0 d.mmio 0x200006110008 0 })
          (fun v _ => decide (v.die.reg 0x200006110008 % 16 = 0)) = true)
    ∧ (atRoot.die.job atRoot.me.id.job.toNat = some rootJob ∧ atRoot.me.id.kind ≠ .column ∧ rootJob.count = 0)
    ∧ (let s := ofDie atRoot fun d => { d with jobs := [(5, { rootJob with count := 3 })] }
       s.die.job s.me.id.job.toNat = some { rootJob with count := 3 })
    ∧ (2 ^ 32 ≤ ((withRegs atRoot [(2, 0x100000000)]).reg 2).toNat ∧ ((withRegs atRoot [(2, 0x10005)]).reg 2).toNat < 2 ^ 32
        ∧ (withRegs atRoot [(2, 0x10005)]).die.job 0x10005 = some rootJob)
    ∧ (let s := ofDie atRoot fun d => { d with jobs := [(5, rootJob), (6, { rootJob with vf := 2 })] }
       s.die.job 0x10006 = some { rootJob with vf := 2 } ∧ rootJob.vf ≠ 2)
    ∧ ((onMe atRoot fun t => { t with id := { t.id with kind := .exiting } }).me.id.kind = .exiting)
    ∧ ((onMe atRoot fun t => { t with id := { t.id with kind := .aux } }).me.id.kind = .aux)
    ∧ ((atRoot.die.job atRoot.me.id.job.toNat).all fun j => j.preempt == 0) = true
    ∧ (let s := ofDie atRoot fun d => { d with jobs := [(5, { rootJob with preempt := 1 })] }
       s.die.job s.me.id.job.toNat = some { rootJob with preempt := 1 } ∧ s.me.id.kind ≠ .column) := by decide +kernel

theorem witness_JobEvents :
    let with_ (j : Job) (t : Nat) : State := ofDie atRoot fun d => { d with jobs := [(5, j)], dtime := t }
    let p := { rootJob with state := .pending, root := none }
    ((with_ p 0).die.job 0x10005 = some p ∧ p.state = .pending ∧ p.release ≤ (with_ p 0).die.dtime ∧ p.count = 0)
    ∧ ({ p with desc := 2 ^ 126 + 2 ^ 128 }.release = 1 ∧ { p with count := 1 }.count ≠ 0 ∧ { p with count := 1 }.earlyOk = false)
    ∧ (rootJob.state ≠ .ended ∧ rootJob.gen ≠ 0 ∧ rootJob.parent % 65536 ≠ 0x10005 % 65536)
    ∧ (let c := { rootJob with desc := 2 ^ 126 + 0x10005 * 2 ^ 192 }
       let s := ofDie atRoot fun d => { d with jobs := [(5, rootJob), (6, c)] }
       s.die.job 0x10006 = some c ∧ c.parent % 65536 ≠ 0x10006 % 65536 ∧ s.die.job c.parent = some rootJob)
    ∧ (with_ p 0).die.dtime < p.deadline
    ∧ (p.deadline ≤ (with_ p (2 ^ 62)).die.dtime ∧ p.pend = 0 ∧ (with_ p (2 ^ 62)).die.mig.state = 0
        ∧ ∀ e ∈ (with_ p (2 ^ 62)).die.jobs, e.2.parent ≠ 0x10005)
    ∧ (rootJob.root = some 0 ∧ ((with_ rootJob (2 ^ 62)).strand 0).ctx.fork.n = 0 ∧ (with_ rootJob (2 ^ 62)).strandsOf 0x10005 = [0])
    ∧ (let s := onMe (with_ { rootJob with pend := 2 } 0) fun t => { t with run := { t.run with wait := .exit } }
       s.die.job 0x10005 = some { rootJob with pend := 2 } ∧ (s.strand 0).run.wait = .exit ∧ (s.strand 0).run.hostReq = none)
    ∧ (let j := { rootJob with state := .exiting, pend := 2, budget := 10 }
       (with_ j 9).die.job 0x10005 = some j ∧ (with_ j 9).die.dtime < j.exitAt + j.budget ∧ j.exitAt + j.budget ≤ (with_ j 10).die.dtime) := by
  decide +kernel

/-- A job of VF 1 in partition 1, ready to run on cluster 1, with the partition's clusters. -/
def readyJob : Job := { rootJob with state := .ready, root := none }
/-- The die that is to place it: no strand of it runs. -/
def placing (j : Job) (t : Nat) : State := ofDie (base 0) fun d => { d with
  jobs := [(5, j)], dtime := t, mmio := [(0x200006100040, 2), (0x200006110008, 1)].foldl (fun m e => sset 0 m e.1 (BitVec.ofNat 64 e.2)) d.mmio }

/-- Server 1 with T = 10, Q = 3, EN, HARD where asked, DL 50 and BG. -/
def server (hard : Bool) (bg : Int) (t : Nat) : State := ofDie (base 0) fun d => { d with
  dtime := t, mmio := [(jsrvAddr 1, 10 * 2 ^ 32 + 3 * 2 ^ 16 + 1 + (if hard then 2 else 0)), (jsrvAddr 1 + 8, 50), (jsrvAddr 1 + 16, (bg % 2 ^ 64).toNat)].foldl
    (fun m e => sset 0 m e.1 (BitVec.ofNat 64 e.2)) d.mmio }

theorem witness_TimetableServersAndPlacement :
    (let s := placing readyJob (2 ^ 62 - 1)
     s.die.jobs = [(5, readyJob)] ∧ readyJob.gen ≠ 0 ∧ readyJob.state ∈ [.ready, .saved, .checkpointed] ∧ readyJob.bank < 16
       ∧ s.die.dtime + 1000 * (s.die.reg (0x200004002000 + 16 * (s.die.reg (0x200006110000 + 8 * readyJob.vf) % 16)) % 65536) > readyJob.deadline)
    ∧ (base 0).nextPart = none
    ∧ ((placing { readyJob with urgent := true } 0).nextPart = some 1 ∧ ((placing { readyJob with urgent := true } 0).pop 1).1 = some (5, { readyJob with urgent := true })
        ∧ (5, { readyJob with urgent := true }) ∈ (placing { readyJob with urgent := true } 0).candidates 1
        ∧ (placing { readyJob with urgent := true } 0).bestCore 1 { readyJob with urgent := true } = some 4 ∧ readyJob.slots = []
        ∧ (placing { readyJob with urgent := true } 0).die.job (handleOf (5, { readyJob with urgent := true })) = some { readyJob with urgent := true }
        ∧ (coreOf (placing { readyJob with urgent := true } 0) 4).offers = [] ∧ handlersHeld (coreOf (placing { readyJob with urgent := true } 0) 4) < 16)
    ∧ (let m := { note with orig := 2 }
       let j := { readyJob with state := .dispatching, placed := some (4, 0) }
       let s := onCore (placing j 0) 4 { CoreS.empty with offers := [m] }
       s.die.job 0x10005 = some j ∧ j.state = .dispatching ∧ j.bare = false ∧ j.slots = [] ∧ j.pin = false ∧ m ∈ (coreOf s 4).offers ∧ m.cont = false
         ∧ m.job = 0x10005)
    ∧ ((base 0).die.srvEn 1 = false ∧ 0 < (server false 1 0).die.srvBg 1)
    ∧ ((server true 0 49).die.srvEn 1 = true ∧ (server true 0 49).die.srvBg 1 ≤ 0 ∧ (server true 0 49).die.srvHard 1 = true
        ∧ (server true 0 49).die.dtime < (server true 0 49).die.srvDl 1 ∧ ∀ e ∈ (server true 0 49).die.jobs, e.2.vf = 1 → e.2.state ≠ .running)
    ∧ ((server true (-7000) 50).die.srvBg 1 ≤ 0 ∧ 0 < (server true (-7000) 50).die.srvQ 1 ∧ (server true (-7000) 50).die.srvDl 1 ≤ (server true (-7000) 50).die.dtime
        ∧ (server false (-7000) 0).die.srvHard 1 = false)
    ∧ ((1 : Nat) % 2 = 1 ∧ 1 / 2 ^ 16 % 65536 = 0 ∧ 0x10001 / 2 ^ 16 % 65536 ≠ 0)
    ∧ (let s := ofDie atRoot fun d => { d with jobs := [(5, { rootJob with preempt := 1 })] }
       s.die.job (s.strand 0).id.job.toNat = some { rootJob with preempt := 1 } ∧ (s.strand 0).id.kind = .root ∧ (s.strand 0).run.wait = .ready) := by
  decide +kernel

/-- Core 0 with a lane table. -/
def lanes (l : List LatEntry) : State := onCore atRoot 0 { CoreS.empty with lat := l }
/-- A strand stopped to be saved. -/
def saving : State := onMe (ofDie atRoot fun d => { d with
    jobs := [(5, { rootJob with preempt := 1 })]
    mmio := [(0x200006110008, 1), (0x200004002010, 2 ^ 32)].foldl (fun m e => sset 0 m e.1 (BitVec.ofNat 64 e.2)) d.mmio })
  fun t => { t with run := { t.run with wait := .saving } }

theorem witness_LanesSavesAndResumes :
    (∀ e ∈ (coreOf (base 0) 0).lat, ¬((e.own = some 0 ∧ e.pend ≠ none) ∨ (e.own = none ∧ e.pend = some 0)))
    ∧ (let s := lanes [⟨some 0, none⟩, ⟨some 0, none⟩, ⟨some 0, some 3⟩, ⟨some 0, some 3⟩]
       (s.strand 0).ctx.gm ≠ 0 ∧ (s.strand 0).ctx.vstart = 0 ∧ (s.strand 0).ctx.fork.n = 0
         ∧ (∃ e ∈ (coreOf s 0).lat, (e.own = some 0 ∧ e.pend ≠ none) ∨ (e.own = none ∧ e.pend = some 0)) ∧ (coreOf s 0).lat.length = 4)
    ∧ (let s := lanes [⟨some 0, none⟩, ⟨none, none⟩, ⟨none, none⟩, ⟨none, none⟩]
       (coreOf s 0).reservations = [] ∧ (coreOf s 0).lat = [⟨some 0, none⟩, ⟨none, none⟩, ⟨none, none⟩, ⟨none, none⟩] ∧ 1 < (s.strand 0).id.prefG)
    ∧ (∃ e ∈ (coreOf (lanes [⟨some 0, some 3⟩, ⟨none, none⟩, ⟨none, none⟩, ⟨none, none⟩]) 0).lat, e.pend ≠ none)
    ∧ (∃ n ns, (saving.strand 0).run.wait = .saving ∧ saving.die.job (saving.strand 0).id.job.toNat = some { rootJob with preempt := 1 }
        ∧ saving.die.freeSlots (saving.die.vfPart 1) = n :: ns ∧ saving.strandsOf 0x10005 = [0] ∧ (saving.strand 0).id.home = 0)
    ∧ (let v : Saved := 
         ⟨0, 0, 1, .root, 1, 4, 0, 0, [], Barrier.free, [], [], Rep.empty, 0, .user, 0, false, [], false, [], [], [], []⟩
       let j := { rootJob with owner := 0, state := .dispatching, root := none, slots := [v], placed := some (0, 0), begun := true }
       let s := ofDie (base 0) fun d => { d with jobs := [(5, j)], cores := [(0, CoreS.empty)], mem := { d.mem with bytes := sset 0 d.mem.bytes 0xD 4 } }
       let s := { s with me := Strand.empty }
       s.die.job 0x10005 = some j ∧ j.placed.map (·.1) = some 0 ∧ s.freeStrands 0 = [0, 1, 2, 3, 4, 5, 6, 7] ∧ s.savedFork j v = 0 ∧ v.dom = []
         ∧ (coreOf s 0).takeBlocks (s.resumeSizes j) = some [15]
         ∧ ∀ d < 16, (onCore s 0 ((coreOf s 0).give 0 15)).die.areaGet j.owner (s.die.slotArea (s.die.vfPart j.vf) v.slot) (0x288 + 8 * d) 8 = 0)
    ∧ (let s := onMe atRoot fun t => { t with run := { t.run with wait := .restoring } }
       (s.strand 0).run.wait = .restoring ∧ s.die.job 0x10005 = some rootJob ∧ s.strandsOf 0x10005 = [0]) := by
  refine ⟨?_, ?_, ?_, ?_, ⟨0, [], ?_⟩, ?_, ?_⟩ <;> decide +kernel

/-- A strand with a domain slot and a counter. -/
def member (v : Nat) (b : Barrier) : State := ofDie (onMe atRoot fun t => { t with dom := [(3, v)] }) fun d => { d with barriers := [(counterKey 0 v, b)] }

theorem witness_Barriers :
    (sget 0 atRoot.me.dom 15 % 2 = 0 ∧ barOf .bar15 = some 15)
    ∧ (let s := member 0x10000000040000201 Barrier.free
       sget 0 s.me.dom 3 % 2 = 1 ∧ 2 ^ 64 ≤ sget 0 s.me.dom 3)
    ∧ (let s := member 0x40000201 ⟨0x102, 2, 2, 1, 0⟩
       sget 0 s.me.dom 3 / 2 % 2 = 0 ∧ sget 0 s.me.dom 3 < 2 ^ 64 ∧ s.die.posted = []
         ∧ (sget Barrier.free s.die.barriers (counterKey s.meId (sget 0 s.me.dom 3))).arrivals + 1
          = (sget Barrier.free s.die.barriers (counterKey s.meId (sget 0 s.me.dom 3))).count
         ∧ (sget Barrier.free s.die.barriers (counterKey s.meId (sget 0 s.me.dom 3))).phase = (s.reg 0).toNat % 2 ^ 32 ∧ sget 0 s.me.run.barPhase 3 = 0)
    ∧ (let s := member 0x40000203 ⟨0x102, 2, 2, 1, 7⟩
       sget 0 s.me.dom 3 / 2 % 2 = 1 ∧ (sget Barrier.free s.die.barriers (counterKey s.meId (sget 0 s.me.dom 3))).phase ≠ (s.reg 0).toNat % 2 ^ 32
         ∧ (let t := onMe s fun t => { t with run := { t.run with barPhase := [(3, 8)] } }
            sget 0 t.me.run.barPhase 3 = 7 + 1)
         ∧ (let t := onMe s fun t => { t with run := { t.run with barPhase := [(3, 7)] } }
            sget 0 t.me.run.barPhase 3 = 6 + 1 ∧ (6 : Nat) ≠ 7))
    ∧ ((∃ b, b = sget Barrier.free atRoot.die.barriers (counterKey 0 0xC3010001) ∧ b.owner = 0 ∧ ([1, 4, 16, 64].getD 3 0 ≤ 64 ∧ 63 < [1, 4, 16, 64].getD 3 0)
        ∧ 256 ≤ [1, 8, 32, 256].getD 3 0 ∧ [1, 8, 32, 256].getD 3 0 < 257))
    ∧ (let s := member 0x40000201 ⟨0x102, 2, 2, 0, 0⟩
       sget 0 (s.strand 0).dom 3 % 2 = 1 ∧ (sget Barrier.free s.die.barriers (counterKey 0 (sget 0 (s.strand 0).dom 3))).owner ≠ 0)
    ∧ (sget Barrier.free atRoot.die.barriers 0).owner = 0 := by
  refine ⟨?_, ?_, ?_, ?_, ⟨_, rfl, ?_⟩, ?_, ?_⟩ <;> decide +kernel

/-- Registers written. -/
def setRegs (s : State) (l : List (Nat × Nat)) : State := l.foldl (fun s e => withReg s e.1 e.2) s

/-- Ring 0 of cluster 0: enabled, with cursor 0, LOG2S 16 and an owner, at offset 0, its cursor and WPOS at these positions. -/
def ringed (own pos w : Nat) : State :=
  setRegs held [(brctlAddr 0 0, own * 2 ^ 17 + 16 * 2 ^ 12 + 256 + 1), (brctlAddr 0 0 + 0x40, pos), (brctlAddr 0 0 + 0x10, w)]

/-- The same with a header at the cursor, in a ring whose every block owner 0 holds. -/
def record (h : Nat) (pos w : Nat) : State := ofDie (ringed 0 pos w) fun d => { d with mem := { d.mem with
  bytes := ssetAll 0 d.mem.bytes (0x110000000000 + pos % 2 ^ 16) (leBytes 16 h), otags := [(0x110000000, 1), (0x11000000F, 1)] } }

/-- The owner, the enables and the cursor of ring 0 are the strand's. -/
def usable (s : State) : Prop := s.die.reg (brctlAddr 0 0) / 2 ^ 17 % 512 = s.me.id.owner ∧ s.die.reg (brctlAddr 0 0) / 2 ^ 8 % 2 = 1
  ∧ (s.die.reg (brctlAddr 0 0)).testBit 0 = true

/-- A rule of port 0 for every section to ring 2 of cluster 1. -/
def ruled (flags : Nat) : State :=
  setRegs (base 0) [(0x200005000000, 2 ^ 58 + 2 * 2 ^ 54 + 16 * 2 ^ 49 + (15 * 2 ^ 88 + 1023 * 2 ^ 68) % 2 ^ 64),
    (0x200005000008, (15 * 2 ^ 88 + 1023 * 2 ^ 68) / 2 ^ 64 + 1 + 2 * 4 + flags)]

theorem witness_BerthRings :
    (256 ≤ (256 : Nat) ∧ 8 / 8 % 2 = 1 ∧ 247 < 256 ∧ 247 / 8 % 2 = 0)
    ∧ (ringed 0x101 0 0).die.reg (brctlAddr 0 0) / 2 ^ 17 % 512 ≠ (base 0).me.id.owner
    ∧ (held.die.reg (brctlAddr 0 0) / 2 ^ 17 % 512 = held.me.id.owner ∧ ¬(held.die.reg (brctlAddr 0 0) / 2 ^ 8 % 2 = 1))
    ∧ ((usable (ringed 0 64 64) ∧ (ringed 0 64 64).die.reg (brctlAddr 0 0 + 0x40) = (ringed 0 64 64).die.reg (brctlAddr 0 0 + 0x10))
        ∧ usable (record (5 * 2 ^ 32) 0 128) ∧ (record (5 * 2 ^ 32) 0 128).die.reg (brctlAddr 0 0 + 0x40) ≠ (record (5 * 2 ^ 32) 0 128).die.reg (brctlAddr 0 0 + 0x10))
    ∧ (∃ bs die, (record (5 * 2 ^ 32) 0 128).die.physRead 0 (0x110000000000 + 0) 16 = .ok (bs, die))
    ∧ (∃ bs die, (record (2 ^ 112) 65472 65536).die.physRead 0 (0x110000000000 + 65472) 16 = .ok (bs, die))
    ∧ (bits (leVal (leBytes 16 (5 * 2 ^ 32))) 112 112 = 0 ∧ bits (leVal (leBytes 16 (2 ^ 112))) 112 112 = 1 ∧ (65472 + 64 + 0) % 2 ^ 48 = 65536)
    ∧ (∃ e, (ofDie (record 0 0 128) fun d => { d with mem := { d.mem with errs := [(0x110000000000 / 8, true)] } }).die.physRead 0 0x110000000000 16 = .error e)
    ∧ (let s := ringed 0 0 0
       (base 0).die.reg (brctlAddr 0 0) / 2 ^ 8 % 2 = 0 ∧ s.die.reg (brctlAddr 0 0) / 2 ^ 8 % 2 = 1 ∧ s.die.reg (brctlAddr 0 0) % 256 ≠ 0
         ∧ 64 + 64 * ((100 + 63) / 64) ≤ s.die.brFree 0 0 ∧ s.die.admits 0x100 (s.die.reg (brctlAddr 0 0) / 2 ^ 17 % 512) true = true
         ∧ s.die.reg (brctlAddr 0 0 + 0x10) % 2 ^ 16 + 192 ≤ 2 ^ 16)
    ∧ (let v := 0x110100
       v / 2 ^ 8 % 2 = 1 ∧ 16 ≤ v / 2 ^ 12 % 32 ∧ v / 2 ^ 12 % 32 ≤ 20 ∧ (base 0).die.reg (brctlAddr 63 15 + 8) % 2 ^ 17 = 0)
    ∧ (let s := ringed 0 0 0
       (s.die.reg (brctlAddr 0 0)).testBit 7 = false ∧ s.die.reg (brctlAddr 0 0) < 2 ^ 26 ∧ s.die.reg (brctlAddr 0 0) / 2 ^ 9 % 8 = 0)
    ∧ (let rule (s : State) (c : Bool) := ((List.range 64).map (portRule s.die 0)).find? fun x => ruleTakes x c 0x1234 13 1023
       rule (base 0) false = none ∧ rule (base 0) true = none ∧ (rule (ruled 0) false).isSome = true ∧ (rule (ruled 0) true).isSome = true
         ∧ (rule (ruled 2) false).any (fun x => x / 2 ^ 65 % 2 == 1) = true
         ∧ (rule (ruled 0) false).any (fun x => x / 2 ^ 65 % 2 == 0 && x / 2 ^ 48 % 2 == 0 && x / 2 ^ 49 % 32 == 16) = true)
    ∧ ((base 0).die.reg 0x20000C010000 % 2 = 0 ∧ (withReg (base 0) 0x20000C010000 1).die.reg 0x20000C010000 % 2 = 1 ∧ (base 0).die.reg fhtstat % 4 < 2
        ∧ (withReg (base 0) fhtstat 2).die.reg fhtstat % 4 = 2) := by
  refine ⟨?_, ?_, ?_, by unfold usable; decide +kernel, ok_pair _ ?_, ok_pair _ ?_, ?_, error_of _ ?_, ?_, ?_, ?_, ?_, ?_⟩ <;> decide +kernel

/-- A command of owner 0 in slot `part` of an engine. -/
def command (e : Nat) (ws : List Nat) : Cmd := ⟨e, 0, 0, 0, 0, 0, 0, 0, 1, true, ws, 0, none, [], 0, 0, 0, []⟩
/-- A die with one command. -/
def queued (c : Cmd) : State := ofDie (base 0) fun d => { d with cmds := [c] }

theorem pending_of (c : Cmd) (e op : Nat) (h : c.engine = e ∧ c.done = none ∧ dw c.words 1 % 256 = op) : pending (queued c).die e op c :=
  ⟨[], [], rfl, h.1, h.2.1, h.2.2, by simp⟩

theorem operand_of (x : Operand) (h : (match x with | .ok _ _ => true | _ => false) = true) : ∃ bs d, x = .ok bs d := by
  cases x
  case ok => exact ⟨_, _, rfl⟩
  all_goals cases h

/-- A coding command, Z = 2, K = 44 of base graph 1, 64 bits of rate-matched output, from 0x1000 to 0x2000; polar K = 40, E = 64. -/
def coding (e op k : Nat) : Cmd := command e [0, k * 2 ^ 32 + op, 0x1000, 0x2000, 0, 64, 0, 0]

theorem reads_operand (c : Cmd) (n : Nat) (h : (match Die.operand c n (dw c.words 2) n (queued c).die with | .ok _ _ => true | _ => false) = true) :
    ∃ bs d, readsOperand (queued c).die c 2 n bs d := operand_of _ h

theorem probes_operands (c : Cmd) (n m : Nat)
    (h : (let p := [(2, n, Acc.read), (3, m, Acc.write)].foldl (fun p o => Probe.operand c o.2.2 o.2.1 (dw c.words o.1) o.2.1 p) ⟨none, false, (queued c).die⟩
      p.fail == none && !p.wait) = true) : ∃ d', probesOperands (queued c).die c [(2, n, .read), (3, m, .write)] d' := by
  have all (p : Probe) (h : (p.fail == none && !p.wait) = true) : p = ⟨none, false, p.die⟩ := by
    obtain ⟨f, w, d⟩ := p
    simp_all
  exact ⟨_, all _ h⟩

theorem witness_EngineCommands :
    (512 ≤ (512 : Nat) ∧ 4 < 0xA0 / 32 % 8 ∧ (0x101 / 256 % 2 = 1 ∧ 0x101 % 32 ≠ 0) ∧ (0x64 / 256 % 2 = 0 ∧ 0x64 / 32 % 8 < 4 ∧ [16, 16, 8, 4].getD (0x64 / 32 % 8) 0 ≤ 0x64 % 32))
    ∧ (atRoot.die.selectOk 0 = true ∧ atRoot.die.admitted 0 atRoot.me.id.owner = [] ∧ (base 0).die.admitted 0 (base 0).me.id.owner ≠ [])
    ∧ (let ws := [2 ^ 21 * 0 + 1 * 2 ^ 16 + 1, 0, 0x1000, 0x2000, 16, 0, 0, 0]
       (base 0).malformedOffset 0 ws (base 0).cmdPart = none ∧ (base 0).die.accepting 0 0 (base 0).cmdPart = some 0
         ∧ (base 0).malformedOffset 0 (ws.set 1 7) (base 0).cmdPart = some 8
         ∧ (ofDie (base 0) fun d => { d with cmds := List.replicate 32 (command 0 ws) }).die.accepting 0 0 0 = none)
    ∧ (let s := onMe (base 0) fun t => { t with run := { t.run with wait := .enq } }
       s.me.run.wait = .enq ∧ 0 < s.die.freeSlotsOn 0 (159 / 32) (128 % 32))
    ∧ (ferryEvent 0 6 (.ferryUpdate 0) ∧ pending (queued (command 0 [0, 0, 0x1000, 0x2000, 16, 0, 0, 0])).die 0 0 (command 0 [0, 0, 0x1000, 0x2000, 16, 0, 0, 0])
        ∧ ((ferryPieceOf (command 0 [0, 0, 0x1000, 0x2000, 16, 0, 0, 0]) 0 (queued (command 0 [0, 0, 0x1000, 0x2000, 16, 0, 0, 0])).die).any fun r => r.1 == 16) = true
        ∧ (command 0 [0, 0, 0x1000, 0x2000, 16, 0, 0, 0]).runLen * (command 0 [0, 0, 0x1000, 0x2000, 16, 0, 0, 0]).runs = 16
        ∧ (command 0 [0, 0, 0x1000, 0x2000, 0, 0, 0, 0]).runLen * (command 0 [0, 0, 0x1000, 0x2000, 0, 0, 0, 0]).runs = 0)
    ∧ (let c := { command 0 [0, 5, 0x1000, 0x2000, 0, 0, 0, 0] with owner := 0x101 }
       c.prog < c.runLen ∧ (queued c).die.admits (tableOf (dw c.words 2 + c.prog) .lpddr) c.owner false = false)
    ∧ (pending (queued (coding 64 0 2)).die 64 0 (coding 64 0 2) ∧ (∃ bs d, readsOperand (queued (coding 64 0 2)).die (coding 64 0 2) 2 6 bs d)
        ∧ ∃ d, probesOperands (queued (coding 64 0 2)).die (coding 64 0 2) [(2, 6, .read), (3, 8, .write)] d)
    ∧ (pending (queued (coding 32 0 2)).die 32 0 (coding 32 0 2) ∧ bits (dw (coding 32 0 2).words 1) 10 9 = 0
        ∧ (∃ bs d, readsOperand (queued (coding 32 0 2)).die (coding 32 0 2) 2 64 bs d) ∧ ∃ d, probesOperands (queued (coding 32 0 2)).die (coding 32 0 2) [(2, 64, .read), (3, 6, .write)] d)
    ∧ (pending (queued (coding 96 0 40)).die 96 0 (coding 96 0 40) ∧ (∃ bs d, readsOperand (queued (coding 96 0 40)).die (coding 96 0 40) 2 5 bs d)
        ∧ ∃ d, probesOperands (queued (coding 96 0 40)).die (coding 96 0 40) [(2, 5, .read), (3, 8, .write)] d)
    ∧ (pending (queued (coding 96 1 40)).die 96 1 (coding 96 1 40) ∧ (∃ bs d, readsOperand (queued (coding 96 1 40)).die (coding 96 1 40) 2 64 bs d)
        ∧ ∃ d, probesOperands (queued (coding 96 1 40)).die (coding 96 1 40) [(2, 64, .read), (3, 5, .write)] d)
    ∧ (let c := command 128 [0, 2, 0x1000, 500, 20, 0, 0, 0]
       pending (queued c).die 128 2 c ∧ c.frame = [] ∧ windowEnd c = 1500 ∧ (∃ bs d, readsOperand (queued c).die c 2 20 bs d)
         ∧ windowEnd c < (ofDie (queued c) fun d => { d with dtime := 1501 }).die.dtime ∧ dw c.words 3 ≤ (ofDie (queued c) fun d => { d with dtime := 1500 }).die.dtime
         ∧ { c with frame := [1] }.frame ≠ [])
    ∧ (let c := { command 0 [2 ^ 63 + 2 ^ 54, 0, 0, 0, 0, 0, 0, 0] with done := some (0, 16, 0, 0), job := 0x10005 }
       let s := ofDie atRoot fun d => { d with cmds := [c] }
       s.die.job c.job = some rootJob ∧ rootJob.state ≠ .ended ∧ dw c.words 0 / 2 ^ 63 % 2 = 1 ∧ dw c.words 0 / 2 ^ 54 % 256 = 1 ∧ (coreOf s 1).offers = []
         ∧ handlersHeld (coreOf s 1) < 16) := by
  refine ⟨?_, ?_, ?_, ?_, ⟨.inr (.inr (.inr (.inr (.inr (.inr ⟨rfl, rfl⟩))))), pending_of _ _ _ ?_, ?_⟩, ?_, ⟨pending_of _ _ _ ?_, reads_operand _ _
    ?_, probes_operands _ _ _ ?_⟩, ⟨pending_of _ _ _ ?_, ?_, reads_operand _ _ ?_, probes_operands _ _ _ ?_⟩, ⟨pending_of _ _ _ ?_,
    reads_operand _ _ ?_, probes_operands _ _ _ ?_⟩, ⟨pending_of _ _ _ ?_, reads_operand _ _ ?_, probes_operands _ _ _ ?_⟩, ⟨pending_of _ _ _
    ?_, ?_, ?_, reads_operand _ _ ?_, ?_⟩, ?_⟩ <;> decide +kernel

/-- A vector instruction in a queue, with VL = 4. -/
def entry (w : Nat) (started settled : Bool) : Slot where
  num := 0
  word := w
  pc := 0x1000
  idx := 0
  vl := 4
  vmc := 0
  vstart := 0
  tags := []
  fcsr := 0
  desc := Desc.zero
  scalar := 0
  index := 0
  rep := false
  shift := 0
  capture := false
  linear := true
  error := false
  started := started
  settled := settled
  probed := false
  probedAt := 0
  counted := 0
  entered := 0
/-- The first word of this major opcode in flight on strand 0, and in the memory that it fetches from. -/
def flying (op : Nat) : State := onCtx (ofDie (cached 0xBF) fun d => { d with mem := { d.mem with bytes := ssetAll 0 d.mem.bytes 0x1000 (leBytes 4 (op * 2 ^ 26)) } })
  fun c => { c with vl := 4, queue := [entry (op * 2 ^ 26) true true] }

theorem witness_IssueVectorAndCsrEvents :
    (let s := { base 0 with others := [(2, { probeStrand with run := { probeStrand.run with lastIssue := 5 } })] }
     (s.strand 0).id.kind ≠ .free ∧ (s.strand 0).run.wait = .ready ∧ (s.strand 0).run.lastIssue < (s.strand 2).run.lastIssue
       ∧ ∀ j < 8, j ≠ 0 → j ≠ 2 → (s.strand j).id.kind = .free)
    ∧ ((onCtx (base 0) fun c => { c with rep := { c.rep with running := true } }).strand 0).ctx.rep.running = true
    ∧ (((base 0).strand 0).ctx.queue = [] ∧ (flying 0x21).beatSlots 0 ≠ [] ∧ ((flying 0x21).strand 0).ctx.queue = [entry (0x21 * 2 ^ 26) true true]
        ∧ (flying 0x21).die.sfu = [] ∧ stepsOf (0x21 * 2 ^ 26) = .elements ∧ stepsOf (0x24 * 2 ^ 26) = .across ∧ stepsOf (0x28 * 2 ^ 26) = .memory
        ∧ stepsOf (0x25 * 2 ^ 26 + 8 * 32) = .whole)
    ∧ (let queue (q : Slot) := ((onCtx (base 0) fun c => { c with queue := [q] }).strand 0).ctx.queue
       (∀ w ∈ [0x21 * 2 ^ 26, 0x28 * 2 ^ 26], indivisible w = false ∧ queue (entry w false true) = [entry w false true]) ∧ indivisible (0x2A * 2 ^ 26) = true)
    ∧ (((base 0).strand 0).id.kind ≠ .free ∧ ((base 0).strand 0).run.wait = .ready ∧ nearBanked (base 0).die 0x1000 = true
        ∧ (base 0).die.target 0x12000003FFF8 = .clm 0 0x3FFF8)
    ∧ (let s := onMe atRoot fun t => { t with run := { t.run with wait := .fork, forkN := 4 } }
       s.me.run.wait = .fork ∧ s.me.run.forkN = 4 ∧ 4 ≤ s.me.ctx.k ∧ s.me.ctx.gm ≠ 0 ∧ s.me.ctx.fork.n = 0 ∧ s.me.ctx.g = 1 ∧ s.me.ctx.vstart = 0
         ∧ s.me.id.kind ≠ .free ∧ s.others = [] ∧ (s.coreS (s.meId / 8)).reservations = [])
    ∧ ((flying 0x27).sfuSender 0 = some (0, entry (0x27 * 2 ^ 26) true true) ∧ ((flying 0x27).die.sfu.filter fun r => r.strand / 8 == 0).length < 8)
    ∧ (let r : SfuReq := ⟨0, 0, 4, 0, false⟩
       let s (l : List SfuReq) := ofDie (flying 0x27) fun d => { d with sfu := l }
       (r ∈ (s [r]).die.sfu ∧ r.strand / 32 = 0 ∧ r.served = false ∧ ∀ x ∈ (s [r]).die.sfu, x ≠ r → x.strand / 32 = 0 → x.served = false → r.age < x.age)
         ∧ (∀ x ∈ (s [{ r with served := true }]).die.sfu, x.strand / 32 = 0 → x.served = true)
         ∧ (s [{ r with served := true }]).die.sfu = { r with served := true } :: [] ∧ (∀ q ∈ ((base 0).strand 0).ctx.queue, q.num ≠ r.num)
         ∧ ((s []).strand r.strand).ctx.slot r.num = some (entry (0x27 * 2 ^ 26) true true) ∧ (entry (0x27 * 2 ^ 26) true true).vmc.getLsbD 6 = false
         ∧ ({ entry (0x27 * 2 ^ 26) true true with vmc := 64 } : Slot).vmc.getLsbD 6 = true)
    ∧ (((base 0).strand 0).ctx.gm ≠ 0 ∧ ((base 0).strand 0).ctx.busy = false ∧ (base 0).die.walks = [] ∧ ((flying 0x21).strand 0).ctx.busy = true) := by
  refine ⟨?_, ?_, ?_, ?_, ?_, ?_, ?_, ?_, ?_⟩ <;> decide +kernel

/-- A line of the L2 with its first sector, and a record of L2ERR[0]. -/
def lined (dirty : BitVec 4) : State := ofDie (base 0) fun d => { d with mem := { d.mem with lines := [(8, ⟨0, 0, 0, 1, dirty, 0⟩)] } }

theorem witness_MemoryEvents :
    (∃ bs d, held.die.physRead 0 (0x120000000000 + 0x40000 * 0 + 0) 8 = .ok (bs, d)) ∧ (∃ e, held.die.physRead 0x101 (0x100000000000 + 0) 8 = .error e)
    ∧ (∃ d, held.die.physWrite 0 (0x110000000000 + 0x200000 * 0 + 0) ([1, 2].map (BitVec.ofNat 8)) = .ok d)
    ∧ (∃ e, held.die.physWrite 0x101 (0x110000000000 + 0x200000 * 0 + 0) ([1, 2].map (BitVec.ofNat 8)) = .error e)
    ∧ ((base 0).die.target 0x1000 = .lpddr ∧ (base 0).die.admits (l2Bank 0x1000) 0x101 true = false ∧ (base 0).die.admits (l2Bank 0x1000) 0 true = true
        ∧ (base 0).die.admits (0x400 + lpController 0x1000) 0 false = true ∧ sget false (base 0).die.mem.errs (errSet (l2Bank 0x1000) (l2Set 0x1000)) = false
        ∧ sget false (base 0).die.mem.errs (errSector 0x1000) = false ∧ sget Line.none (base 0).die.mem.lines (0x1000 / 512) = Line.none
        ∧ ((base 0).die.mem.inSet 0x1000).length + (base 0).die.csmWays < 12)
    ∧ (nearBanked held.die 0x120000000000 = false ∧ nearBanked held.die 0x1000 = true)
    ∧ (∃ old d, held.die.amoAt 0 0x1000 4 (Amo.ofVector 0) 5 0 = .ok (old, d)) ∧ (∃ e, held.die.amoAt 0x101 0x1000 4 (Amo.ofVector 0) 5 0 = .error e)
    ∧ (let s := ofDie held fun d => { d with mem := { d.mem with unclean := [(0x110000000, 2)] } }
       ((sget 0 s.die.mem.unclean (0x4400000001 / 64)).getLsbD (0x4400000001 % 64)) = true ∧ ((sget 0 s.die.mem.unclean (0x4400000002 / 64)).getLsbD 2) = false)
    ∧ ((lined 0).die.target 0x1000 = .lpddr ∧ (sget Line.none (lined 0).die.mem.lines 8).valid.getLsbD 0 = true
        ∧ (sget Line.none (lined 0).die.mem.lines 8).dirty.getLsbD 0 = false ∧ (sget Line.none (lined 1).die.mem.lines 8).dirty.getLsbD 0 = true
        ∧ (sget Line.none (lined 0).die.mem.lines 8).valid.getLsbD 1 = false ∧ (lined 1).die.reg 0x200002001000 / 2 ^ 63 = 0)
    ∧ (let s (kind : Nat) := withReg (ofDie (lined 1) fun d => { d with mem := { d.mem with
          lines := [(8, ⟨0, 0, 0, 1, 1, 1⟩)], under := [(32, List.replicate 136 0)] } }) 0x200002001000 (2 ^ 63 + kind * 2 ^ 60 + 32 * 128)
       (s 1).die.reg 0x200002001000 / 2 ^ 63 = 1 ∧ (s 2).die.reg 0x200002001000 / 2 ^ 60 % 4 = 2 ∧ (s 3).die.reg 0x200002001000 / 2 ^ 60 % 4 = 3
         ∧ (s 1).die.reg 0x200002001000 / 2 ^ 60 % 4 = 1 ∧ (s 1).die.reg 0x200002001000 / 2 ^ 7 % 2 ^ 41 = 32
         ∧ (sget Line.none (s 1).die.mem.lines (32 / 4)).held.getLsbD (32 % 4) = true ∧ (sget [] (s 1).die.mem.under 32).length = 136)
    ∧ ((base 0).die.reg 0x200002000000 / 256 % 2 = 0 ∧ (base 0).die.reg 0x200002000000 % 16 ≠ 8 ∧ 8 < 9 % 16)
    ∧ (let s := withReg (base 0) 0x200008000000 (2 ^ 16)
       s.die.reg 0x200008000000 / 2 ^ 16 % 65536 ≠ 0 ∧ (sget (0, 0) s.die.tokens 0).2 = 0 ∧ (base 0).die.reg 0x200008000000 / 2 ^ 16 % 65536 = 0
         ∧ (sget (0, 0) (ofDie s fun d => { d with tokens := [(0, (0, 1))] }).die.tokens 0).2 ≠ 0) := by
  refine ⟨ok_pair _ ?_, error_of _ ?_, ok_of _ ?_, error_of _ ?_, ?_, ?_, ok_pair _ ?_, error_of _ ?_, ?_, ?_, ?_, ?_, ?_⟩ <;> decide +kernel

/-- Partition 1 with clusters 1 and 2 and colour 3, partition 2 with cluster 4; an order of partition 1 for cluster 1 and colour 3 to partition 2. -/
def ordered (ctl dl : Nat) : State := setRegs (base 0) [(pclu 1, 6), (pres 1, 8), (pclu 2, 16), (slot 1, 2), (slot 1 + 16, dl),
  (slotCtl 1, 8 * 2 ^ 48 + 2 * 2 ^ 24 + ctl), (0x200006110008, 1)]
/-- The same with the order so far on, its decisions, jobs and commands. -/
def underway (stage t : Nat) (ps : List Pick) (js : List (Nat × Job)) : State := ofDie (ordered 0x100 1000000000000000) fun d => { d with
  orders := [(1, ⟨0, stage, ps⟩)], dtime := t, jobs := js }
/-- The root strand on cluster 1. -/
def onCluster1 (s : State) : State := { s with me := rootStrand, meId := 32 }

theorem witness_ClearanceOrders :
    (activeOrder (ordered 0x100 0).die 1 ∧ ¬activeOrder (ordered 0 0).die 1)
    ∧ (orderWhy (ordered 0 0).die 1 = 4 ∧ orderWhy (setRegs (ordered 0 0) [(slotCtl 1, 13 * 2 ^ 24)]).die 1 = 1 ∧ orderWhy (setRegs (ordered 0 0) [(slot 1, 1)]).die 1 = 2
        ∧ orderWhy (setRegs (ordered 0 0) [(pclu 2, 2), (slot 2, 2), (slotCtl 2, 0x100 + 2 ^ 24)]).die 1 = 3)
    ∧ (orderWhy (ordered 0 1000000000000000).die 1 = 0 ∧ (∀ e ∈ (ordered 0 1000000000000000).die.jobs, e.2.state = .ended)
        ∧ regField (ordered 0 1000000000000000).die 0x200007001000 0 1 = 0)
    ∧ ((orderOf (base 0).die 1).stage ≠ 1 ∧ (orderOf (underway 1 0 [] []).die 1).stage = 1
        ∧ ∀ e ∈ (underway 1 0 [] []).die.jobs, e.2.live = true → ¬holdsNamed (underway 1 0 [] []) 1 (handleOf e))
    ∧ (let s := onCluster1 (underway 1 0 [] [(5, { rootJob with root := some 32 })])
       (s.die.jobs.filter fun e => e.2.live && decide (holdsNamed s 1 (handleOf e))) = [(5, { rootJob with root := some 32 })]
         ∧ regField s.die 0x200007001000 0 1 = 0 ∧ s.die.job 0x10005 = some { rootJob with root := some 32 })
    ∧ (let x : Pick := ⟨0x10005, 0, 0, 0, 0, 0, 0, false⟩
       let s := onCluster1 (underway 2 999999999999000 [x] [(5, { rootJob with root := some 32 })])
       (orderOf s.die 1).stage = 2 ∧ orderH s.die 1 - orderB s.die 1 ≤ s.die.dtime ∧ (orderOf s.die 1).picks = [x] ∧ x.kind = 0 ∧ x.closed = false
         ∧ s.die.job x.job = some { rootJob with root := some 32 } ∧ ({ rootJob with root := some 32 } : Job).live = true ∧ holdsNamed s 1 x.job)
    ∧ ((orderOf (underway 2 0 [] []).die 1).stage = 2 ∧ (underway 2 0 [] []).die.dtime < orderH (underway 2 0 [] []).die 1 - orderB (underway 2 0 [] []).die 1)
    ∧ ((orderOf (underway 3 1000000000000000 [] []).die 1).stage = 3
        ∧ orderH (underway 3 1000000000000000 [] []).die 1 ≤ (underway 3 1000000000000000 [] []).die.dtime
        ∧ (underway 3 0 [] []).die.dtime < orderH (underway 3 0 [] []).die 1)
    ∧ (let s := underway 4 1000000000000000 [] []
       (orderOf s.die 1).stage = 4 ∧ s.die.reg (slot 1 + 16) ≤ s.die.dtime ∧ regField s.die (slotCtl 1) 24 4 = 2 ∧ regField s.die 0x200007001000 0 1 = 0)
    ∧ ((∀ p < 13, 1 ≤ p → activeOrder (ordered 0 0).die p → ((ordered 0 0).die.reg (slot p)).testBit 1 = false)
        ∧ (∀ p < 13, 1 ≤ p → ((ordered 0 0).die.reg (pclu p)).testBit 63 = false) ∧ ((ordered 0 0).die.reg (pclu 1)).testBit 1 = true
        ∧ ¬overCommitted (4 * (List.range 256).countP fun n => ((ordered 0 0).die.reg (pclu 1)).testBit (n / 4) && !decide (n % 32 = 0 ∧ n / 32 < (ordered 0 0).die.width)
            && !(1 :: (ordered 0 0).die.retired).contains (n / 4)) 1 ((serversOf (ordered 0 0).die 1).map (serverRate (ordered 0 0).die))
        ∧ (let s := setRegs (ordered 0 0) [(0x200004000020, 1000 * 2 ^ 32 + 60000 * 2 ^ 16 + 1)]
           serversOf s.die 1 = [1] ∧ overCommitted (4 * (List.range 256).countP fun n => (s.die.reg (pclu 1)).testBit (n / 4)
              && !decide (n % 32 = 0 ∧ n / 32 < s.die.width) && !(1 :: s.die.retired).contains (n / 4)) 1 ((serversOf s.die 1).map (serverRate s.die))))
    ∧ (overCommitted (30375 * (4 - 4)) 100 [(5, 1, 0)] ∧ ¬overCommitted (30375 * (4 - 1)) 100 [(5, 1, 0)]
        ∧ regField (setRegs (base 0) [(0x200008007FF8 - 0x7000 + 0x7000, 5)]).die (0x200008000000 + 0x1000 * 7 + 8 * 511) 0 16 = 5) := by
  refine ⟨?_, ?_, ?_, ?_, ?_, ?_, ?_, ?_, ?_, ?_, ?_⟩ <;> decide +kernel

theorem witness_FirmwareRegisters :
    (activeOrder (ordered 0x100 0).die 1 ∧ partitionClash (setRegs (ordered 0 0) [(pclu 2, 2)]).die ∧ ¬partitionClash (ordered 0 0).die
      ∧ ¬∃ q, q < 13 ∧ 1 ≤ q ∧ activeOrder (ordered 0 0).die q ∧ (q = 1 ∨ regField (ordered 0 0).die (slotCtl q) 24 4 = 1))
    ∧ (regField (setRegs (base 0) [(0x200008008000 + 8 * 511, 2)]).die (0x200008008000 + 8 * 511) 1 1 = 1 ∧ regField (base 0).die (0x200008008000 + 8 * 511) 1 1 = 0
        ∧ (sget Line.none (lined 0).die.mem.lines 8).owner = 0 ∧ ∀ e ∈ (lined 0).die.mem.lines, e.1 = 9 → e.2.owner ≠ 0)
    ∧ (1215 < ((List.range 512).map fun x => if x = 5 then 1216 % 2 ^ 16 else regField (base 0).die (0x200008000000 + 0x1000 * 7 + 8 * x) 0 16).sum
        ∧ ((List.range 512).map fun x => if x = 5 then 1215 % 2 ^ 16 else regField (base 0).die (0x200008000000 + 0x1000 * 7 + 8 * x) 0 16).sum ≤ 1215)
    ∧ (let s (l : List Nat) := withPkg (base 0) { (base 0).die.pkg with roles := l }
       let held (s : State) := (List.range s.die.pkg.roles.length).countP fun i => s.die.pkg.roles.getD i 0 % 32 != 0
       let standby (s : State) := (List.range s.die.pkg.roles.length).countP fun i => s.die.pkg.roles.getD i 0 == 32
       standby (s [31, 0]) < held (s [31, 0]) ∧ held (s [31, 32]) ≤ standby (s [31, 32]) ∧ regField (base 0).die 0x20000A000100 0 2 = 0
         ∧ regField (withReg (base 0) 0x20000A000100 2).die 0x20000A000100 0 2 ≠ 0)
    ∧ ((299 : Nat) < 300 ∧ 600 < 601 ∧ 300 ≤ 300 % 2 ^ 16 ∧ 600 % 2 ^ 16 ≤ 600)
    ∧ ((base 0).die.target 0x1000 ≠ .mmio ∧ (base 0).die.target 0x200008000000 = .mmio ∧ 0x200008000000 / 2 ^ 24 % 2 ^ 8 ∈ [2, 3, 5, 6, 7, 8, 10, 11, 12]) := by
  decide +kernel

/-- A configuration table of two Tollhouse cores that hold every role between them. -/
def goodTable : List Nat := [0x59, 0x4D, 0x43, 0x54, 1, 0, 2, 0, 31, 32] ++ List.replicate 10 0 ++ [0x2C, 1, 0] ++ List.replicate 1757 0

/-- A table that the boot ROM accepts where its signature holds, which the model leaves free (log 7). -/
theorem witness_acceptedTable (h : Config.signatureOk goodTable = true) : acceptedTable goodTable := by
  have zeros : ∀ k < 64, 23 ≤ k → goodTable.getD k 0 = 0 := by decide +kernel
  refine ⟨?_, ?_, ?_, ?_, ?_, ?_, fun k h h' => zeros k h' h, ?_, ?_, ?_, h⟩ <;> decide +kernel

theorem witness_BootAndPackage :
    (let s (n : Nat) := withPkg (withReg State.reset 0x20000A000000 n) { State.reset.die.pkg with table := goodTable }
     (∀ n ∈ [1, 2, 3, 4, 5, 6, 7, 8, 15], (s n).die.reg 0x20000A000000 % 16 = n) ∧ (s 7).die.pkg.table.getD 6 0 ≤ 8 ∧ (s 7).die.pkg.table ≠ []
       ∧ State.reset.die.reg 0x20000A000000 % 16 = 0)
    ∧ ((withReg (base 0) 0x20000A000100 1).die.reg 0x20000A000100 % 4 = 1 ∧ (base 0).die.reg 0x20000A000100 % 4 ≠ 1)
    ∧ (let s := withPkg (withReg (base 0) 0x20000A000100 2) { (base 0).die.pkg with roles := [31, 32] }
       s.die.reg 0x20000A000100 % 4 = 2 ∧ (¬∃ q, q < 13 ∧ 1 ≤ q ∧ activeOrder s.die q) ∧ s.die.pkg.roles = [31, 32] ∧ 31 % 32 ≠ 0)
    ∧ (∃ q, 1 ≤ q ∧ q ≤ 12 ∧ activeOrder (ordered 0x100 0).die q)
    ∧ ((∀ e ∈ (base 0).die.jobs, e.2.state ≠ .running) ∧ (atRoot.die.jobs.filter fun e => e.2.state == .running) = [(5, rootJob)]) := by
  refine ⟨?_, ?_, ?_, ⟨1, ?_⟩, ?_⟩ <;> decide +kernel

/-- A strand with a request outstanding in a phase, with a firmware vector. -/
def asking (p : LinkPhase) (f : HostReq → HostReq) : State := onMe atRoot fun t => { t with run := { t.run with wait := .host, hostReq := some (f (request p)) } }
/-- Queue 2 of VF 1. -/
def queue2 (q : Sq) : State := onQueue (base 0) 1 2 q

theorem witness_HostLink :
    ((base 0).strand 0).run.hostReq = none
    ∧ ([LinkPhase.sent, .translating, .paging].all fun p => decide (((asking p id).strand 0).run.hostReq = some (request p) ∧ ((asking p id).strand 0).trap.ftvec ≠ 0)) = true
    ∧ ((request .sent).cancelled = false ∧ (request .sent).reg ≤ 32 ∧ { request .sent with cancelled := true }.cancelled = true ∧ { request .sent with reg := 33 }.reg = 33)
    ∧ (let s := withReg (asking .translating id) 0x20000C000008 (2 ^ 23)
       0x100 ≤ (s.strand 0).id.owner ∧ regField s.die (0x20000C000000 + 8 * ((s.strand 0).id.owner - 0x100)) 23 1 = 1
         ∧ regField (asking .translating id).die 0x20000C000008 23 1 = 0)
    ∧ (((asking .paging id).strand 0).run.since + 1000000 ≤ (ofDie (asking .paging id) fun d => { d with dtime := 1000000 }).die.dtime
        ∧ ¬((asking .paging id).strand 0).run.since + 64000 ≤ (ofDie (asking .translating id) fun d => { d with dtime := 63999 }).die.dtime)
    ∧ ((queueOf (base 0) 255 15).en = false ∧ decide (0x400 / 2 ^ 10 % 2 = 1) = true ∧ 0x800 / 2 ^ 11 % 2 = 1 ∧ (queueOf (base 0) 1 2).stopped = false)
    ∧ ((ofDie (base 0) fun d => { d with mig := { d.mig with vf := 1, state := 3 } }).die.frozen 1 1 = true ∧ (base 0).die.frozen 1 1 = false
        ∧ (queueOf (queue2 { Sq.reset with stop := true }) 1 2).stop = true ∧ (queueOf (base 0) 1 2).stop = false)
    ∧ (let q := { Sq.reset with en := true, tail := 1 }
       let s := queue2 q
       (queueOf s 1 2).en = true ∧ (queueOf s 1 2).stop = false ∧ (queueOf s 1 2).head ≠ (queueOf s 1 2).tail ∧ s.die.unreported 1 2 + q.used < 2 ^ (6 + q.cqLog)
         ∧ q.cqTail + 1 < 2 ^ (6 + q.cqLog) ∧ (onQueue s 1 2 { q with head := (q.head + 1) % 2 ^ (6 + q.sqLog) }).die.enterFault 1 0 = some 6)
    ∧ (let s := onQueue (spawning goodDesc) 1 2 { Sq.reset with en := true, tail := 1 }
       (onQueue s 1 2 { Sq.reset with en := true, tail := 1, head := 1 }).die.enterFault 1 (goodDesc % 2 ^ 512) = none)
    ∧ ((base 0).die.reg 0x20000C000008 / 2 ^ 22 % 2 = 0 ∧ (withReg (base 0) 0x20000C000008 (2 ^ 22)).die.reg 0x20000C000008 / 2 ^ 22 % 2 = 1)
    ∧ (0x1000 ≤ 0x1058 ∧ 0x1058 < 0x1200 ∧ 0x1058 % 32 = 24 ∧ ¬8 < 0x1058 % 8 + 8 ∧ 8 < 0x1059 % 8 + 8)
    ∧ (∀ e ∈ (base 0).die.jobs, e.2.vf = 1 → e.2.live = false) := by decide +kernel

/-- The twin link up, and a migration in a state. -/
def migrating (n t : Nat) : State := ofDie (withReg (base 0) 0x20000C010000 2) fun d => { d with mig := { d.mig with vf := 1, state := n }, dtime := t }

theorem witness_TwinAndMigration :
    ((∀ e ∈ ((base 0).meId, (base 0).me) :: (base 0).others, (e.2.run.hostReq.any fun q => q.twin) = false)
      ∧ (let s := asking .sent fun q => { q with twin := true }
         s.others = [] ∧ s.me.run.hostReq = some { request .sent with twin := true } ∧ s.me.trap.ftvec ≠ 0))
    ∧ (0x200000000000 ≤ (0x200000000000 : Nat) ∧ 0x1FFFFFFFFFFF < 0x200000000000)
    ∧ ((migrating 1 0).die.mig.state ∉ [0, 4, 5] ∧ (migrating 4 0).die.mig.state ∈ [0, 4, 5] ∧ (migrating 4 0).die.reg 0x20000C010000 / 2 % 2 = 1
        ∧ ¬(base 0).die.reg 0x20000C010000 / 2 % 2 = 1 ∧ ∀ e ∈ (migrating 4 0).die.jobs, e.2.vf = 1 → e.2.state ≠ .running)
    ∧ ((∀ e ∈ ((migrating 1 0).meId, (migrating 1 0).me) :: (migrating 1 0).others, e.2.id.kind = .free ∨ e.2.id.owner ≠ 0x100 + 1)
        ∧ (∀ c ∈ (migrating 1 0).die.cmds, c.owner ≠ 0x100 + 1) ∧ (migrating 1 0).die.mig.state = 1)
    ∧ ((migrating 1 99999999).die.dtime < (migrating 1 99999999).die.mig.since + 100000000
        ∧ (migrating 1 100000000).die.mig.since + 100000000 ≤ (migrating 1 100000000).die.dtime)
    ∧ ((migrating 2 0).die.mig.state = 2 ∧ (migrating 3 0).die.mig.state = 3 ∧ (migrating 3 0).die.mig.vf < 256
        ∧ ∀ e ∈ (migrating 3 0).die.jobs, e.2.vf = 1 → e.2.live = false) := by decide +kernel

/-! ### Further forms of the premises -/

/-- A posted write of strand or engine `i` to the twin window, on its way; and one of strand 0 to host memory that waits for its translation. -/
def onItsWay (i : Nat) : Posted := ⟨i, 0, true, ⟨0, 0, 0, 30, 0xBF, 0x42000⟩, 0x4000, 0, none⟩
def waiting (paging : Bool) : Posted :=
  { onItsWay 0 with twin := false, owner := 0x101, held := some ⟨⟨false, 0x101, .write, 0x4000, 8, 0, 0, 0, false⟩, paging, 0⟩ }
/-- The issuing strand has a posted write on its way. -/
def posting (s : State) : State := ofDie s fun d => { d with posted := [onItsWay s.meId] }

theorem stores_done (s : State) (h : (s.die.posted.all fun p => p.source != s.meId) = true) : storesDone s := by
  simpa [storesDone] using h

theorem stores_held (s : State) (h : (s.die.posted.any fun p => p.source == s.meId) = true) : ¬storesDone s := by
  simpa [storesDone] using h

/-- The premises on earlier stores, of FENCE, XPFENCE, PTFENCE, AMOs, ENQ, SPAWN, JDONE, JEXIT and the barriers. -/
theorem witness_earlier_stores :
    (∀ s ∈ [base 0, atRoot, onMe atRoot fun t => { t with id := { t.id with kind := .aux } },
        onMe atRoot fun t => { t with id := { t.id with kind := .exiting } }, member 0x40000201 ⟨0x102, 2, 2, 1, 0⟩],
      storesDone s ∧ ¬storesDone (posting s) ∧ (posting s).me = s.me)
    ∧ ([Kind.aux, .exiting].map fun k => (onMe atRoot fun t => { t with id := { t.id with kind := k } }).me.id.kind) = [.aux, .exiting]
    ∧ (onMe atRoot fun t => { t with id := { t.id with kind := .free } }).me.id.kind = .free
    ∧ sget 0 (member 0x40000201 ⟨0x102, 2, 2, 1, 0⟩).me.dom 3 / 2 ^ 30 % 4 ≠ 0
    ∧ (posting (base 0)).malformedOffset 0 [2 ^ 16 + 1, 0, 0x1000, 0x2000, 16, 0, 0, 0] (posting (base 0)).cmdPart = none := by
  refine ⟨?_, by decide +kernel, by decide +kernel, by decide +kernel, by decide +kernel⟩
  intro s h
  simp only [List.mem_cons, List.not_mem_nil, or_false] at h
  rcases h with rfl | rfl | rfl | rfl | rfl <;> exact ⟨stores_done _ (by decide +kernel), stores_held _ (by decide +kernel), rfl⟩

/-- A load of the word at address 0x4000 at the program counter. -/
def loading : State := withRegs (ofDie (base (encode (.ld 3 1 2 0))) fun d => { d with xlat := (cached 0xBF).die.xlat }) [(1, 0x4000)]

/-- A load whose data return over the network: the word at the program counter, what it translates to and what it reads. -/
theorem witness_load_data_return : ∃ f,
    let s := loading
    s.me.id.kind ≠ .free ∧ s.me.run.wait = .ready ∧ s.fetch = .word (encode (.ld 3 1 2 0)) f
      ∧ (f.me.ctx.queue.isEmpty && !f.me.ctx.rep.running && f.reg 1 == 0x4000 && goesTo f 0x4000 4 .read fun pa u =>
          memoryAt u.die pa && (u.die.physRead f.me.id.owner pa 4).isOk) = true
      ∧ reads (encode (.ld 3 1 2 0)) (.ld 3 1 2 0) = true
      ∧ (onMe s fun t => { t with run := { t.run with wait := .host } }).me.run.wait ≠ .ready ∧ s.die.xlat.roots = [] := by
  obtain ⟨f, h, h'⟩ := fetch_word loading.fetch (encode (.ld 3 1 2 0))
    (fun f => f.me.ctx.queue.isEmpty && !f.me.ctx.rep.running && f.reg 1 == 0x4000 && goesTo f 0x4000 4 .read fun pa u =>
      memoryAt u.die pa && (u.die.physRead f.me.id.owner pa 4).isOk) (by decide +kernel)
  refine ⟨f, ?_, ?_, h, h', ?_, ?_, ?_⟩ <;> decide +kernel

/-- A strand at a SETVL, with a lane group that another wants. -/
def changing : State := onCore (base (encode (.setvl 3 1 false))) 0
  { CoreS.empty with lat := [⟨some 0, none⟩, ⟨some 0, some 3⟩, ⟨none, none⟩, ⟨none, none⟩] }

/-- LANE_CHANGE at a SETVL, SAVE_COMPLETE and RESUME. -/
theorem witness_lane_change_and_saves :
    (∃ f, let s := changing
      (∃ e ∈ (coreOf s 0).lat, (e.own = some 0 ∧ e.pend ≠ none) ∨ (e.own = none ∧ e.pend = some 0)) ∧ (s.strand 0).run.wait = .ready
        ∧ (s.strand 0).ctx.queue = [] ∧ (s.strand 0).ctx.rep.running = false ∧ (s.focus 0).fetch = .word (encode (.setvl 3 1 false)) f
        ∧ reads (encode (.setvl 3 1 false)) (.setvl 3 1 false) = true)
    ∧ (saving.die.posted = [] ∧ (saving.strand 0).run.invals.length ≤ 20 ∧ rootJob.pend = 0 ∧ saving.die.dtime < rootJob.deadline)
    ∧ ((∀ r ∈ (coreOf (base 0) 0).reservations, r.job ≠ 0x10005) ∧ (base 0).strandsOf 0x10005 = [] ∧ 0x10005 < 2 ^ 32 ∧ Rep.empty = Rep.empty)
    ∧ (let s := onMe (onCore (base 0) 0 { coreOf (base 0) 0 with conts := [(0, cont)] }) fun t => { t with run := { t.run with wait := .park } }
       (s.strand 0).ctx.queue = [] ∧ (s.strand 0).run.wait = .park) := by
  refine ⟨?_, by decide +kernel, by decide +kernel, by decide +kernel⟩
  obtain ⟨f, h, _⟩ := fetch_word (changing.focus 0).fetch (encode (.setvl 3 1 false)) (fun _ => true) (by decide +kernel)
  refine ⟨f, ?_, ?_, ?_, ?_, h, ?_⟩ <;> decide +kernel

/-- An abandoned request, a write that waits for its translation in both phases, AtomicOps of a host, and the end of the twin link with a write on it. -/
theorem witness_orphans_and_held_writes :
    (let s := ofDie (base 0) fun d => { d with orphans := [⟨5, 0x101, 0, request .sent⟩] }
     s.die.orphans = [⟨5, 0x101, 0, request .sent⟩] ∧ (∀ x ∈ s.die.orphans, x.strand ≠ 0))
    ∧ (∀ g ∈ [true, false], let s := ofDie (base 0) fun d => { d with posted := [waiting g] }
       (waiting g).held = some ⟨⟨false, 0x101, .write, 0x4000, 8, 0, 0, 0, false⟩, g, 0⟩ ∧ s.die.posted = waiting g :: []
         ∧ 0x100 ≤ (waiting g).owner ∧ ¬0 + 64000 ≤ s.die.dtime ∧ 0 + 1000000 ≤ (ofDie s fun d => { d with dtime := 1000000 }).die.dtime
         ∧ regField s.die (0x20000C000000 + 8 * ((waiting g).owner - 0x100)) 23 1 = 0
         ∧ regField (withReg s 0x20000C000008 (2 ^ 23)).die (0x20000C000000 + 8 * ((waiting g).owner - 0x100)) 23 1 = 1)
    ∧ ((withReg (base 0) 0x20000C000008 (2 ^ 22)).die.reg (0x20000C000000 + 8 * 1) / 2 ^ 22 % 2 = 1 ∧ 0 + 8 ≤ 0x1000000)
    ∧ (∃ old d, held.die.amoAt 0 0x1000 8 .fadd 5 0 = .ok (old, d)) ∧ (∃ e, held.die.amoAt 0x101 0x1000 8 .fadd 5 0 = .error e)
    ∧ (let s := posting (base 0)
       s.die.posted = [onItsWay 0] ∧ (onItsWay 0).twin = true ∧ s.die.mig.state ≠ 1 ∧ s.die.mig.state ≠ 2 ∧ s.die.reg 0x20000C010000 = 0)
    ∧ (5 ∈ (ofDie (migrating 4 0) fun d => { d with mig := { d.mig with spent := [5] } }).die.mig.spent ∧ 5 ∉ (migrating 4 0).die.mig.spent)
    ∧ (let s (e : Bool) := ofDie (base 0) fun d => { d with mem := { d.mem with errs := [(errSector (128 * 32), e)] } }
       sget false (s true).die.mem.errs (errSector (128 * 32)) = true ∧ sget false (s false).die.mem.errs (errSector (128 * 32)) = false) := by
  refine ⟨by decide +kernel, by decide +kernel, by decide +kernel, ok_pair _ ?_, error_of _ ?_, ?_, ?_, ?_⟩ <;> decide +kernel

/-- The three ends of a word that goes to the queue: VADD of two words passes it by, VADD of unlike tags traps, and a VLD of host memory stays in flight. -/
theorem witness_queued_words :
    let s := base 0
    let like := onCtx s fun c => { c with vl := 4, tags := [(1, .i32), (2, .i32), (3, .i32)] }
    let far := onCtx outside fun c => { c with vl := 4, sd := [(0, { Desc.zero with base := 0x80000000, tag := 1, len0 := 8, stride0 := 4 })] }
    let ends (i : Instr) (s : State) (trap pass : Bool) : Bool :=
      match exec i s with | .next t => t.trapped == trap && t.passed s.me.pc == pass | _ => false
    (∀ i ∈ [Instr.vadd 1 2 3 false, .vld 1 0 false], Machine.queued (encode i) = true)
      ∧ ends (.vadd 1 2 3 false) like false true = true
      ∧ ends (.vadd 1 2 3 false) (onMe (onCtx s fun c => { c with vl := 4 }) fun t => { t with trap := { t.trap with ftvec := 0x3000 } }) true false = true
      ∧ ends (.vld 1 0 false) far false false = true := by decide +kernel

/-! ### Single steps, with results calculated by hand from the rules -/

/-- The next state of an instruction satisfies a test. -/
def after (i : Instr) (s : State) (p : State → Bool) : Bool := match exec i s with | .next t => p t | _ => false
/-- The next state of a step does. -/
def stepped (s : State) (p : State → Bool) : Bool := match step s with | .next t => p t | _ => false
/-- s1 and s2 set. -/
def ab (a b : Word) : State := withRegs (base 0) [(1, a), (2, b)]
/-- Words of v2 and v3 from 0 up, under a tag. -/
def lanesOf (t : Tag) (xs ys : List VWord) : State := onCtx (base 0) fun c => { c with
  vl := 4, tags := if t = .raw then [] else [(1, t), (2, t), (3, t)], v := ssetAll 0 (ssetAll 0 [] 512 xs) 768 ys }

/-- R84: .W wraps at 32 bits and sign-extends. -/
theorem test_add_w_wraps : after (.add 3 1 2 true) (ab 0x7FFFFFFF 1) (fun t => t.reg 3 == 0xFFFFFFFF80000000 && t.me.pc == 0x1004) = true := by decide +kernel
/-- R14: s0 discards a write. -/
theorem test_s0_discards : after (.ori 0 1 0xFF) (ab 5 0) (fun t => t.reg 0 == 0) = true := by decide +kernel
theorem test_slt_signed : after (.slt 3 1 2) (ab 0xFFFFFFFFFFFFFFFF 0) (fun t => t.reg 3 == 1) = true := by decide +kernel
theorem test_sltu_unsigned : after (.sltu 3 1 2) (ab 0xFFFFFFFFFFFFFFFF 0) (fun t => t.reg 3 == 0) = true := by decide +kernel
/-- Table 4.3. -/
theorem test_div_overflow : after (.div 3 1 2 false) (ab 0x8000000000000000 0xFFFFFFFFFFFFFFFF) (fun t => t.reg 3 == 0x8000000000000000) = true := by decide +kernel
theorem test_div_by_zero : after (.div 3 1 2 true) (ab 7 0x100000000) (fun t => t.reg 3 == 0xFFFFFFFFFFFFFFFF) = true := by decide +kernel
theorem test_rem_truncates : after (.rem 3 1 2 false) (ab 0xFFFFFFFFFFFFFFF9 2) (fun t => t.reg 3 == 0xFFFFFFFFFFFFFFFF) = true := by decide +kernel
theorem test_remu_by_zero : after (.remu 3 1 2 false) (ab 9 0) (fun t => t.reg 3 == 9) = true := by decide +kernel
theorem test_mulh_of_negatives : after (.mulh 3 1 2) (ab 0xFFFFFFFFFFFFFFFF 0xFFFFFFFFFFFFFFFF) (fun t => t.reg 3 == 0) = true := by decide +kernel
theorem test_mulhu_of_ones : after (.mulhu 3 1 2) (ab 0xFFFFFFFFFFFFFFFF 0xFFFFFFFFFFFFFFFF) (fun t => t.reg 3 == 0xFFFFFFFFFFFFFFFE) = true := by decide +kernel
/-- The amount is taken modulo 32 in the .W form. -/
theorem test_sra_w_amount : after (.sra 3 1 2 true) (ab 0x80000000 33) (fun t => t.reg 3 == 0xFFFFFFFFC0000000) = true := by decide +kernel
theorem test_brev : after (.brev 3 1) (ab 1 0) (fun t => t.reg 3 == 0x8000000000000000) = true := by decide +kernel
theorem test_clz_w : after (.clz 3 1 true) (ab 1 0) (fun t => t.reg 3 == 31) = true := by decide +kernel
theorem test_sext_half : after (.sext 3 1 1) (ab 0x18000 0) (fun t => t.reg 3 == 0xFFFFFFFFFFFF8000) = true := by decide +kernel
theorem test_luh_negative : after (.luh 3 0x1FFFFF) (base 0) (fun t => t.reg 3 == 0xFFFFFFFFFFFF0000) = true := by decide +kernel
theorem test_cmovnz_keeps : after (.cmovnz 3 1 2) (withRegs (ab 5 0) [(3, 77)]) (fun t => t.reg 3 == 77) = true := by decide +kernel

/-- R88: B sign-extends, BU does not; the bytes are little-endian (R9). -/
theorem test_ld_byte_sign : after (.ld 3 1 0 4) (ofDie (withRegs (cached 0xBF) [(1, 0x4000)]) fun d => { d with mem := { d.mem with
    bytes := ssetAll 0 d.mem.bytes 0x4000 [1, 2, 3, 4, 0x80] } }) (fun t => t.reg 3 == 0xFFFFFFFFFFFFFF80) = true := by decide +kernel
theorem test_ld_word_order : after (.ld 3 1 6 0) (ofDie (withRegs (cached 0xBF) [(1, 0x4000)]) fun d => { d with mem := { d.mem with
    bytes := ssetAll 0 d.mem.bytes 0x4000 [1, 2, 3, 0x84] } }) (fun t => t.reg 3 == 0x84030201) = true := by decide +kernel
theorem test_st_half : after (.st 2 1 1 0) (withRegs (cached 0xBF) [(1, 0x4002), (2, 0xABCDEF)]) (fun t =>
    (List.range 6).map (fun i => sget 0 t.die.mem.bytes (0x4000 + i)) == [0, 0, 0xEF, 0xCD, 0, 0]) = true := by decide +kernel
/-- R83: a misaligned address faults with 0x03 before it is translated. -/
theorem test_ld_misaligned : after (.ld 3 1 2 0) (withRegs (returning 0 .user) [(1, 0x4002)]) (fun t => t.me.trap.tcause == 3 && t.me.trap.tval == 0x4002) = true := by
  decide +kernel
/-- R91: rd takes the old word, sign-extended. -/
theorem test_amo_old_value : after (.amoFmaxu 3 1 2 false 0 0) (ofDie (withRegs (cached 0xBF) [(1, 0x4000), (2, 7)]) fun d => { d with mem := { d.mem with
    bytes := ssetAll 0 d.mem.bytes 0x4000 [0, 0, 0, 0x80] } }) (fun t => t.reg 3 == 0xFFFFFFFF80000000 && sget 0 t.die.mem.bytes 0x4003 == 0x80) = true := by
  decide +kernel
theorem test_cas_fails : after (.cas 3 1 2 true 0 0) (withRegs (cached 0xBF) [(1, 0x4000), (2, 7), (3, 9)]) (fun t =>
    t.reg 3 == 0 && sget 0 t.die.mem.bytes 0x4000 == 0) = true := by decide +kernel

/-- 1 + 2 = 3 in f32, exact. -/
theorem test_fadd_f32 : after (.fadd 3 1 2 0 false) (ab 0x3F800000 0x40000000) (fun t => t.reg 3 == 0x40400000 && t.me.fcsr == 0) = true := by decide +kernel
/-- 1 / 3 in f32 rounds up to 0x3EAAAAAB, inexact. -/
theorem test_fdiv_inexact : after (.fdiv 3 1 2 0 false) (ab 0x3F800000 0x40400000) (fun t => t.reg 3 == 0x3EAAAAAB && t.me.fcsr == fNX.zeroExtend 9) = true := by
  decide +kernel
/-- With RZ it is truncated. -/
theorem test_fdiv_toward_zero : after (.fdiv 3 1 2 0 true) (ab 0x3F800000 0x40400000) (fun t => t.reg 3 == 0x3EAAAAAA) = true := by decide +kernel
theorem test_fmin_signed_zero : after (.fmin 3 1 2 0) (ab 0 0x80000000) (fun t => t.reg 3 == 0x80000000) = true := by decide +kernel

theorem test_jal_links : after (.jal 0x3FFFFFF) (base 0) (fun t => t.me.pc == 0xFFC && t.reg 1 == 0x1004) = true := by decide +kernel
theorem test_jalr_misaligned : after (.jalr 3 1 2) (withRegs (returning 0 .user) [(1, 0x2000)]) (fun t => t.me.trap.tcause == 3 && t.me.trap.tval == 0x2002
    && t.reg 3 == 0) = true := by decide +kernel
theorem test_bltu_taken : after (.bltu 1 2 3) (ab 1 2) (fun t => t.me.pc == 0x100C) = true := by decide +kernel
/-- R18, R101: from user to VF supervisor. -/
theorem test_ecall_enters_supervisor : after .ecall atRoot (fun t => t.me.priv == .supervisor && t.me.pc == 0x2000 && t.me.trap.tcause == 8 && t.me.trap.tpc == 0x1000
    && t.me.trap.hold) = true := by decide +kernel
theorem test_trapret : after .trapret (returning 0x5000 .user) (fun t => t.me.pc == 0x5000 && t.me.priv == .user && !t.me.trap.hold) = true := by decide +kernel
/-- R20: STVEC loses its low bits; R19: FTVEC is firmware's. -/
theorem test_csrw_stvec : after (.csrw 1 0x100) (ab 0x1237 0) (fun t => t.me.trap.stvec == 0x1234) = true := by decide +kernel
theorem test_csrr_privilege : after (.csrr 3 0x300) atRoot (fun t => t.me.trap.tcause == 2) = true := by decide +kernel

/-- G·VLMAX is 256 with four lane groups. -/
theorem test_setvl_clamps : after (.setvl 3 1 true) (ab 1000 0) (fun t => t.me.ctx.vl == 256 && t.reg 3 == 256) = true := by decide +kernel
theorem test_vadd_wraps_parts : after (.vadd 1 2 3 false) (lanesOf .i16 [0x7FFFFFFF] [0x00010001])
    (fun t => sget 0 t.me.ctx.v 256 == 0x80000000) = true := by decide +kernel
theorem test_vsadd_saturates_parts : after (.vsadd 1 2 3 false) (lanesOf .i16 [0x7FFFFFFF] [0x00010001])
    (fun t => sget 0 t.me.ctx.v 256 == 0x7FFF0000) = true := by decide +kernel
theorem test_vadd_mismatch : after (.vadd 1 2 3 false) (onMe (lanesOf .raw [1] [2]) fun t => { t with trap := rootStrand.trap })
    (fun t => t.me.trap.tcause == 0x20) = true := by decide +kernel
theorem test_vslideup : after (.vslideup 1 2 1) (withRegs (lanesOf .i32 [5, 6, 7, 8] []) [(1, 2)])
    (fun t => (List.range 4).map (fun i => sget 0 t.me.ctx.v (256 + i)) == [0, 0, 5, 6]) = true := by decide +kernel
theorem test_vredsum : after (.vredsum 3 2 1 false) (withRegs (lanesOf .i32 [5, 0xFFFFFFFF, 7, 8] []) [(1, 100)]) (fun t => t.reg 3 == 119) = true := by decide +kernel
theorem test_vcmplt_word : after (.vcmplt 2 2 3) (lanesOf .i32 [1, 5, 0xFFFFFFFF, 0] [2, 5, 0, 0]) (fun t => sget 0 t.me.ctx.masks 2 == 5) = true := by decide +kernel
/-- 2 × 3 into cell (0, 0). -/
theorem test_mopa_f32 : after (.mopa 0 2 3 0 0 false false) (lanesOf .f32 [0x40000000] [0x40400000]) (fun t => sget 0 t.me.ctx.tiles 0 == 0x40C00000) = true := by
  decide +kernel

/-- R57: the word 0 is illegal; TVAL is the word. -/
theorem test_step_illegal : stepped (onMe (base 0) fun t => { t with trap := rootStrand.trap }) (fun t => t.me.trap.tcause == 1 && t.me.trap.tval == 0
    && t.me.pc == 0x3000) = true := by decide +kernel
/-- A step of `addi s5, s6, -4`. -/
theorem test_step_addi : stepped (base 0x14A6FFFC) (fun t => t.me.reg 5 == 0xFFFFFFFFFFFFFFFC && t.me.pc == 0x1004) = true := by decide +kernel
/-- SEND to core 1 appends its message. -/
theorem test_send : after (.send 3 1 2) (ab 1 0x4000) (fun t => ((coreOf t 1).handlers.map fun m => m.target) == [0x4000] && t.me.pc == 0x1004) = true := by decide +kernel
/-- The last arrival of two advances the phase. -/
theorem test_bararv_completes : after (.bararv 3 3) (member 0x40000201 ⟨0x102, 2, 2, 1, 41⟩) (fun t => t.reg 3 == 41
    && (sget Barrier.free t.die.barriers (counterKey 0 0x40000201)).phase == 42) = true := by decide +kernel
/-- A ferry FILL of 8 bytes. -/
theorem test_ferry_fill : after (.ferryFill 0) (queued (command 0 [0, 4, 0x0807060504030201, 0x2002, 8, 0, 0, 0])) (fun t =>
    (List.range 10).map (fun i => (sget 0 t.die.mem.bytes (0x2001 + i)).toNat) == [0, 1, 2, 3, 4, 5, 6, 7, 8, 0]) = true := by decide +kernel

end Sys2Proof.Tests
end

section
/-! Laws of the memory-mapped registers, and what a write of each of firmware's registers does (R11, R300, R403 to R406, R418, R425, R427,
R434, R435). -/

namespace Sys2Proof.Machine

/-! ### Memory-mapped registers -/

/-- A register reads as the 64 bits that were written. -/
@[simp] theorem Die.reg_setReg_same (d : Die) (a v : Nat) : (d.setReg a v).reg a = v % 2 ^ 64 := by
  rw [Die.reg, Die.setReg, sget_sset_same, BitVec.xor_assoc, BitVec.xor_self, BitVec.xor_zero, BitVec.toNat_ofNat]

theorem Die.reg_setReg_other (d : Die) {a b : Nat} (v : Nat) (h : b ≠ a) : (d.setReg a v).reg b = d.reg b := by
  rw [Die.reg, Die.setReg, sget_sset_other _ h, Die.reg]

theorem Die.reg_lt (d : Die) (a : Nat) : d.reg a < 2 ^ 64 := BitVec.isLt _

/-- A register takes the low 64 bits of what is written. -/
@[simp] theorem Die.setReg_mod (d : Die) (a v : Nat) : d.setReg a (v % 2 ^ 64) = d.setReg a v := by
  have h : BitVec.ofNat 64 (v % 2 ^ 64) = BitVec.ofNat 64 v := BitVec.eq_of_toNat_eq (Nat.mod_mod ..)
  rw [Die.setReg, Die.setReg, h]

/-- A write of the whole doubleword keeps nothing of the register (R11). -/
theorem regMerge_doubleword {rw a v : Nat} (hrw : rw < 2 ^ 64) (ha : a % 8 = 0) (hv : v < 2 ^ 64) : regMerge rw a 8 v = v := by
  have hmin : Nat.min 63 63 = 63 := rfl
  simp only [regMerge, putBits, bits, ha, hmin]
  omega

theorem regMerge_reg {d : Die} {a v : Nat} (ha : a % 8 = 0) (hv : v < 2 ^ 64) : regMerge (d.reg a) a 8 v = v :=
  regMerge_doubleword (d.reg_lt a) ha hv

/-- A choice between two targets names a register by one branch or the other. -/
theorem Target.ite_eq_mmio {p : Prop} [Decidable p] {x y : Target} :
    (if p then x else y) = .mmio ↔ p ∧ x = .mmio ∨ ¬p ∧ y = .mmio := by
  by_cases h : p
  · rw [if_pos h]
    exact ⟨fun hx => .inl ⟨h, hx⟩, fun hxy => hxy.elim And.right fun hn => absurd h hn.1⟩
  · rw [if_neg h]
    exact ⟨fun hy => .inr ⟨h, hy⟩, fun hxy => hxy.elim (fun hp => absurd hp.1 h) And.right⟩

/-- The addresses of the twelve register blocks (R300, Table 16.5). -/
theorem Die.target_eq_mmio_iff (d : Die) (a : Nat) : d.target a = .mmio ↔ 0x200001000000 ≤ a ∧ a < 0x20000D000000 := by
  simp only [Die.target, Target.ite_eq_mmio, reduceCtorEq, and_false, and_true, false_or, or_false]
  omega

/-! ### Ring control registers (Table 18.10) -/

/-- LOG2N of a ring after a write of its control register: it stays while EN is 1 (Table 18.10). -/
def Die.ringLog (d : Die) (a v : Nat) : Nat := if d.reg a % 2 = 1 then bits (d.reg a) 11 8 else bits v 11 8

theorem Die.ringLog_lt (d : Die) (a v : Nat) : d.ringLog a v < 16 := by
  unfold Die.ringLog bits; split <;> exact Nat.mod_lt _ (by decide)

/-- The control register of a ring after a write: EN, LOG2N and BASE, and zero elsewhere (Table 18.10). -/
theorem Die.ringControlWrite_control (d : Die) {a wp : Nat} (v : Nat) (hwp : a ≠ wp) :
    (d.ringControlWrite a wp v).reg a = v / 2 ^ 12 % 2 ^ 36 * 2 ^ 12 + d.ringLog a v * 256 + v % 2 := by
  have hlog := d.ringLog_lt a v
  have hset : (d.setReg a (v / 2 ^ 12 % 2 ^ 36 * 2 ^ 12 + d.ringLog a v * 256 + v % 2)).reg a
      = v / 2 ^ 12 % 2 ^ 36 * 2 ^ 12 + d.ringLog a v * 256 + v % 2 := by
    rw [Die.reg_setReg_same]; exact Nat.mod_eq_of_lt (by omega)
  unfold Die.ringControlWrite
  dsimp only
  split
  · rw [Die.reg_setReg_other _ _ hwp]; exact hset
  · exact hset

/-- The write pointer of a ring after a write of its control register: an enable starts it at zero (Table 18.10). -/
theorem Die.ringControlWrite_pointer (d : Die) {a wp : Nat} (v : Nat) (hwp : wp ≠ a) :
    (d.ringControlWrite a wp v).reg wp = if d.reg a % 2 = 0 ∧ v % 2 = 1 then 0 else d.reg wp := by
  unfold Die.ringControlWrite
  dsimp only
  split
  · exact (Die.reg_setReg_same _ _ _).trans (Nat.zero_mod _)
  · exact Die.reg_setReg_other _ _ hwp

theorem Die.ringControlWrite_other (d : Die) {a wp b : Nat} (v : Nat) (ha : b ≠ a) (hwp : b ≠ wp) :
    (d.ringControlWrite a wp v).reg b = d.reg b := by
  unfold Die.ringControlWrite
  dsimp only
  split
  · rw [Die.reg_setReg_other _ _ hwp, Die.reg_setReg_other _ _ ha]
  · exact Die.reg_setReg_other _ _ ha

/-- A write of a ring's control register changes registers alone. -/
theorem Die.ringControlWrite_die (d : Die) (a wp v : Nat) :
    d.ringControlWrite a wp v = { d with mmio := (d.ringControlWrite a wp v).mmio } := by
  unfold Die.ringControlWrite
  dsimp only
  split <;> rfl

section Partitions
/-! ### Partitions (R404) -/

open Sys2Proof.Claims

theorem mem_partitions {p : Nat} : p ∈ partitions ↔ 1 ≤ p ∧ p ≤ 12 := by
  simp only [partitions, List.mem_map, List.mem_range]
  exact ⟨by rintro ⟨q, hq, rfl⟩; omega, fun h => ⟨p - 1, by omega, by omega⟩⟩

/-- A running total is the sum of what it adds. -/
theorem foldl_total (f : Nat → Nat) (l : List Nat) : l.foldl (fun n x => n + f x) 0 = (l.map f).sum := by
  rw [List.sum_eq_foldl, List.foldl_map]

/-- A partition in an active order, as its source or its receiver (R404). -/
theorem Die.inOrder_iff (d : Die) (p : Nat) :
    d.inOrder p = true ↔ ∃ q, 1 ≤ q ∧ q ≤ 12 ∧ activeOrder d q ∧ (q = p ∨ regField d (slotCtl q) 24 4 = p) := by
  have slots (q : Nat) : clrAddr q + 0x18 = slotCtl q := by unfold clrAddr slotCtl; omega
  simp only [Die.inOrder, List.any_eq_true, mem_partitions, Die.clrActive, slots, Bool.and_eq_true, Bool.or_eq_true, beq_iff_eq, and_assoc]
  rfl

/-- The registers of two partitions are apart exactly where no clash between them stands (R404). -/
theorem Die.partitionsApart_iff (d : Die) :
    (partitions.all fun p => partitions.all fun q => p == q ||
      (d.reg (pcluAddr p) &&& d.reg (pcluAddr q) == 0 && bits (d.reg (presAddr p)) 15 0 &&& bits (d.reg (presAddr q)) 15 0 == 0)) = true ↔
    ¬∃ p < 13, ∃ q < 13, p ≠ 0 ∧ q ≠ 0 ∧ p ≠ q
      ∧ (meets (d.reg (pclu p)) (d.reg (pclu q)) ∨ meets (regField d (pres p) 0 16) (regField d (pres q) 0 16)) := by
  have hpres (p : Nat) : presAddr p = pres p := by unfold presAddr pcluAddr pres; omega
  have hcol (p : Nat) : bits (d.reg (presAddr p)) 15 0 = regField d (pres p) 0 16 := by rw [hpres]; rfl
  have hclu (p : Nat) : pcluAddr p = pclu p := rfl
  simp only [List.all_eq_true, mem_partitions, Bool.or_eq_true, Bool.and_eq_true, beq_iff_eq, hcol, hclu]
  constructor
  · rintro h ⟨p, hp, q, hq, hp0, hq0, hpq, hm⟩
    obtain heq | ⟨hc, hr⟩ := h p ⟨by omega, by omega⟩ q ⟨by omega, by omega⟩
    · exact hpq heq
    · exact hm.elim (· hc) (· hr)
  · intro h p hp q hq
    refine Decidable.byContradiction fun hn => ?_
    have hn := not_or.1 hn
    exact h ⟨p, by omega, q, by omega, by omega, by omega, hn.1, Decidable.not_and_iff_or_not.1 hn.2⟩

/-- The slots of every class stay within 32 exactly where no class clashes (R404). -/
theorem Die.slotsWithin_iff (d : Die) :
    (d.engineClasses.all fun e => decide (partitions.foldl (fun n p => n + d.slotsOf p e) 0 ≤ 32)) = true ↔
    ¬∃ e ∈ [24, 30, 36, 42, 48], 32 < ((List.range 12).map fun p => regField d (pres (p + 1)) e 6).sum := by
  have total (e : EngineClass) : partitions.foldl (fun n p => n + d.slotsOf p e) 0
      = ((List.range 12).map fun p => regField d (pres (p + 1)) e.pres 6).sum := by
    have hbits (p : Nat) : d.slotsOf p e = regField d (pres p) e.pres 6 := by
      have hw : e.pres + 5 + 1 - e.pres = 6 := by omega
      have ha : presAddr p = pres p := by unfold presAddr pcluAddr pres; omega
      rw [Die.slotsOf, bits, hw, ha]; rfl
    rw [foldl_total, partitions, List.map_map]
    simp only [Function.comp_def, hbits]
  simp only [Die.engineClasses, List.all_cons, List.all_nil, total, Bool.and_true, Bool.and_eq_true, decide_eq_true_eq, List.mem_cons,
    List.not_mem_nil, or_false, exists_eq_or_imp, exists_eq_left, not_or, Nat.not_lt]

/-- The registers are legal exactly where no two partitions clash. -/
theorem Die.partitionsLegal_iff (d : Die) : d.partitionsLegal = true ↔ ¬partitionClash d := by
  unfold Die.partitionsLegal partitionClash
  rw [Bool.and_eq_true, d.partitionsApart_iff, d.slotsWithin_iff, not_or]

end Partitions

end Sys2Proof.Machine
end

section
/-! What a key regeneration does to the L2 (R406, R425). -/

namespace Sys2Proof.Machine

/-- Reading a sparse list gives the value of an entry of that key, or the default. -/
theorem sget_mem_or_default {α : Type} (d : α) (m : List (Nat × α)) (a : Nat) : (a, sget d m a) ∈ m ∨ sget d m a = d := by
  induction m with
  | nil => exact .inr rfl
  | cons e t ih =>
    by_cases h : a = e.1
    · exact .inl (by subst h; simp [sget])
    · exact ih.imp (fun hm => by simp [sget, h, hm]) (by simp [sget, h])

theorem Mem.restore_lines (m : Mem) (k : Nat) : (m.restore k).lines = m.lines := by unfold Mem.restore; split <;> rfl
theorem Mem.restore_gens (m : Mem) (k : Nat) : (m.restore k).gens = m.gens := by unfold Mem.restore; split <;> rfl

/-- Restoring the dirty sectors of a line changes neither the lines of the L2 nor the key generations. -/
theorem Mem.restoreDirty_lines_gens (m : Mem) (n : Nat) (l : Line) (ks : List Nat) :
    (ks.foldl (fun m k => if l.dirty.getLsbD k then m.restore (4 * n + k) else m) m).lines = m.lines
      ∧ (ks.foldl (fun m k => if l.dirty.getLsbD k then m.restore (4 * n + k) else m) m).gens = m.gens := by
  induction ks generalizing m with
  | nil => exact ⟨rfl, rfl⟩
  | cons k ks ih =>
    rw [List.foldl_cons]
    split
    · rw [(ih _).1, (ih _).2, Mem.restore_lines, Mem.restore_gens]; exact ⟨rfl, rfl⟩
    · exact ih m

theorem Die.dropLine_lines (d : Die) (n : Nat) : (d.dropLine n).mem.lines = sdel d.mem.lines n :=
  congrArg (sdel · n) (Mem.restoreDirty_lines_gens d.mem n (sget Line.none d.mem.lines n) (List.range 4)).1

theorem Die.dropLine_gens (d : Die) (n : Nat) : (d.dropLine n).mem.gens = d.mem.gens :=
  (Mem.restoreDirty_lines_gens d.mem n (sget Line.none d.mem.lines n) (List.range 4)).2

/-- Dropping lines changes memory alone. -/
theorem Die.dropLines_die (ns : List Nat) (d : Die) : ns.foldl Die.dropLine d = { d with mem := (ns.foldl Die.dropLine d).mem } := by
  induction ns generalizing d with
  | nil => rfl
  | cons n ns ih => rw [List.foldl_cons, ih]; rfl

theorem Die.dropLines_gens (ns : List Nat) (d : Die) : (ns.foldl Die.dropLine d).mem.gens = d.mem.gens := by
  induction ns generalizing d with
  | nil => rfl
  | cons n ns ih => rw [List.foldl_cons, ih, d.dropLine_gens]

/-- A dropped line is gone and every other is as it was. -/
theorem Die.dropLines_line (ns : List Nat) (d : Die) (k : Nat) :
    sget Line.none (ns.foldl Die.dropLine d).mem.lines k = if k ∈ ns then Line.none else sget Line.none d.mem.lines k := by
  induction ns generalizing d with
  | nil => rfl
  | cons n ns ih =>
    rw [List.foldl_cons, ih, d.dropLine_lines]
    by_cases hk : k = n
    · subst hk; simp [sget_sdel_same]
    · simp [hk, sget_sdel_other]

/-- The lines of the L2 that an owner holds (R425). -/
def Die.linesOf (d : Die) (o : Nat) : List Nat := (d.mem.lines.filter fun e => e.2.owner == o).map (·.1)

theorem Die.mem_linesOf {d : Die} {o n : Nat} : n ∈ d.linesOf o ↔ ∃ e ∈ d.mem.lines, e.1 = n ∧ e.2.owner = o := by
  simp only [Die.linesOf, List.mem_map, List.mem_filter, beq_iff_eq]
  exact ⟨fun ⟨e, ⟨he, ho⟩, hn⟩ => ⟨e, he, hn, ho⟩, fun ⟨e, he, hn, ho⟩ => ⟨e, ⟨he, ho⟩, hn⟩⟩

/-- A line that reads as an owner's is listed among that owner's, or is no line. -/
theorem Die.mem_linesOf_or_none {d : Die} {o n : Nat} (h : (sget Line.none d.mem.lines n).owner = o) :
    n ∈ d.linesOf o ∨ sget Line.none d.mem.lines n = Line.none :=
  (sget_mem_or_default Line.none d.mem.lines n).imp_left fun hm => Die.mem_linesOf.2 ⟨_, hm, rfl, h⟩

/-- A regeneration while the last one is under way does nothing (R425). -/
theorem Die.keyRegen_busy {d : Die} {o : Nat} (h : bits (d.reg (mkeyAddr o)) 1 1 = 1) : d.keyRegen o = d := if_pos h

/-- A regeneration that begins sets BUSY, drops the owner's lines and counts a new key (R425). -/
theorem Die.keyRegen_idle {d : Die} {o : Nat} (h : bits (d.reg (mkeyAddr o)) 1 1 ≠ 1) :
    d.keyRegen o = { d.setReg (mkeyAddr o) 2 with mem := { ((d.linesOf o).foldl Die.dropLine (d.setReg (mkeyAddr o) 2)).mem with
      gens := sset 0 d.mem.gens o (sget 0 d.mem.gens o + 1) } } := by
  have hk : d.keyRegen o =
      (let d' := (d.linesOf o).foldl Die.dropLine (d.setReg (mkeyAddr o) 2)
       { d' with mem := { d'.mem with gens := sset 0 d'.mem.gens o (sget 0 d'.mem.gens o + 1) } }) := if_neg h
  rw [hk, Die.dropLines_die]
  simp only [Die.dropLines_gens, Die.setReg_mem]

end Sys2Proof.Machine
end

section
/-! What a write of a register of firmware does, an event at a time, and which event a write of 8 bytes by firmware is (R11, R89, R300). -/

namespace Sys2Proof.Claims

open Sys2Proof.Machine

variable (s : State)

/-! ### The events -/

/-- An event that leaves the die as it is where `p` holds, and makes it `d` elsewhere. -/
theorem exec_ignored_or_written {s : State} {i : Instr} {p : Prop} [Decidable p] {d d' : Die} (hd : d' = if p then s.die else d)
    (hexec : exec i s = .next (onDie s d')) : (p → exec i s = .next s) ∧ (¬p → exec i s = .next (onDie s d)) := by
  constructor
  · intro h; rw [hexec, hd, if_pos h]; rfl
  · intro h; rw [hexec, hd, if_neg h]

/-- A write of `VFP` (R404). -/
theorem exec_vfpWrite {n : Nat} (v : Nat) (hn : n < 256) :
    exec (.partitionRegisterWrite (0x200006110000 + 8 * n) v) s
      = .next (withReg s (0x200006110000 + 8 * n) (v / 2 ^ 5 % 4 * 32 + if 13 ≤ v % 16 then 0 else v % 16)) := by
  have ha : (0x200006110000 + 8 * n) / 8 * 8 = 0x200006110000 + 8 * n := by omega
  have hpart : bits v 3 0 = v % 16 := by simp [bits]
  have hw : s.die.partitionWrite (0x200006110000 + 8 * n) v
      = s.die.setReg (0x200006110000 + 8 * n) (v / 2 ^ 5 % 4 * 32 + if 13 ≤ v % 16 then 0 else v % 16) := by
    simp only [Die.partitionWrite, ha, hpart]
    exact if_pos (by omega)
  exact congrArg (Host.Outcome.next ∘ onDie s) hw

/-- The die after a write of `PCLU` or `PRES`: all of it or nothing (R404). -/
theorem partitionWrite_partition (d : Die) {p a : Nat} (v : Nat) (h1 : 1 ≤ p) (h12 : p ≤ 12) (ha : a = pclu p ∨ a = pres p) :
    d.partitionWrite a v =
      (let d' := d.setReg a (if a = pclu p then v else v % 2 ^ 54)
       if d.inOrder p || !d'.partitionsLegal then d else d') := by
  have hpa : a = 0x200006100000 + 64 * p ∨ a = 0x200006100008 + 64 * p := ha
  have haligned : a / 8 * 8 = a := by omega
  have hvfp : ¬(0x200006110000 ≤ a ∧ a < 0x200006110800) := by omega
  have hp : (a - 0x200006100000) / 64 = p := by omega
  have hin : 0x200006100000 ≤ a ∧ 1 ≤ p ∧ p ≤ 12 ∧ a % 64 ≤ 8 := by omega
  have hlow : a % 64 = 0 ↔ a = pclu p := by unfold pclu; omega
  have hv : d.setReg a (if a = pclu p then v % 2 ^ 64 else v % 2 ^ 54) = d.setReg a (if a = pclu p then v else v % 2 ^ 54) := by
    split
    · exact d.setReg_mod a v
    · rfl
  simp only [Die.partitionWrite, haligned, if_neg hvfp, hp, if_pos hin, hlow, hv]

/-- A write of `PCLU` or `PRES` (R404). -/
theorem exec_partitionWrite {p a : Nat} (v : Nat) (h1 : 1 ≤ p) (h12 : p ≤ 12) (ha : a = pclu p ∨ a = pres p) :
    let r := withReg s a (if a = pclu p then v else v % 2 ^ 54)
    let busy := ∃ q, 1 ≤ q ∧ q ≤ 12 ∧ activeOrder s.die q ∧ (q = p ∨ regField s.die (slotCtl q) 24 4 = p)
    (busy ∨ partitionClash r.die → exec (.partitionRegisterWrite a v) s = .next s)
      ∧ (¬busy → ¬partitionClash r.die → exec (.partitionRegisterWrite a v) s = .next r) := by
  intro r busy
  have hw : s.die.partitionWrite a v = if s.die.inOrder p || !r.die.partitionsLegal then s.die else r.die :=
    partitionWrite_partition s.die v h1 h12 ha
  have hrefused : (s.die.inOrder p || !r.die.partitionsLegal) = true ↔ busy ∨ partitionClash r.die := by
    rw [Bool.or_eq_true, Bool.not_eq_true', ← Bool.not_eq_true, s.die.inOrder_iff p, r.die.partitionsLegal_iff, Classical.not_not]
  obtain ⟨hignored, hwritten⟩ := exec_ignored_or_written (i := .partitionRegisterWrite a v) hw rfl
  exact ⟨fun h => hignored (hrefused.2 h), fun hb hc => hwritten fun h => (hrefused.1 h).elim hb hc⟩

/-- A write of an access table (R403, R405). -/
theorem exec_accessTableWrite {t w : Nat} (v : Nat) (ht : t ≤ 0x4C7) (hw : w < 16) :
    exec (.accessTableWrite (0x200006000000 + 128 * t + 8 * w) v) s
      = .next (withReg s (0x200006000000 + 128 * t + 8 * w) (if w = 0 then v % 2 ^ 26 else if w < 8 then 0 else v)) := by
  generalize ha : 0x200006000000 + 128 * t + 8 * w = a
  have haligned : a / 8 * 8 = a := by omega
  have htable : (a - 0x200006000000) / 128 = t := by omega
  have hword : a / 8 % 16 = w := by omega
  have hbits : s.die.setReg a (if w = 0 then v % 2 ^ 26 else if w < 8 then 0 else v % 2 ^ 64)
      = s.die.setReg a (if w = 0 then v % 2 ^ 26 else if w < 8 then 0 else v) := by
    split
    · rfl
    · split
      · rfl
      · exact s.die.setReg_mod a v
  have hacc : s.die.accessWrite a v = s.die.setReg a (if w = 0 then v % 2 ^ 26 else if w < 8 then 0 else v) := by
    simp only [Die.accessWrite, haligned, htable, hword, hbits]
    exact if_pos (by omega)
  exact congrArg (Host.Outcome.next ∘ onDie s) hacc

/-- A write of `CLRLOG` (R418). -/
theorem exec_clrlogWrite (v : Nat) :
    ∃ t, exec (.clrlogWrite v) s = .next t ∧ sameStrands s t ∧ t.die = { s.die with mmio := t.die.mmio }
      ∧ regsKept s.die t.die [0x200007001000, 0x200007001008]
      ∧ (let old := regField s.die 0x200007001000 0 1
         regField t.die 0x200007001000 0 1 = v % 2 ∧ regField t.die 0x200007001000 12 36 = v / 2 ^ 12 % 2 ^ 36
         ∧ regField t.die 0x200007001000 8 4 = (if old = 1 then regField s.die 0x200007001000 8 4 else v / 2 ^ 8 % 16)
         ∧ regField t.die 0x200007001000 1 7 = 0 ∧ regField t.die 0x200007001000 48 16 = 0
         ∧ t.die.reg 0x200007001008 = if old = 0 ∧ v % 2 = 1 then 0 else s.die.reg 0x200007001008) := by
  have hold : regField s.die 0x200007001000 0 1 = s.die.reg 0x200007001000 % 2 := by simp [regField]
  have hexec : exec (.clrlogWrite v) s = .next (onDie s (s.die.ringControlWrite 0x200007001000 0x200007001008 v)) := rfl
  refine ⟨_, hexec, ⟨rfl, rfl, rfl, rfl⟩, Die.ringControlWrite_die .., fun a ha => ?_, ?_⟩
  · exact Die.ringControlWrite_other _ _ (fun h => ha (by simp [h])) (fun h => ha (by simp [h]))
  · have hctl := s.die.ringControlWrite_control (a := 0x200007001000) (wp := 0x200007001008) v (by decide)
    have hwp := s.die.ringControlWrite_pointer (a := 0x200007001000) (wp := 0x200007001008) v (by decide)
    have hlog := s.die.ringLog_lt 0x200007001000 v
    have hlogv : s.die.ringLog 0x200007001000 v = if s.die.reg 0x200007001000 % 2 = 1 then regField s.die 0x200007001000 8 4 else v / 2 ^ 8 % 16 := rfl
    rw [hold]
    dsimp only
    rw [← hlogv]
    refine ⟨?_, ?_, ?_, ?_, ?_, hwp⟩
    all_goals
      show (s.die.ringControlWrite 0x200007001000 0x200007001008 v).reg 0x200007001000 / _ % _ = _
      rw [hctl]
      omega

theorem exec_mkeyRegen {o : Nat} (ho : o < 512) : exec (.mkeyRegen o) s = .next (onDie s (s.die.keyRegen o)) :=
  congrArg (fun n => Host.Outcome.next (onDie s (s.die.keyRegen n))) (Nat.mod_eq_of_lt ho)

/-- A start of a key regeneration while one is under way (R425). -/
theorem exec_mkeyRegen_busy {o : Nat} (ho : o < 512) (h : regField s.die (0x200008008000 + 8 * o) 1 1 = 1) :
    exec (.mkeyRegen o) s = .next s := by
  have hk : s.die.keyRegen o = s.die := Die.keyRegen_busy h
  rw [exec_mkeyRegen s ho, hk]
  rfl

/-- A start of a key regeneration (R406, R425). -/
theorem exec_mkeyRegen_idle {o : Nat} (ho : o < 512) (h : regField s.die (0x200008008000 + 8 * o) 1 1 = 0) :
    ∃ t, exec (.mkeyRegen o) s = .next t ∧ sameStrands s t ∧ t.die = { s.die with mmio := t.die.mmio, mem := t.die.mem }
      ∧ t.die.reg (0x200008008000 + 8 * o) = 2 ∧ regsKept s.die t.die [0x200008008000 + 8 * o]
      ∧ (∀ n, n < 512 → sget 0 t.die.mem.gens n = sget 0 s.die.mem.gens n + if n = o then 1 else 0)
      ∧ (∀ n, (sget Line.none s.die.mem.lines n).owner = o → sget Line.none t.die.mem.lines n = Line.none)
      ∧ (∀ n, (∀ e ∈ s.die.mem.lines, e.1 = n → e.2.owner ≠ o) → sget Line.none t.die.mem.lines n = sget Line.none s.die.mem.lines n) := by
  have hidle : bits (s.die.reg (mkeyAddr o)) 1 1 ≠ 1 := fun hb => absurd (h.symm.trans hb) (by decide)
  have hk := Die.keyRegen_idle hidle
  have hexec : exec (.mkeyRegen o) s = .next (onDie s (s.die.keyRegen o)) := exec_mkeyRegen s ho
  have hlines (n : Nat) : sget Line.none (s.die.keyRegen o).mem.lines n
      = if n ∈ s.die.linesOf o then Line.none else sget Line.none s.die.mem.lines n := by
    rw [hk]; exact Die.dropLines_line _ _ n
  refine ⟨onDie s (s.die.keyRegen o), hexec, ⟨rfl, rfl, rfl, rfl⟩, ?die, ?busy, ?registers, ?keys, ?dropped, ?kept⟩
  case die => rw [hk]; rfl
  case busy => rw [hk]; exact Die.reg_setReg_same ..
  case registers => intro a ha; rw [hk]; exact Die.reg_setReg_other _ _ (fun e => ha (List.mem_singleton.2 e))
  case keys =>
    intro n _
    rw [hk]
    show sget 0 (sset 0 s.die.mem.gens o (sget 0 s.die.mem.gens o + 1)) n = _
    rw [sget_sset]
    split
    · next hn => rw [hn]
    · rfl
  case dropped =>
    intro n hn
    show sget Line.none (s.die.keyRegen o).mem.lines n = _
    rw [hlines]
    split
    · rfl
    · next hm => exact (Die.mem_linesOf_or_none hn).resolve_left hm
  case kept =>
    intro n hn
    show sget Line.none (s.die.keyRegen o).mem.lines n = _
    rw [hlines]
    refine if_neg fun hm => ?_
    obtain ⟨e, he, hen, heo⟩ := Die.mem_linesOf.1 hm
    exact hn e he hen heo

/-- The end of a key regeneration (R425). -/
theorem exec_keyRegenComplete {o : Nat} (ho : o < 512) :
    exec (.keyRegenComplete o) s = .next (withReg s (0x200008008000 + 8 * o) 0) :=
  congrArg (fun n => Host.Outcome.next (withReg s (mkeyAddr n) 0)) (Nat.mod_eq_of_lt ho)

/-- The floors of a controller after a write of one owner's regulator. -/
theorem floors_after_mregWrite (d : Die) (c o v : Nat) (xs : List Nat) :
    xs.foldl (fun n x => n + bits ((d.setReg (mregAddr c o) (v % 2 ^ 48)).reg (mregAddr c x)) 15 0) 0
      = (xs.map fun x => if x = o then v % 2 ^ 16 else regField d (mregAddr c x) 0 16).sum := by
  rw [foldl_total]
  refine congrArg List.sum (List.map_congr_left fun x _ => ?_)
  by_cases hx : x = o
  · rw [hx, if_pos rfl, Die.reg_setReg_same]
    simp only [bits]
    omega
  · have hne : mregAddr c x ≠ mregAddr c o := by unfold mregAddr; omega
    rw [if_neg hx, Die.reg_setReg_other _ _ hne]
    rfl

/-- A write of `MREG` (R427). -/
theorem exec_mregWrite {c o : Nat} (v : Nat) (hc : c < 8) (ho : o < 512) :
    let mreg (x : Nat) : Nat := 0x200008000000 + 0x1000 * c + 8 * x
    let floors := ((List.range 512).map fun x => if x = o then v % 2 ^ 16 else regField s.die (mreg x) 0 16).sum
    (1215 < floors → exec (.mregWrite c o v) s = .next s)
      ∧ (floors ≤ 1215 → exec (.mregWrite c o v) s = .next (withReg s (mreg o) (v % 2 ^ 48))) := by
  intro mreg floors
  have hw : s.die.mregWrite (c % 8) (o % 512) v = if 1215 < floors then s.die else s.die.setReg (mreg o) (v % 2 ^ 48) := by
    have hfloors : ((List.range 512).map fun x => if x = o then v % 2 ^ 16 else regField s.die (mregAddr c x) 0 16).sum = floors := rfl
    simp only [Nat.mod_eq_of_lt hc, Nat.mod_eq_of_lt ho, Die.mregWrite, floors_after_mregWrite, hfloors]
    rfl
  obtain ⟨hignored, hwritten⟩ := exec_ignored_or_written (i := .mregWrite c o v) hw rfl
  exact ⟨hignored, fun h => hwritten (Nat.not_lt.2 h)⟩

/-- A write of `FWHO` (R434). -/
theorem exec_fwhoStart (v : Nat) :
    let held := (List.range s.die.pkg.roles.length).countP fun i => s.die.pkg.roles.getD i 0 % 32 != 0
    let standby := (List.range s.die.pkg.roles.length).countP fun i => s.die.pkg.roles.getD i 0 == 32
    (regField s.die 0x20000A000100 0 2 ≠ 0 → exec (.fwhoStart v) s = .next s)
      ∧ (v % 4 = 1 → standby < held → exec (.fwhoStart v) s = .next s)
      ∧ (regField s.die 0x20000A000100 0 2 = 0 → (v % 4 ≠ 1 ∨ held ≤ standby) →
          exec (.fwhoStart v) s = .next (withReg s 0x20000A000100 (v / 4 % 2 ^ 48 * 4 + if v % 4 = 1 then 1 else 0))) := by
  intro held standby
  have hphase : s.die.phase = regField s.die 0x20000A000100 0 2 := by simp [Die.phase, regField, fwho]
  have hheld : s.die.pkg.active.length = held := List.countP_eq_length_filter.symm
  have hstandby : s.die.pkg.standby.length = standby := List.countP_eq_length_filter.symm
  have himg : 4 * bits v 49 2 = v / 4 % 2 ^ 48 * 4 := Nat.mul_comm ..
  have hw : s.die.fwhoWrite v = if regField s.die 0x20000A000100 0 2 ≠ 0 ∨ (v % 4 = 1 ∧ standby < held) then s.die
      else s.die.setReg 0x20000A000100 (v / 4 % 2 ^ 48 * 4 + if v % 4 = 1 then 1 else 0) := by
    rw [Die.fwhoWrite, hphase, hheld, hstandby, himg]
    rfl
  obtain ⟨hignored, hwritten⟩ := exec_ignored_or_written (i := .fwhoStart v) hw rfl
  refine ⟨fun h => hignored (.inl h), fun h h' => hignored (.inr ⟨h, h'⟩), fun h h' => hwritten ?_⟩
  rintro (hphase' | ⟨hstart, hfew⟩)
  · exact hphase' h
  · exact h'.elim (· hstart) (Nat.not_le.2 hfew)

/-- A write of `PWRCAP` (R435). -/
theorem exec_pwrcapWrite (v : Nat) :
    (v % 2 ^ 16 < 300 ∨ 600 < v % 2 ^ 16 → exec (.pwrcapWrite v) s = .next s)
      ∧ (300 ≤ v % 2 ^ 16 → v % 2 ^ 16 ≤ 600 → exec (.pwrcapWrite v) s = .next (withReg s 0x20000B000000 (v % 2 ^ 16))) := by
  have hw : s.die.pwrcapWrite v = if ¬(300 ≤ v % 2 ^ 16 ∧ v % 2 ^ 16 ≤ 600) then s.die else s.die.setReg 0x20000B000000 (v % 2 ^ 16) :=
    (ite_not ..).symm
  obtain ⟨hignored, hwritten⟩ := exec_ignored_or_written (i := .pwrcapWrite v) hw rfl
  exact ⟨fun h => hignored (by omega), fun h h' => hwritten (Classical.not_not.2 ⟨h, h'⟩)⟩

end Sys2Proof.Claims
end

section
/-! Which event a write of 8 bytes by firmware at a register is, and how a write is refused (R11, R89, R300, R405). -/

namespace Sys2Proof.Claims

open Sys2Proof.Machine

variable (s : State)

/-- A naturally aligned write of an owner: no register there, refused by the block, or at the block (R11, R89). -/
theorem exec_registerWrite_aligned {o a n : Nat} (v : Nat) (ho : o < 512) (hn : n ∈ [1, 2, 4, 8]) (ha : a % n = 0) :
    exec (.registerWrite o a n v) s =
      if s.die.target a ≠ .mmio then .next (onDie s (s.die.errorRecord 0x10 2048 a))
      else if !s.mmioAdmits o .supervisor a true || (o != 0 && !mayWrite o a) then .next (onDie s (s.die.errorRecord 0x12 2048 a))
      else .next (s.regWrite (o == 0) a n v) := by
  have hsize : (if n = 1 ∨ n = 2 ∨ n = 4 then n else 8) = n := by
    simp only [List.mem_cons, List.not_mem_nil, or_false] at hn
    obtain rfl | rfl | rfl | rfl := hn <;> rfl
  have haligned : a / n * n = a := Nat.div_mul_cancel (Nat.dvd_of_mod_eq_zero ha)
  show execRegisterWrite o a n v s = _
  simp only [execRegisterWrite, hsize, haligned, Nat.mod_eq_of_lt ho]
  rfl

/-- A write that reaches no register is an error record with code 0x10 (R89, R300). -/
theorem exec_registerWrite_noRegister {o a n : Nat} (v : Nat) (ho : o < 512) (hn : n ∈ [1, 2, 4, 8]) (ha : a % n = 0)
    (ht : s.die.target a ≠ .mmio) : exec (.registerWrite o a n v) s = .next (onDie s (s.die.errorRecord 0x10 2048 a)) := by
  rw [exec_registerWrite_aligned s v ho hn ha, if_pos ht]

/-- Only the berth rings, the Timetable and the telemetry can be written by an owner that is not firmware (R405). -/
theorem mayWrite_firmwareBlock (o : Nat) {a : Nat} (hb : mmioBlock a ∈ [2, 3, 5, 6, 7, 8, 10, 11, 12]) : mayWrite o a = false := by
  unfold mayWrite
  split
  · next h => simp [h] at hb
  · next h => simp [h] at hb
  · next h => simp [h] at hb
  · rfl

/-- A write that is refused at a block of firmware is an error record with code 0x12 (R89, R405). -/
theorem exec_registerWrite_refused {o a n : Nat} (v : Nat) (ho : o < 512) (hn : n ∈ [1, 2, 4, 8]) (ha : a % n = 0)
    (ht : s.die.target a = .mmio) (ho0 : o ≠ 0) (hb : a / 2 ^ 24 % 2 ^ 8 ∈ [2, 3, 5, 6, 7, 8, 10, 11, 12]) :
    exec (.registerWrite o a n v) s = .next (onDie s (s.die.errorRecord 0x12 2048 a)) := by
  obtain ⟨hlo, hhi⟩ := (Die.target_eq_mmio_iff _ _).1 ht
  have hblock : mmioBlock a = a / 2 ^ 24 % 2 ^ 8 := by unfold mmioBlock; omega
  have hmay : mayWrite o a = false := mayWrite_firmwareBlock o (hblock ▸ hb)
  rw [exec_registerWrite_aligned s v ho hn ha, if_neg (Classical.not_not.2 ht), if_pos (by simp [ho0, hmay])]

/-- A write of 8 bytes by firmware reaches its block (R11, R405). -/
theorem exec_registerWrite_firmware {a : Nat} (v : Nat) (hlo : 0x200001000000 ≤ a) (hhi : a < 0x20000D000000) (ha : a % 8 = 0) :
    exec (.registerWrite 0 a 8 v) s = .next (s.regWrite true a 8 v) := by
  have ht : s.die.target a = .mmio := (Die.target_eq_mmio_iff ..).2 ⟨hlo, hhi⟩
  have hadmits : ¬(!s.mmioAdmits 0 .supervisor a true || ((0 : Nat) != 0 && !mayWrite 0 a)) = true := by simp [State.mmioAdmits]
  rw [exec_registerWrite_aligned s v (by decide) (by decide) ha, if_neg (Classical.not_not.2 ht), if_neg hadmits]
  rfl

/-- A write of 8 bytes by firmware at a register of block `n`. -/
theorem exec_registerWrite_block {a : Nat} (n : Nat) (v : Nat) (hn : 1 ≤ n ∧ n ≤ 12) (hlo : 0x200000000000 + 0x1000000 * n ≤ a)
    (hhi : a < 0x200001000000 + 0x1000000 * n) (ha : a % 8 = 0) :
    exec (.registerWrite 0 a 8 v) s = .next (s.regWrite true a 8 v) ∧ mmioBlock a = n :=
  ⟨exec_registerWrite_firmware s v (by omega) (by omega) ha, by unfold mmioBlock; omega⟩

theorem regWrite_partitionBlock {a : Nat} (f : Bool) (n v : Nat) (hb : mmioBlock a = 6) :
    s.regWrite f a n v = onDie s (if a < 0x200006100000 then s.die.accessWrite a (regMerge (s.die.reg (a / 8 * 8)) a n v)
      else s.die.partitionWrite a (regMerge (s.die.reg (a / 8 * 8)) a n v)) := by
  rw [State.regWrite, hb]
  rfl

theorem regWrite_memoryBlock {a : Nat} (f : Bool) (n v : Nat) (hb : mmioBlock a = 8) :
    s.regWrite f a n v = onDie s (s.die.memoryWrite a n v) := by
  rw [State.regWrite, hb]
  rfl

theorem regWrite_l2Block {a : Nat} (f : Bool) (n v : Nat) (hb : mmioBlock a = 2) :
    s.regWrite f a n v = onDie s (s.die.l2RegWrite a n v) := by
  rw [State.regWrite, hb]
  rfl

/-- A write of 8 bytes by firmware at `PCLU` is the event of a partition register (R404). -/
theorem firmwareWrite_pclu {p v : Nat} (hv : v < 2 ^ 64) (h1 : 1 ≤ p) (h12 : p ≤ 12) :
    exec (.registerWrite 0 (pclu p) 8 v) s = exec (.partitionRegisterWrite (pclu p) v) s := by
  generalize ha : pclu p = a
  have hp : 0x200006100000 + 64 * p = a := ha
  obtain ⟨hw, hb⟩ := exec_registerWrite_block s (a := a) 6 v (by omega) (by omega) (by omega) (by omega)
  have haligned : a / 8 * 8 = a := by omega
  have hpart : ¬a < 0x200006100000 := by omega
  rw [hw, regWrite_partitionBlock s true 8 v hb, haligned, if_neg hpart, regMerge_reg (by omega) hv]
  rfl

/-- A write of 8 bytes by firmware at a word of an access table is its event (R405). -/
theorem firmwareWrite_accessTable {t w v : Nat} (hv : v < 2 ^ 64) (ht : t < 0x4C8) (hw : w < 16) :
    exec (.registerWrite 0 (0x200006000000 + 128 * t + 8 * w) 8 v) s = exec (.accessTableWrite (0x200006000000 + 128 * t + 8 * w) v) s := by
  generalize ha : 0x200006000000 + 128 * t + 8 * w = a
  obtain ⟨hw, hb⟩ := exec_registerWrite_block s (a := a) 6 v (by omega) (by omega) (by omega) (by omega)
  have haligned : a / 8 * 8 = a := by omega
  have htable : a < 0x200006100000 := by omega
  rw [hw, regWrite_partitionBlock s true 8 v hb, haligned, if_pos htable, regMerge_reg (by omega) hv]
  rfl

/-- A write of 8 bytes by firmware at `CLRLOG` is its event (R418). -/
theorem firmwareWrite_clrlog {v : Nat} (hv : v < 2 ^ 64) : exec (.registerWrite 0 0x200007001000 8 v) s = exec (.clrlogWrite v) s := by
  rw [exec_registerWrite_firmware s v (by decide) (by decide) (by decide)]
  show Host.Outcome.next (s.modDie fun d => d.ringControlWrite 0x200007001000 0x200007001008 (regMerge (s.die.reg 0x200007001000) 0x200007001000 8 v)) = _
  rw [regMerge_reg (by decide) hv]
  rfl

/-- A write of 8 bytes by firmware at `MKEY`, with REGEN, starts a key regeneration (R425). -/
theorem firmwareWrite_mkey {o v : Nat} (hv : v < 2 ^ 64) (ho : o < 512) (hodd : v % 2 = 1) :
    exec (.registerWrite 0 (0x200008008000 + 8 * o) 8 v) s = exec (.mkeyRegen o) s := by
  generalize ha : 0x200008008000 + 8 * o = a
  obtain ⟨hw, hb⟩ := exec_registerWrite_block s (a := a) 8 v (by omega) (by omega) (by omega) (by omega)
  have haligned : a / 8 * 8 = a := by omega
  have hmreg : ¬a < 0x200008008000 := by omega
  have hmkey : a < 0x200008009000 := by omega
  have hown : (a - 0x200008008000) / 8 = o := by omega
  have hmerge : regMerge 0 a 8 v % 2 = 1 := by rw [regMerge_doubleword (by decide) (by omega) hv]; exact hodd
  have hregen : s.die.memoryWrite a 8 v = s.die.keyRegen o := by
    simp only [Die.memoryWrite, haligned, if_neg hmreg, if_pos hmkey, if_pos hmerge, hown]
  rw [hw, exec_mkeyRegen s ho, regWrite_memoryBlock s true 8 v hb, hregen]

/-- A write of 8 bytes by firmware at `MREG` is its event (R427). -/
theorem firmwareWrite_mreg {c o v : Nat} (hv : v < 2 ^ 64) (hc : c < 8) (ho : o < 512) :
    exec (.registerWrite 0 (0x200008000000 + 0x1000 * c + 8 * o) 8 v) s = exec (.mregWrite c o v) s := by
  generalize ha : 0x200008000000 + 0x1000 * c + 8 * o = a
  obtain ⟨hw, hb⟩ := exec_registerWrite_block s (a := a) 8 v (by omega) (by omega) (by omega) (by omega)
  have haligned : a / 8 * 8 = a := by omega
  have hmreg : a < 0x200008008000 := by omega
  have hctl : (a - 0x200008000000) / 0x1000 = c % 8 := by omega
  have hown : a / 8 % 512 = o % 512 := by omega
  have hwrite : s.die.memoryWrite a 8 v = s.die.mregWrite (c % 8) (o % 512) v := by
    simp only [Die.memoryWrite, haligned, if_pos hmreg, hctl, hown, regMerge_reg (show a % 8 = 0 by omega) hv]
  rw [hw, regWrite_memoryBlock s true 8 v hb, hwrite]
  rfl

/-- A write of 8 bytes by firmware at `PWRCAP` is its event (R435). -/
theorem firmwareWrite_pwrcap {v : Nat} (hv : v < 2 ^ 64) : exec (.registerWrite 0 0x20000B000000 8 v) s = exec (.pwrcapWrite v) s := by
  rw [exec_registerWrite_firmware s v (by decide) (by decide) (by decide)]
  show Host.Outcome.next (s.modDie fun d => d.pwrcapWrite (regMerge (s.die.reg 0x20000B000000) 0x20000B000000 8 v)) = _
  rw [regMerge_reg (by decide) hv]
  rfl

/-- A write of 8 bytes by firmware at `FWHO` is its event (R434). -/
theorem firmwareWrite_fwho {v : Nat} (hv : v < 2 ^ 64) : exec (.registerWrite 0 0x20000A000100 8 v) s = exec (.fwhoStart v) s := by
  have hlt : s.die.reg 0x20000A000100 / 4 * 4 < 2 ^ 64 := Nat.lt_of_le_of_lt (Nat.div_mul_le_self ..) (s.die.reg_lt _)
  rw [exec_registerWrite_firmware s v (by decide) (by decide) (by decide)]
  show Host.Outcome.next (s.modDie fun d => d.fwhoWrite (regMerge (s.die.reg 0x20000A000100 / 4 * 4) 0x20000A000100 8 v)) = _
  rw [regMerge_doubleword hlt (by decide) hv]
  rfl

/-- A write of 8 bytes by firmware at `L2ERR`, with V, discards what the bank holds (R313). -/
theorem firmwareWrite_l2err {b v : Nat} (hv : v < 2 ^ 64) (hb : b < 128) (hrelease : v / 2 ^ 63 = 1) :
    exec (.registerWrite 0 (0x200002001000 + 8 * b) 8 v) s = exec (.l2errDiscard b) s := by
  generalize ha : 0x200002001000 + 8 * b = a
  obtain ⟨hw, hblock⟩ := exec_registerWrite_block s (a := a) 2 v (by omega) (by omega) (by omega) (by omega)
  have haligned : a / 8 * 8 = a := by omega
  have hcfg : a ≠ l2cfg := by unfold l2cfg; omega
  have herr : 0x200002001000 ≤ a ∧ a < 0x200002001400 := by omega
  have hbank : (a - 0x200002001000) / 8 = b % 128 := by omega
  have hmerge : (regMerge 0 a 8 v).testBit 63 = true := by
    rw [regMerge_doubleword (by decide) (by omega) hv, Nat.testBit_eq_decide_div_mod_eq, hrelease]; rfl
  have hdiscard : s.die.l2RegWrite a 8 v = s.die.l2Discard (b % 128) := by
    simp only [Die.l2RegWrite, haligned, if_neg hcfg, if_pos herr, if_pos hmerge, hbank]
  rw [hw, regWrite_l2Block s true 8 v hblock, hdiscard]
  rfl

end Sys2Proof.Claims
end

section
namespace Sys2Proof.Claims

open Sys2Proof.Machine

/-- Settles O57: each register by the event that a write of it is, and a write of 8 bytes by firmware by the block it reaches. -/
theorem firmwareRegisters : Obligations.FirmwareRegisters := by
  unfold Obligations.FirmwareRegisters
  refine ⟨?vfp, ?partition, ?accessTable, exec_clrlogWrite, ?mkey, ?mreg, exec_fwhoStart, exec_pwrcapWrite, ?firmware, ?refusals⟩
  case vfp => exact fun s n v hn => exec_vfpWrite s v hn
  case partition => exact fun s p a v h1 h12 ha => exec_partitionWrite s v h1 h12 ha
  case accessTable => exact fun s t w v ht hw => exec_accessTableWrite s v ht hw
  case mkey => exact fun s o ho => ⟨exec_mkeyRegen_busy s ho, exec_mkeyRegen_idle s ho, exec_keyRegenComplete s ho⟩
  case mreg => exact fun s c o v hc ho => exec_mregWrite s v hc ho
  case firmware =>
    intro s v hv
    exact ⟨fun p => firmwareWrite_pclu s hv, fun t ht w => firmwareWrite_accessTable s hv ht, firmwareWrite_clrlog s hv,
      fun o => firmwareWrite_mkey s hv, fun c hc o => firmwareWrite_mreg s hv hc, firmwareWrite_pwrcap s hv, firmwareWrite_fwho s hv,
      fun b => firmwareWrite_l2err s hv⟩
  case refusals =>
    exact fun s o a n v ho hn ha => ⟨exec_registerWrite_noRegister s v ho hn ha, exec_registerWrite_refused s v ho hn ha⟩

end Sys2Proof.Claims
end

section
/-! What one rounding picks among the rungs of a rising ladder of naturals, and that `roundAt` picks so among the multiples of a
power of two (R39). Magnitudes are counted in a unit 2 to the `u` in which all that is compared is whole. -/

namespace Sys2Proof.Machine

/-- The modes in which a rounded magnitude never grows: toward zero, and the directed mode that points from the sign toward zero. -/
def Mode.inward (mode : Mode) (neg : Bool) : Bool :=
  match mode with
  | .rne => false
  | .rtz => true
  | .rup => neg
  | .rdn => !neg

/-- Rung `n` of the ladder `v` is what R39 makes of the magnitude `x`, which lies between the rungs `k` and `k + 1`. -/
structure Rounds (mode : Mode) (neg : Bool) (x : Nat) (v : Nat → Nat) (k n : Nat) : Prop where
  lower : v k ≤ x
  upper : x < v (k + 1)
  pick : n = k ∨ n = k + 1
  exact : v k = x → n = k
  inward : mode.inward neg = true → n = k
  outward : mode ≠ .rne → mode.inward neg = false → v k ≠ x → n = k + 1
  down : mode = .rne → n = k → 2 * x ≤ v k + v (k + 1)
  up : mode = .rne → n = k + 1 → v k + v (k + 1) ≤ 2 * x
  tie : mode = .rne → 2 * x = v k + v (k + 1) → n % 2 = 0

/-- The rungs of a ladder rise. -/
def Rising (v : Nat → Nat) : Prop := ∀ i, v i < v (i + 1)

section Ladder

variable {mode : Mode} {neg : Bool} {x : Nat} {v : Nat → Nat} {k n : Nat}

theorem Rising.lt_of_lt (hv : Rising v) {i j : Nat} (h : i < j) : v i < v j := by
  induction h with
  | refl => exact hv i
  | step _ ih => exact Nat.lt_trans ih (hv _)

theorem Rising.le_of_le (hv : Rising v) {i j : Nat} (h : i ≤ j) : v i ≤ v j := by
  rcases Nat.lt_or_eq_of_le h with hlt | rfl
  · exact Nat.le_of_lt (hv.lt_of_lt hlt)
  · exact Nat.le_refl _

/-- Every rung but one is strictly on one side of it. -/
theorem Rising.ne_of_ne (hv : Rising v) {i j : Nat} (h : i ≠ j) : v i ≠ v j := by
  rcases Nat.lt_or_gt_of_ne h with hlt | hlt
  · exact Nat.ne_of_lt (hv.lt_of_lt hlt)
  · exact Nat.ne_of_gt (hv.lt_of_lt hlt)

/-- Every rung is at or below the one under the value, or at or above the one over it. -/
theorem Rising.le_or_succ_le (hv : Rising v) (j k : Nat) : v j ≤ v k ∨ v (k + 1) ≤ v j := by
  rcases Nat.lt_or_ge k j with hj | hj
  · exact .inr (hv.le_of_le hj)
  · exact .inl (hv.le_of_le hj)

/-- A rounding on one ladder is one on another that has the same two rungs an even number of places further up. -/
theorem Rounds.shift (h : Rounds mode neg x v k n) {w : Nat → Nat} {off : Nat} (heven : off % 2 = 0) (hlo : w (off + k) = v k)
    (hhi : w (off + (k + 1)) = v (k + 1)) : Rounds mode neg x w (off + k) (off + n) where
  lower := hlo ▸ h.lower
  upper := by rw [Nat.add_assoc, hhi]; exact h.upper
  pick := by have := h.pick; omega
  exact he := by rw [h.exact (hlo ▸ he)]
  inward hi := by rw [h.inward hi]
  outward hm hi he := by rw [h.outward hm hi (hlo ▸ he), Nat.add_assoc]
  down hm hn := by rw [Nat.add_assoc, hlo, hhi]; exact h.down hm (by omega)
  up hm hn := by rw [Nat.add_assoc, hlo, hhi]; exact h.up hm (by omega)
  tie hm ht := by
    rw [Nat.add_assoc, hlo, hhi] at ht
    have := h.tie hm ht
    omega

/-- The rung picked is the value itself exactly where the rung below it is. -/
theorem Rounds.eq_iff (h : Rounds mode neg x v k n) : v n = x ↔ v k = x := by
  constructor
  · intro hn
    rcases h.pick with rfl | rfl
    · exact hn
    · exact absurd hn (Nat.ne_of_gt h.upper)
  · intro hk
    rw [h.exact hk, hk]

/-- A rung below the one picked is below the value. -/
theorem Rounds.lt_of_lt (h : Rounds mode neg x v k n) (hv : Rising v) {j : Nat} (hj : j < n) : v j < x := by
  have hlo := h.lower
  rcases h.pick with rfl | rfl
  · exact Nat.lt_of_lt_of_le (hv.lt_of_lt hj) hlo
  · have hle := hv.le_of_le (Nat.le_of_lt_succ hj)
    rcases Nat.lt_or_eq_of_le hlo with hlt | he
    · exact Nat.lt_of_le_of_lt hle hlt
    · exact absurd (h.exact he) (Nat.succ_ne_self k)

/-- No rung is nearer to the value than the one that rounding to nearest picks. -/
theorem Rounds.nearest (h : Rounds .rne neg x v k n) (hv : Rising v) (j : Nat) :
    ((x : Int) - v n).natAbs ≤ ((x : Int) - v j).natAbs := by
  have hlo := h.lower
  have hhi := h.upper
  have hside := hv.le_or_succ_le j k
  rcases h.pick with rfl | rfl
  · have := h.down rfl rfl
    omega
  · have := h.up rfl rfl
    omega

/-- Where another rung is as near, the one that rounding to nearest picks has an even number. -/
theorem Rounds.even_of_tie (h : Rounds .rne neg x v k n) (hv : Rising v) {j : Nat} (hj : j ≠ n)
    (hd : ((x : Int) - v j).natAbs = ((x : Int) - v n).natAbs) : n % 2 = 0 := by
  have hlo := h.lower
  have hhi := h.upper
  have hside := hv.le_or_succ_le j k
  have hne := hv.ne_of_ne hj
  apply h.tie rfl
  rcases h.pick with rfl | rfl
  · have := h.down rfl rfl
    omega
  · have := h.up rfl rfl
    omega

/-- Rounding inward picks the highest rung that is not above the value. -/
theorem Rounds.greatest_below (h : Rounds mode neg x v k n) (hv : Rising v) (hi : mode.inward neg = true) :
    v n ≤ x ∧ ∀ j, v j ≤ x → v j ≤ v n := by
  have hlo := h.lower
  have hhi := h.upper
  rw [h.inward hi]
  refine ⟨hlo, fun j hj => ?_⟩
  have := hv.le_or_succ_le j k
  omega

/-- Rounding outward picks the lowest rung that is not below the value. -/
theorem Rounds.least_above (h : Rounds mode neg x v k n) (hv : Rising v) (hm : mode ≠ .rne) (hi : mode.inward neg = false) :
    x ≤ v n ∧ ∀ j, x ≤ v j → v n ≤ v j := by
  have hlo := h.lower
  have hhi := h.upper
  by_cases he : v k = x
  · rw [h.exact he, he]
    exact ⟨Nat.le_refl _, fun j hj => hj⟩
  · rw [h.outward hm hi he]
    refine ⟨Nat.le_of_lt hhi, fun j hj => ?_⟩
    have := hv.le_or_succ_le j k
    omega

end Ladder

/-! ### The one rounding of the model -/

/-- The multiples of 2 to the `s`. -/
def multiples (s j : Nat) : Nat := j * 2 ^ s

theorem multiples_rising (s : Nat) : Rising (multiples s) := fun j =>
  Nat.mul_lt_mul_of_pos_right (Nat.lt_succ_self j) (Nat.two_pow_pos s)

theorem multiples_add (s t j : Nat) : multiples (s + t) j = multiples t (j * 2 ^ s) := by
  rw [multiples, multiples, Nat.pow_add, Nat.mul_assoc]

/-- In a mode that keeps magnitudes from growing nothing rounds up. -/
theorem roundsUp_of_inward {mode : Mode} {neg : Bool} (h : mode.inward neg = true) (k r d : Nat) : roundsUp mode neg k r d = false := by
  cases mode with
  | rne => cases h
  | rtz => rfl
  | rup => cases neg with
    | false => cases h
    | true => rfl
  | rdn => cases neg with
    | false => rfl
    | true => cases h

/-- In the directed modes that are not inward whatever is discarded rounds up. -/
theorem roundsUp_of_outward {mode : Mode} {neg : Bool} (hm : mode ≠ .rne) (h : mode.inward neg = false) (k r d : Nat) :
    roundsUp mode neg k r d = (r != 0) := by
  cases mode with
  | rne => exact absurd rfl hm
  | rtz => cases h
  | rup => cases neg with
    | false => exact Bool.true_and _
    | true => cases h
  | rdn => cases neg with
    | false => cases h
    | true => exact Bool.true_and _

/-- To nearest: up past the half, and at the half where the kept integer is odd. -/
theorem roundsUp_rne (neg : Bool) (k r d : Nat) :
    roundsUp .rne neg k r d = true ↔ 2 ^ d < 2 * r ∨ (2 * r = 2 ^ d ∧ k % 2 = 1) := by
  simp only [roundsUp, Bool.or_eq_true, decide_eq_true_eq, Bool.and_eq_true, beq_iff_eq, gt_iff_lt]

/-- What is exact does not round up. -/
theorem roundsUp_zero (mode : Mode) (neg : Bool) (k d : Nat) : roundsUp mode neg k 0 d = false := by
  cases mode with
  | rne =>
    have hpos := Nat.two_pow_pos d
    rw [Bool.eq_false_iff, ne_eq, roundsUp_rne]
    omega
  | rtz => rfl
  | rup => exact Bool.and_false _
  | rdn => exact Bool.and_false _

section Remainder

variable {m k r d : Nat} {a b : Nat}

/-- In units of which the remainder has 2 to the `a`, the value above the integer kept, and the next integer above that. -/
theorem multiples_remainder (hm : m = 2 ^ d * k + r) (hb : b = d + a) :
    multiples a m = multiples b k + multiples a r ∧ multiples b (k + 1) = multiples b k + multiples a (2 ^ d) := by
  have hk : multiples b k = multiples a (2 ^ d * k) := by rw [hb, multiples_add, Nat.mul_comm]
  have hk1 : multiples b (k + 1) = multiples a (2 ^ d * k + 2 ^ d) := by rw [hb, multiples_add, Nat.mul_comm, Nat.mul_succ]
  rw [hk, hk1, hm]
  exact ⟨Nat.add_mul .., Nat.add_mul ..⟩

theorem multiples_eq_iff (hm : m = 2 ^ d * k + r) (hb : b = d + a) : multiples b k = multiples a m ↔ r = 0 := by
  have hpos := Nat.two_pow_pos a
  rw [(multiples_remainder hm hb).1, Nat.left_eq_add, multiples, Nat.mul_eq_zero]
  omega

/-- A kept integer `k` and a remainder `r` of `2 ^ d` rounded by `roundsUp`. -/
theorem roundsUp_rounds (mode : Mode) (neg : Bool) (hm : m = 2 ^ d * k + r) (hr : r < 2 ^ d) (hb : b = d + a) :
    Rounds mode neg (multiples a m) (multiples b) k (if roundsUp mode neg k r d then k + 1 else k) := by
  have hexact := multiples_eq_iff hm hb
  obtain ⟨hval, hnext⟩ := multiples_remainder hm hb
  have hscale {i j : Nat} : multiples a i ≤ multiples a j ↔ i ≤ j := Nat.mul_le_mul_right_iff (Nat.two_pow_pos a)
  have hdouble : multiples a (2 * r) = 2 * multiples a r := Nat.mul_assoc ..
  have hdown : 2 * multiples a m ≤ multiples b k + multiples b (k + 1) ↔ 2 * r ≤ 2 ^ d := by
    rw [← hscale (i := 2 * r)]; omega
  have hup : multiples b k + multiples b (k + 1) ≤ 2 * multiples a m ↔ 2 ^ d ≤ 2 * r := by
    rw [← hscale (j := 2 * r)]; omega
  refine ⟨?lower, ?upper, ?pick, ?exact, ?inward, ?outward, ?down, ?up, ?tie⟩
  case lower => omega
  case upper =>
    have : multiples a r < multiples a (2 ^ d) := Nat.mul_lt_mul_of_pos_right hr (Nat.two_pow_pos a)
    omega
  case pick => split <;> omega
  case exact => intro he; rw [hexact.mp he, roundsUp_zero, if_neg Bool.false_ne_true]
  case inward => intro hi; rw [roundsUp_of_inward hi, if_neg Bool.false_ne_true]
  case outward =>
    intro hne hi he
    rw [roundsUp_of_outward hne hi, if_pos (bne_iff_ne.mpr (mt hexact.mpr he))]
  case down =>
    rintro rfl hn
    rw [hdown]
    split at hn
    · omega
    · rename_i hu
      rw [roundsUp_rne] at hu
      omega
  case up =>
    rintro rfl hn
    rw [hup]
    split at hn
    · rename_i hu
      rw [roundsUp_rne] at hu
      omega
    · omega
  case tie =>
    rintro rfl ht
    have hhalf : 2 * r = 2 ^ d := Nat.le_antisymm (hdown.mp (Nat.le_of_eq ht)) (hup.mp (Nat.le_of_eq ht.symm))
    split <;> rename_i hu <;> rw [roundsUp_rne] at hu <;> omega

end Remainder

/-- `roundAt` rounds among the multiples of 2 to the `q`, and says whether that was inexact. -/
theorem roundAt_rounds (mode : Mode) (neg : Bool) (m : Nat) {e q u : Int} {a b : Nat} (he : e = u + a) (hq : q = u + b) :
    ∃ k, Rounds mode neg (multiples a m) (multiples b) k (roundAt mode neg m e q).1
      ∧ ((roundAt mode neg m e q).2 = true ↔ multiples b (roundAt mode neg m e q).1 ≠ multiples a m) := by
  unfold roundAt
  by_cases hqe : q ≤ e
  · have hval : multiples a m = multiples b (m * 2 ^ (e - q).toNat) := by
      rw [← multiples_add, show a = (e - q).toNat + b by omega]
    have h := roundsUp_rounds mode neg (m := m * 2 ^ (e - q).toNat) (k := m * 2 ^ (e - q).toNat) (r := 0) (d := 0) (a := b) (b := b)
      (by omega) (by decide) (by omega)
    rw [roundsUp_zero, if_neg Bool.false_ne_true] at h
    rw [if_pos hqe, hval]
    exact ⟨_, h, iff_of_false Bool.false_ne_true fun hne => hne rfl⟩
  · have hb : b = (q - e).toNat + a := by omega
    have hm := (Nat.div_add_mod m (2 ^ (q - e).toNat)).symm
    have h := roundsUp_rounds mode neg hm (Nat.mod_lt _ (Nat.two_pow_pos _)) hb
    rw [if_neg hqe]
    refine ⟨_, h, ?_⟩
    rw [ne_eq, h.eq_iff, multiples_eq_iff hm hb, bne_iff_ne]

end Sys2Proof.Machine
end

section
/-! The numbers of a format as a rising ladder, numbered by the bits below the sign, and `roundFin` as a rounding on it (R33, R34, R39). -/

namespace Sys2Proof.Machine

/-- The exponent of the last place of the subnormal numbers. -/
def Fmt.low (f : Fmt) : Int := f.emin - f.frac

/-- How many binades the magnitude bits `b` stand above the one that the subnormal numbers share with the smallest normal ones. -/
def Fmt.binade (f : Fmt) (b : Nat) : Nat := b / 2 ^ f.frac - 1

/-- The magnitude that the bits `b` give by R33, the field of the exponent unbounded, in a unit of which the smallest subnormal
number has 2 to the `s`. -/
def Fmt.rung (f : Fmt) (s b : Nat) : Nat := multiples (f.binade b + s) (b - f.binade b * 2 ^ f.frac)

section Rung

variable (f : Fmt) (s : Nat)

theorem Fmt.frac_pos : 0 < f.frac := by cases f <;> decide

/-- The canonical NaN, and the infinity where there is one, stand above the largest finite number and below the sign. -/
theorem Fmt.special_bits : f.maxBits < f.nanBits ∧ f.nanBits < 2 ^ f.signPos
    ∧ (f ≠ .e4m3 → f.maxBits < f.infBits ∧ f.infBits < 2 ^ f.signPos) := by
  cases f <;> decide

/-- The significand `k` of binade `i`, both ends included, is at `i * 2 ^ F + k`. -/
theorem Fmt.rung_add {i k : Nat} (hlo : i = 0 ∨ 2 ^ f.frac ≤ k) (hhi : k ≤ 2 ^ (f.frac + 1)) :
    f.rung s (i * 2 ^ f.frac + k) = multiples (i + s) k := by
  have hF : 0 < 2 ^ f.frac := Nat.two_pow_pos _
  rw [Nat.pow_succ] at hhi
  have hdiv : (i * 2 ^ f.frac + k) / 2 ^ f.frac = i + k / 2 ^ f.frac := by rw [Nat.mul_comm, Nat.mul_add_div hF]
  rcases Nat.lt_or_eq_of_le hhi with hlt | rfl
  · have hk : k / 2 ^ f.frac < 2 := Nat.div_lt_of_lt_mul hlt
    have hb : f.binade (i * 2 ^ f.frac + k) = i := by
      rw [Fmt.binade, hdiv]
      rcases hlo with rfl | hle
      · omega
      · have := Nat.div_pos hle hF
        omega
    rw [Fmt.rung, hb, Nat.add_sub_cancel_left]
  · -- the upper end is the lower end of the next binade
    have hb : f.binade (i * 2 ^ f.frac + 2 ^ f.frac * 2) = i + 1 := by rw [Fmt.binade, hdiv, Nat.mul_div_cancel_left _ hF]; omega
    have hk : i * 2 ^ f.frac + 2 ^ f.frac * 2 - (i + 1) * 2 ^ f.frac = 2 ^ f.frac := by rw [Nat.add_mul]; omega
    rw [Fmt.rung, hb, hk, Nat.add_assoc, Nat.add_left_comm, multiples_add, Nat.pow_one]

/-- Magnitude bits as a binade and a significand below the binade's upper end. -/
theorem Fmt.exists_binade (b : Nat) : ∃ i k, b = i * 2 ^ f.frac + k ∧ (i = 0 ∨ 2 ^ f.frac ≤ k) ∧ k < 2 ^ (f.frac + 1) := by
  have hF : 0 < 2 ^ f.frac := Nat.two_pow_pos _
  have hb := Nat.div_add_mod' b (2 ^ f.frac)
  have hr := Nat.mod_lt b hF
  rw [Nat.pow_succ]
  cases hi : b / 2 ^ f.frac with
  | zero =>
    rw [hi, Nat.zero_mul] at hb
    exact ⟨0, b, by omega, .inl rfl, by omega⟩
  | succ i =>
    rw [hi, Nat.succ_mul] at hb
    exact ⟨i, 2 ^ f.frac + b % 2 ^ f.frac, by omega, .inr (by omega), by omega⟩

theorem Fmt.rung_rising : Rising (f.rung s) := fun b => by
  obtain ⟨i, k, rfl, hlo, hhi⟩ := f.exists_binade b
  rw [Nat.add_assoc, f.rung_add s hlo (Nat.le_of_lt hhi), f.rung_add s (hlo.imp_right Nat.le_succ_of_le) hhi]
  exact multiples_rising _ k

end Rung

/-! ### `roundFin` -/

/-- The exponent of the last place that the magnitude `m·2^e` is rounded to (R39). -/
def Fmt.place (f : Fmt) (m : Nat) (e : Int) : Int := max ((m.log2 : Int) + e - f.frac) f.low

/-- The magnitude bits of `m·2^e` rounded with the field of the exponent unbounded. -/
def Fmt.field (f : Fmt) (mode : Mode) (neg : Bool) (m : Nat) (e : Int) : Nat :=
  (f.place m e - f.low).toNat * 2 ^ f.frac + (roundAt mode neg m e (f.place m e)).1

/-- The bits of the sign alone. -/
def Fmt.signBits (f : Fmt) (neg : Bool) : Nat := if neg then 2 ^ f.signPos else 0

theorem Fmt.signBits_even (f : Fmt) (neg : Bool) : f.signBits neg % 2 = 0 := by
  cases f <;> cases neg <;> decide

section RoundFin

variable (f : Fmt) (mode : Mode) (sat neg : Bool) {m : Nat} {e u : Int} {a s : Nat}

/-- The integer `k` below a non-zero magnitude in units of its last place has at most the bits of the format, and all of them where
the place is above the subnormal one. -/
theorem Fmt.significand_bounds {k t : Nat} (hm : m ≠ 0) (he : e = u + a) (ht : f.place m e = u + t)
    (hlo : multiples t k ≤ multiples a m) (hhi : multiples a m < multiples t (k + 1)) :
    (f.place m e = f.low ∨ 2 ^ f.frac ≤ k) ∧ k < 2 ^ (f.frac + 1) := by
  have hbot : 2 ^ (m.log2 + a) ≤ multiples a m := by
    rw [Nat.pow_add]
    exact Nat.mul_le_mul_right _ (Nat.log2_self_le hm)
  have htop : multiples a m < 2 ^ (m.log2 + 1 + a) := by
    rw [Nat.pow_add]
    exact Nat.mul_lt_mul_of_pos_right Nat.lt_log2_self (Nat.two_pow_pos a)
  unfold Fmt.place at ht ⊢
  constructor
  · by_cases hp : max ((m.log2 : Int) + e - f.frac) f.low = f.low
    · exact .inl hp
    · have hfull : m.log2 + a = f.frac + t := by omega
      rw [hfull, Nat.pow_add] at hbot
      exact .inr (Nat.le_of_lt_succ (Nat.lt_of_mul_lt_mul_right (Nat.lt_of_le_of_lt hbot hhi)))
  · have hle : 2 ^ (m.log2 + 1 + a) ≤ 2 ^ (f.frac + 1 + t) := Nat.pow_le_pow_right Nat.two_pos (by omega)
    rw [Nat.pow_add 2 (f.frac + 1)] at hle
    exact Nat.lt_of_mul_lt_mul_right (Nat.lt_of_le_of_lt hlo (Nat.lt_of_lt_of_le htop hle))

/-- The bits that the model forms, below the sign and before it asks for overflow, are the rounding of R39 on the numbers of the
format, and inexact where the number they give is another. -/
theorem Fmt.field_rounds (hm : m ≠ 0) (he : e = u + a) (hs : f.low = u + s) :
    (∃ k, Rounds mode neg (multiples a m) (f.rung s) k (f.field mode neg m e))
      ∧ ((roundAt mode neg m e (f.place m e)).2 = true ↔ f.rung s (f.field mode neg m e) ≠ multiples a m) := by
  have hle : f.low ≤ f.place m e := Int.le_max_right _ _
  have hplace : f.place m e = u + ((f.place m e - f.low).toNat + s : Nat) := by omega
  obtain ⟨k, h, hinexact⟩ := roundAt_rounds mode neg m he hplace
  obtain ⟨hlo, hhi⟩ := f.significand_bounds hm he hplace h.lower h.upper
  have hbinade : (f.place m e - f.low).toNat = 0 ∨ 2 ^ f.frac ≤ k := hlo.imp_left fun hp => by omega
  have hrung {j : Nat} (hj : k ≤ j) (hj' : j ≤ k + 1) :
      f.rung s ((f.place m e - f.low).toNat * 2 ^ f.frac + j) = multiples ((f.place m e - f.low).toNat + s) j :=
    f.rung_add s (hbinade.imp_right fun hk => Nat.le_trans hk hj) (by omega)
  have heven : (f.place m e - f.low).toNat * 2 ^ f.frac % 2 = 0 := by
    obtain ⟨n, hn⟩ := Nat.exists_eq_succ_of_ne_zero (Nat.ne_of_gt f.frac_pos)
    rw [hn, Nat.pow_succ, ← Nat.mul_assoc, Nat.mul_mod_left]
  refine ⟨⟨_, h.shift heven (hrung (Nat.le_refl k) (Nat.le_succ k)) (hrung (Nat.le_succ k) (Nat.le_refl _))⟩, ?_⟩
  have hn := h.pick
  rw [hinexact, Fmt.field, hrung (by omega) (by omega)]

/-- `roundFin` through the rounded bits, for one condition of tininess or another. -/
theorem roundFin_eq (e : Int) (hm : m ≠ 0) : ∃ tiny : Bool, roundFin f mode sat neg m e =
    if f.maxBits < f.field mode neg m e then
      (if (overflowBits f mode sat neg).1 = f.nanBits then (overflowBits f mode sat neg).1
        else f.signBits neg + (overflowBits f mode sat neg).1, (overflowBits f mode sat neg).2)
    else (f.signBits neg + f.field mode neg m e,
      flagIf (roundAt mode neg m e (f.place m e)).2 fNX ||| flagIf ((roundAt mode neg m e (f.place m e)).2 && tiny) fUF) := by
  have hplace : (if (m.log2 : Int) + e - f.frac < f.emin - f.frac then f.emin - f.frac else (m.log2 : Int) + e - f.frac) = f.place m e := by
    unfold Fmt.place Fmt.low
    split <;> omega
  unfold roundFin
  simp only [if_neg hm, hplace]
  exact ⟨_, rfl⟩

/-- Up to the largest finite number `roundFin` answers the rounded bits with their sign; NX says that the rounding was inexact. -/
theorem roundFin_of_le (hm : m ≠ 0) (he : e = u + a) (hs : f.low = u + s) (h : f.field mode neg m e ≤ f.maxBits) :
    (roundFin f mode sat neg m e).1 = f.signBits neg + f.field mode neg m e
      ∧ ((roundFin f mode sat neg m e).2 &&& fNX ≠ 0 ↔ f.rung s (f.field mode neg m e) ≠ multiples a m) := by
  have hnx (c tiny : Bool) : (flagIf c fNX ||| flagIf (c && tiny) fUF) &&& fNX ≠ 0 ↔ c = true := by
    cases c <;> cases tiny <;> decide
  obtain ⟨tiny, heq⟩ := roundFin_eq f mode sat neg e hm
  rw [heq, if_neg (Nat.not_lt.mpr h)]
  exact ⟨rfl, (hnx ..).trans (f.field_rounds mode neg hm he hs).2⟩

/-- Overflow by the mode's direction: the largest finite number where the mode rounds inward or FP8 saturates, else the canonical
NaN of an FP8 format or the infinity of another (Table 2.2). -/
theorem overflowBits_eq : overflowBits f mode sat neg =
    if f = .e4m3 ∨ f = .e5m2 then
      if sat || mode.inward neg then (f.maxBits, fOF ||| fNX) else (f.nanBits, fOF ||| fNX ||| fNV)
    else if mode.inward neg then (f.maxBits, fOF ||| fNX) else (f.infBits, fOF ||| fNX) := by
  cases mode <;> rfl

/-- Whether an overflow gives the largest finite number: where the mode rounds inward, and in the FP8 formats where they saturate. -/
def Fmt.overflowsToMax (f : Fmt) (mode : Mode) (sat neg : Bool) : Prop :=
  mode.inward neg = true ∨ ((f = .e4m3 ∨ f = .e5m2) ∧ sat = true)

/-- The bits of an overflow stay below the sign, and are those of the largest finite number or above them. -/
theorem overflowBits_maxBits : (overflowBits f mode sat neg).1 < 2 ^ f.signPos
    ∧ (f.overflowsToMax mode sat neg → (overflowBits f mode sat neg).1 = f.maxBits)
    ∧ (¬f.overflowsToMax mode sat neg → f.maxBits < (overflowBits f mode sat neg).1) := by
  obtain ⟨hnan, hlt, hinf⟩ := f.special_bits
  rw [overflowBits_eq]
  unfold Fmt.overflowsToMax
  by_cases hf : f = .e4m3 ∨ f = .e5m2
  · rw [if_pos hf]
    by_cases hc : (sat || mode.inward neg) = true
    · rw [if_pos hc]
      exact ⟨Nat.lt_trans hnan hlt, fun _ => rfl, fun hn => absurd ((Bool.or_eq_true _ _ ▸ hc).symm.imp_right (And.intro hf)) hn⟩
    · rw [if_neg hc]
      exact ⟨hlt, fun h => absurd (Bool.or_eq_true _ _ ▸ (h.imp_right And.right).symm) hc, fun _ => hnan⟩
  · obtain ⟨hgt, hlt'⟩ := hinf fun h => hf (.inl h)
    rw [if_neg hf]
    by_cases hc : mode.inward neg = true
    · rw [if_pos hc]
      exact ⟨Nat.lt_trans hnan hlt, fun _ => rfl, fun hn => absurd (.inl hc) hn⟩
    · rw [if_neg hc]
      exact ⟨hlt', fun h => absurd (h.resolve_right fun h8 => hf h8.1) hc, fun _ => hgt⟩

theorem overflowBits_nx : (overflowBits f mode sat neg).2 &&& fNX ≠ 0 := by
  have hflags : (fOF ||| fNX) &&& fNX ≠ 0 ∧ (fOF ||| fNX ||| fNV) &&& fNX ≠ 0 := by decide
  rw [overflowBits_eq]
  split <;> split
  case isTrue.isFalse => exact hflags.2
  all_goals exact hflags.1

/-- Above the largest finite number `roundFin` answers what overflow gives, with NX, and with the sign where that is no NaN. -/
theorem roundFin_of_gt (hm : m ≠ 0) (h : f.maxBits < f.field mode neg m e) :
    (roundFin f mode sat neg m e).1
        = (if (overflowBits f mode sat neg).1 = f.nanBits then (overflowBits f mode sat neg).1
            else f.signBits neg + (overflowBits f mode sat neg).1)
      ∧ (roundFin f mode sat neg m e).2 &&& fNX ≠ 0 := by
  obtain ⟨tiny, heq⟩ := roundFin_eq f mode sat neg e hm
  rw [heq, if_pos h]
  exact ⟨rfl, overflowBits_nx f mode sat neg⟩

end RoundFin

end Sys2Proof.Machine
end

section
/-! What the bits of a rounded number encode, and the neighbours that it is (R33, R34, R39, R41). -/

namespace Sys2Proof.Claims

open Sys2Proof.Machine

/-! ### Rationals in a common unit -/

/-- `2 ^ u`, the unit that numbers are counted in. -/
def unitOf (u : Int) : Rat := (2 : Rat) ^ u

theorem unitOf_pos (u : Int) : 0 < unitOf u := Rat.zpow_pos (by decide)

theorem unitOf_add (u v : Int) : unitOf (u + v) = unitOf u * unitOf v := Rat.zpow_add (by decide) u v

theorem unitOf_natCast (a : Nat) : unitOf a = ((2 ^ a : Nat) : Rat) := (Rat.natCast_pow 2 a).symm

/-- `i` units of 2 to the `u`. -/
def scaled (u i : Int) : Rat := (i : Rat) * unitOf u

theorem scaled_le {u i j : Int} : scaled u i ≤ scaled u j ↔ i ≤ j := by
  constructor
  · exact fun h => Rat.intCast_le_intCast.mp (Rat.le_of_mul_le_mul_right h (unitOf_pos u))
  · exact fun h => Rat.mul_le_mul_of_nonneg_right (Rat.intCast_le_intCast.mpr h) (Rat.le_of_lt (unitOf_pos u))

theorem scaled_inj {u i j : Int} : scaled u i = scaled u j ↔ i = j := by
  constructor
  · intro h
    have hij : scaled u i ≤ scaled u j := h ▸ Rat.le_refl
    have hji : scaled u j ≤ scaled u i := h ▸ Rat.le_refl
    exact Int.le_antisymm (scaled_le.mp hij) (scaled_le.mp hji)
  · rintro rfl
    rfl

theorem scaled_sub (u i j : Int) : scaled u i - scaled u j = scaled u (i - j) := by
  have hcast : ((i - j : Int) : Rat) = i - j := Rat.intCast_sub i j
  have hmul : ((i : Rat) - j) * unitOf u = i * unitOf u - j * unitOf u := by
    rw [Rat.sub_eq_add_neg, Rat.add_mul, Rat.neg_mul, ← Rat.sub_eq_add_neg]
  rw [scaled, scaled, scaled, hcast, hmul]

/-- A number of units is a multiple of a smaller unit. -/
theorem scaled_add (u i : Int) (a : Nat) : scaled (u + a) i = scaled u (i * (2 ^ a : Nat)) := by
  have hcast : ((i * (2 ^ a : Nat) : Int) : Rat) = (i : Rat) * ((2 ^ a : Nat) : Rat) := Rat.intCast_mul i _
  rw [scaled, scaled, unitOf_add, unitOf_natCast, hcast, Rat.mul_comm (unitOf u), Rat.mul_assoc]

theorem apart_scaled (u i j : Int) : apart (scaled u i) (scaled u j) = scaled u (i - j).natAbs := by
  unfold apart
  by_cases h : i ≤ j
  · rw [if_pos (scaled_le.mpr h), scaled_sub, scaled_inj]; omega
  · rw [if_neg (mt scaled_le.mp h), scaled_sub, scaled_inj]; omega

theorem magnitude_scaled (u i : Int) : magnitude (scaled u i) = scaled u i.natAbs := by
  have hzero : (0 : Rat) = scaled u 0 := (Rat.zero_mul _).symm
  rw [magnitude, hzero, apart_scaled, Int.zero_sub, Int.natAbs_neg]

/-! ### What bits encode -/

/-- A magnitude with its sign. -/
def signed (neg : Bool) (i : Nat) : Int := if neg then -(i : Int) else i

@[simp] theorem signed_true (i : Nat) : signed true i = -(i : Int) := rfl

@[simp] theorem signed_false (i : Nat) : signed false i = i := rfl

theorem signed_eq_or (neg : Bool) (i : Nat) : signed neg i = i ∨ signed neg i = -(i : Int) := by
  cases neg with
  | true => exact .inr rfl
  | false => exact .inl rfl

/-- What is nearest among magnitudes stays so under the sign of the value: a number of the other sign is further away than its
magnitude, unless it is zero. -/
theorem nearest_signed {x v w : Nat} (n neg : Bool) (hx : 0 < x) (hle : ((x : Int) - v).natAbs ≤ ((x : Int) - w).natAbs) :
    (signed n x - signed n v).natAbs ≤ (signed n x - signed neg w).natAbs
      ∧ (signed neg w ≠ signed n v → (signed n x - signed neg w).natAbs = (signed n x - signed n v).natAbs →
        w ≠ v ∧ ((x : Int) - w).natAbs = ((x : Int) - v).natAbs) := by
  have hw := signed_eq_or neg w
  cases n with
  | true => simp only [signed_true]; omega
  | false => simp only [signed_false]; omega

theorem signed_mul (neg : Bool) (i j : Nat) : signed neg i * j = signed neg (i * j) := by
  cases neg with
  | true => exact Int.neg_mul ..
  | false => rfl

theorem signed_natAbs (neg : Bool) (i : Nat) : (signed neg i).natAbs = i := by
  cases neg with
  | true => exact Int.natAbs_neg _
  | false => rfl

theorem signed_inj {neg : Bool} {i j : Nat} : signed neg i = signed neg j ↔ i = j := by
  unfold signed
  split <;> omega

/-- A dyadic number in a unit at or below its own. -/
theorem ratOf_fin {e u : Int} {a : Nat} (neg : Bool) (m : Nat) (he : e = u + a) :
    ratOf (.fin neg m e) = some (scaled u (signed neg (multiples a m))) := by
  have hsign : ((if neg then -1 else 1 : Rat) * m) = (signed neg m : Int) := by
    cases neg with
    | true => exact (Rat.neg_mul ..).trans (congrArg Neg.neg (Rat.one_mul _))
    | false => exact Rat.one_mul _
  have hval : ratOf (.fin neg m e) = some ((if neg then -1 else 1 : Rat) * m * unitOf e) := rfl
  rw [hval, hsign, multiples, ← signed_mul, ← scaled_add, ← he]
  rfl

/-- A format other than E4M3 keeps its topmost exponent for infinity and NaNs, E4M3 only its topmost magnitude (R33, R34). -/
theorem le_maxBits_iff (f : Fmt) {b : Nat} (hb : b < 2 ^ f.signPos) :
    b ≤ f.maxBits ↔ if f = .e4m3 then b ≠ 0x7F else b / 2 ^ f.frac ≠ 2 ^ f.expBits - 1 := by
  have hex : b / 2 ^ f.frac < 2 ^ f.expBits := Nat.div_lt_of_lt_mul (Nat.pow_add 2 .. ▸ hb)
  have hlt := Nat.div_lt_iff_lt_mul (x := b) (y := 2 ^ f.expBits - 1) (Nat.two_pow_pos f.frac)
  have hpos : 0 < f.infBits := by cases f <;> decide
  by_cases hf : f = .e4m3
  · subst hf
    have : b < 128 := hb
    rw [if_pos rfl, Fmt.maxBits]
    omega
  · have hmax : f.maxBits = f.infBits - 1 := by
      cases f with
      | e4m3 => exact absurd rfl hf
      | _ => rfl
    rw [if_neg hf, hmax]
    unfold Fmt.infBits at hpos ⊢
    omega

section Encoded

variable {f : Fmt} {u : Int} {s : Nat}

/-- The bits of exponent field 0 are the subnormal numbers. -/
theorem ratOf_subnormal (neg : Bool) {b : Nat} (hs : f.low = u + s) (hx : b / 2 ^ f.frac = 0) :
    ratOf (.fin neg (b % 2 ^ f.frac) (f.emin - f.frac)) = some (scaled u (signed neg (f.rung s b))) := by
  have hb := Nat.div_add_mod' b (2 ^ f.frac)
  rw [hx, Nat.zero_mul, Nat.zero_add] at hb
  have hbinade : f.binade b = 0 := by rw [Fmt.binade, hx]
  rw [hb, ratOf_fin neg b (show f.emin - f.frac = u + s from hs), Fmt.rung, hbinade, Nat.zero_mul, Nat.sub_zero, Nat.zero_add]

/-- The bits of another exponent field have the implicit bit. -/
theorem ratOf_normal (neg : Bool) {b : Nat} (hs : f.low = u + s) (hx : b / 2 ^ f.frac ≠ 0) :
    ratOf (.fin neg (2 ^ f.frac + b % 2 ^ f.frac) (((b / 2 ^ f.frac : Nat) : Int) - f.bias - f.frac))
      = some (scaled u (signed neg (f.rung s b))) := by
  have hb := Nat.div_add_mod' b (2 ^ f.frac)
  obtain ⟨i, hi⟩ := Nat.exists_eq_succ_of_ne_zero hx
  rw [hi, Nat.succ_mul] at hb
  have hbinade : f.binade b = i := by rw [Fmt.binade, hi, Nat.succ_sub_one]
  have hsig : 2 ^ f.frac + b % 2 ^ f.frac = b - i * 2 ^ f.frac := by omega
  have he : ((b / 2 ^ f.frac : Nat) : Int) - f.bias - f.frac = u + (i + s : Nat) := by
    unfold Fmt.low Fmt.emin at hs
    omega
  rw [ratOf_fin neg _ he, hsig, Fmt.rung, hbinade]

/-- The bits of a format encode a number exactly where the magnitude is at most the largest finite one; the number is then that
rung with the sign. -/
theorem ratBits_eq (hs : f.low = u + s) (c : Nat) : ratBits f c =
    if c % 2 ^ f.signPos ≤ f.maxBits then some (scaled u (signed (c / 2 ^ f.signPos % 2 == 1) (f.rung s (c % 2 ^ f.signPos))))
    else none := by
  have hle := le_maxBits_iff f (Nat.mod_lt c (Nat.two_pow_pos f.signPos))
  unfold ratBits FV.ofBits
  generalize c % 2 ^ f.signPos = b at hle ⊢
  generalize (c / 2 ^ f.signPos % 2 == 1) = neg
  have hfinite : ratOf (if b / 2 ^ f.frac = 0 then .fin neg (b % 2 ^ f.frac) (f.emin - f.frac)
      else .fin neg (2 ^ f.frac + b % 2 ^ f.frac) (((b / 2 ^ f.frac : Nat) : Int) - f.bias - f.frac))
        = some (scaled u (signed neg (f.rung s b))) := by
    by_cases hx : b / 2 ^ f.frac = 0
    · rw [if_pos hx, ratOf_subnormal neg hs hx]
    · rw [if_neg hx, ratOf_normal neg hs hx]
  by_cases hf : f = .e4m3
  · rw [if_pos hf] at hle ⊢
    by_cases hb : b = 0x7F
    · rw [if_pos hb, if_neg fun h => hle.mp h hb]; rfl
    · rw [if_neg hb, if_pos (hle.mpr hb)]; exact hfinite
  · rw [if_neg hf] at hle ⊢
    by_cases hb : b / 2 ^ f.frac = 2 ^ f.expBits - 1
    · rw [if_pos hb, if_neg fun h => hle.mp h hb]
      split <;> rfl
    · rw [if_neg hb, if_pos (hle.mpr hb)]; exact hfinite

/-- A number that some bits of a format encode is a finite rung with a sign. -/
theorem exists_of_ratBits (hs : f.low = u + s) {c : Nat} {w : Rat} (h : ratBits f c = some w) :
    ∃ neg j, j ≤ f.maxBits ∧ w = scaled u (signed neg (f.rung s j)) := by
  rw [ratBits_eq hs] at h
  split at h
  · rename_i hle
    exact ⟨_, _, hle, (Option.some.inj h).symm⟩
  · cases h

/-- Magnitude bits under a sign encode the rung with that sign, where the rung is finite. -/
theorem ratBits_signBits_add (hs : f.low = u + s) (neg : Bool) {b : Nat} (hb : b < 2 ^ f.signPos) :
    ratBits f (f.signBits neg + b) = if b ≤ f.maxBits then some (scaled u (signed neg (f.rung s b))) else none := by
  have hpos := Nat.two_pow_pos f.signPos
  have hmod : (f.signBits neg + b) % 2 ^ f.signPos = b := by
    cases neg with
    | true => exact (Nat.add_mod_left ..).trans (Nat.mod_eq_of_lt hb)
    | false => exact (congrArg (· % _) (Nat.zero_add b)).trans (Nat.mod_eq_of_lt hb)
  have hsign : ((f.signBits neg + b) / 2 ^ f.signPos % 2 == 1) = neg := by
    cases neg with
    | true =>
      have hdiv : (f.signBits true + b) / 2 ^ f.signPos = 1 := by
        rw [Fmt.signBits, if_pos rfl, Nat.add_div_left b hpos, Nat.div_eq_of_lt hb]
      rw [hdiv]; rfl
    | false =>
      have hdiv : (f.signBits false + b) / 2 ^ f.signPos = 0 := by
        rw [Fmt.signBits, if_neg Bool.false_ne_true, Nat.zero_add, Nat.div_eq_of_lt hb]
      rw [hdiv]; rfl
  rw [ratBits_eq hs, hmod, hsign]

/-- The canonical NaN stands without a sign; it encodes no number with one either. -/
theorem ratBits_nan_or_signed (hs : f.low = u + s) (neg : Bool) {b : Nat} (hb : b < 2 ^ f.signPos) :
    ratBits f (if b = f.nanBits then b else f.signBits neg + b)
      = if b ≤ f.maxBits then some (scaled u (signed neg (f.rung s b))) else none := by
  by_cases hnan : b = f.nanBits
  · have hgt : ¬b ≤ f.maxBits := hnan ▸ Nat.not_le.mpr f.special_bits.1
    have h := ratBits_signBits_add hs false hb
    rw [Fmt.signBits, if_neg Bool.false_ne_true, Nat.zero_add, if_neg hgt] at h
    rw [if_pos hnan, if_neg hgt, h]
  · rw [if_neg hnan, ratBits_signBits_add hs neg hb]

end Encoded

/-! ### Rounding a non-zero dyadic number -/

section Rounded

variable {f : Fmt} {mode : Mode} {sat n : Bool} {m : Nat} {e u : Int} {a s : Nat}

theorem ratBits_rounded_of_le (hm : m ≠ 0) (he : e = u + a) (hs : f.low = u + s) (h : f.field mode n m e ≤ f.maxBits) :
    ratBits f (rounded f mode sat n m e).1 = some (scaled u (signed n (f.rung s (f.field mode n m e)))) := by
  obtain ⟨hnan, hlt, -⟩ := f.special_bits
  show ratBits f (roundFin f mode sat n m e).1 = _
  rw [(roundFin_of_le f mode sat n hm he hs h).1, ratBits_signBits_add hs n (by omega), if_pos h]

/-- An overflow to the largest finite number gives it with the sign. -/
theorem ratBits_rounded_toMax (hm : m ≠ 0) (hs : f.low = u + s) (h : f.maxBits < f.field mode n m e)
    (hmax : f.overflowsToMax mode sat n) : ratBits f (rounded f mode sat n m e).1 = some (scaled u (signed n (f.rung s f.maxBits))) := by
  obtain ⟨hlt, hto, -⟩ := overflowBits_maxBits f mode sat n
  show ratBits f (roundFin f mode sat n m e).1 = _
  rw [(roundFin_of_gt f mode sat n hm h).1, ratBits_nan_or_signed hs n hlt, hto hmax, if_pos (Nat.le_refl _)]

/-- Another overflow gives no number. -/
theorem ratBits_rounded_special (hm : m ≠ 0) (hs : f.low = u + s) (h : f.maxBits < f.field mode n m e)
    (hmax : ¬f.overflowsToMax mode sat n) : ratBits f (rounded f mode sat n m e).1 = none := by
  obtain ⟨hlt, -, hgt⟩ := overflowBits_maxBits f mode sat n
  show ratBits f (roundFin f mode sat n m e).1 = _
  rw [(roundFin_of_gt f mode sat n hm h).1, ratBits_nan_or_signed hs n hlt, if_neg (Nat.not_le.mpr (hgt hmax))]

/-- There is a unit in which both a dyadic number and the numbers of a format are whole. -/
theorem exists_unit (f : Fmt) (e : Int) : ∃ (u : Int) (a s : Nat), e = u + a ∧ f.low = u + s :=
  ⟨min e f.low, (e - min e f.low).toNat, (f.low - min e f.low).toNat, by omega, by omega⟩

theorem eq_of_ratOf {x : Rat} (he : e = u + a) (hx : ratOf (.fin n m e) = some x) : x = scaled u (signed n (multiples a m)) :=
  (Option.some.inj ((ratOf_fin n m he).symm.trans hx)).symm

theorem multiples_pos (a : Nat) (hm : m ≠ 0) : 0 < multiples a m := Nat.mul_pos (Nat.pos_of_ne_zero hm) (Nat.two_pow_pos a)

/-- Rounding to nearest even on magnitudes, overflow included. -/
theorem rounded_nearest_rung {y : Rat} (hm : m ≠ 0) (he : e = u + a) (hs : f.low = u + s)
    (hy : ratBits f (rounded f .rne sat n m e).1 = some y) :
    ∃ r, y = scaled u (signed n (f.rung s r))
      ∧ (∀ j ≤ f.maxBits, ((multiples a m : Int) - f.rung s r).natAbs ≤ ((multiples a m : Int) - f.rung s j).natAbs
        ∧ (f.rung s j ≠ f.rung s r → ((multiples a m : Int) - f.rung s j).natAbs = ((multiples a m : Int) - f.rung s r).natAbs →
          (rounded f .rne sat n m e).1 % 2 = 0))
      ∧ ((rounded f .rne sat n m e).2 &&& fNX ≠ 0 ↔ f.rung s r ≠ multiples a m) := by
  obtain ⟨⟨k, h⟩, -⟩ := f.field_rounds .rne n hm he hs
  have hv := f.rung_rising s
  rcases Nat.lt_or_ge f.maxBits (f.field .rne n m e) with hgt | hle
  · by_cases hmax : f.overflowsToMax .rne sat n
    · -- saturated: every number of the format is below the value, the largest one nearest
      have hbelow := h.lt_of_lt hv hgt
      rw [ratBits_rounded_toMax hm hs hgt hmax] at hy
      refine ⟨f.maxBits, (Option.some.inj hy).symm, fun j hj => ?_,
        iff_of_true (roundFin_of_gt f _ sat n hm hgt).2 (Nat.ne_of_lt hbelow)⟩
      have hj := hv.le_of_le hj
      exact ⟨by omega, fun _ _ => by omega⟩
    · rw [ratBits_rounded_special hm hs hgt hmax] at hy
      cases hy
  · obtain ⟨hbits, hnx⟩ := roundFin_of_le f .rne sat n hm he hs hle
    rw [ratBits_rounded_of_le hm he hs hle] at hy
    refine ⟨_, (Option.some.inj hy).symm, fun j _ => ⟨h.nearest hv j, fun hne hd => ?_⟩, hnx⟩
    have heven := h.even_of_tie hv (fun hj => hne (congrArg _ hj)) hd
    show (roundFin f .rne sat n m e).1 % 2 = 0
    rw [hbits, Nat.add_mod, f.signBits_even, heven]

/-- Rounding to nearest even: no number of the format is nearer, of two as near the last bit decides, NX where the result differs. -/
theorem rounded_nearest {x y : Rat} (hm : m ≠ 0) (hx : ratOf (.fin n m e) = some x)
    (hy : ratBits f (rounded f .rne sat n m e).1 = some y) :
    (∀ (c : Nat) (w : Rat), ratBits f c = some w →
      apart x y ≤ apart x w ∧ (w ≠ y → apart x w = apart x y → (rounded f .rne sat n m e).1 % 2 = 0))
    ∧ ((rounded f .rne sat n m e).2 &&& fNX ≠ 0 ↔ y ≠ x) := by
  obtain ⟨u, a, s, he, hs⟩ := exists_unit f e
  obtain ⟨r, rfl, hnear, hnx⟩ := rounded_nearest_rung hm he hs hy
  obtain rfl := eq_of_ratOf he hx
  refine ⟨fun c w hw => ?_, hnx.trans (not_congr (scaled_inj.trans signed_inj).symm)⟩
  obtain ⟨neg, j, hj, rfl⟩ := exists_of_ratBits hs hw
  obtain ⟨hle, htie⟩ := hnear j hj
  obtain ⟨hnearer, hother⟩ := nearest_signed n neg (multiples_pos a hm) hle
  rw [apart_scaled, apart_scaled, scaled_le, ne_eq, scaled_inj, scaled_inj]
  refine ⟨Int.ofNat_le.mpr hnearer, fun hne hd => ?_⟩
  obtain ⟨hrung, hdist⟩ := hother hne (Int.ofNat_inj.mp hd)
  exact htie hrung hdist

/-- Rounding inward gives a number no further from zero than the value, and none of the format lies between. -/
theorem rounded_inward (hm : m ≠ 0) (hi : mode.inward n = true) (he : e = u + a) (hs : f.low = u + s) :
    ∃ r, ratBits f (rounded f mode sat n m e).1 = some (scaled u (signed n (f.rung s r))) ∧ f.rung s r ≤ multiples a m
      ∧ ∀ j ≤ f.maxBits, f.rung s j ≤ multiples a m → f.rung s j ≤ f.rung s r := by
  obtain ⟨⟨k, h⟩, -⟩ := f.field_rounds mode n hm he hs
  have hv := f.rung_rising s
  rcases Nat.lt_or_ge f.maxBits (f.field mode n m e) with hgt | hle
  · exact ⟨f.maxBits, ratBits_rounded_toMax hm hs hgt (.inl hi), Nat.le_of_lt (h.lt_of_lt hv hgt), fun j hj _ => hv.le_of_le hj⟩
  · obtain ⟨hbelow, hgreatest⟩ := h.greatest_below hv hi
    exact ⟨_, ratBits_rounded_of_le hm he hs hle, hbelow, fun j _ => hgreatest j⟩

/-- Rounding outward, where that gives a number and FP8 cannot saturate, gives one no nearer to zero than the value, and none of the
format lies between. -/
theorem rounded_outward {y : Rat} (hm : m ≠ 0) (hmode : mode ≠ .rne) (hi : mode.inward n = false) (hf : ¬(f = .e4m3 ∨ f = .e5m2))
    (he : e = u + a) (hs : f.low = u + s) (hy : ratBits f (rounded f mode sat n m e).1 = some y) :
    ∃ r, y = scaled u (signed n (f.rung s r)) ∧ multiples a m ≤ f.rung s r
      ∧ ∀ j, multiples a m ≤ f.rung s j → f.rung s r ≤ f.rung s j := by
  obtain ⟨⟨k, h⟩, -⟩ := f.field_rounds mode n hm he hs
  rcases Nat.lt_or_ge f.maxBits (f.field mode n m e) with hgt | hle
  · have hspecial : ¬f.overflowsToMax mode sat n := by
      rintro (hin | ⟨h8, -⟩)
      · exact Bool.false_ne_true (hi.symm.trans hin)
      · exact hf h8
    rw [ratBits_rounded_special hm hs hgt hspecial] at hy
    cases hy
  · rw [ratBits_rounded_of_le hm he hs hle] at hy
    exact ⟨_, (Option.some.inj hy).symm, h.least_above (f.rung_rising s) hmode hi⟩

/-- Toward zero: a number no further from zero, and none of the format between. -/
theorem rounded_towardZero {x : Rat} (hm : m ≠ 0) (hx : ratOf (.fin n m e) = some x) :
    ∃ y, ratBits f (rounded f .rtz sat n m e).1 = some y ∧ magnitude y ≤ magnitude x
      ∧ ∀ (c : Nat) (w : Rat), ratBits f c = some w → magnitude w ≤ magnitude x → magnitude w ≤ magnitude y := by
  obtain ⟨u, a, s, he, hs⟩ := exists_unit f e
  obtain ⟨r, hy, hbelow, hgreatest⟩ := rounded_inward (mode := .rtz) (sat := sat) (n := n) hm rfl he hs
  obtain rfl := eq_of_ratOf he hx
  refine ⟨_, hy, ?_, fun c w hw => ?_⟩
  · rw [magnitude_scaled, magnitude_scaled, scaled_le, signed_natAbs, signed_natAbs]
    exact Int.ofNat_le.mpr hbelow
  · obtain ⟨neg, j, hj, rfl⟩ := exists_of_ratBits hs hw
    simp only [magnitude_scaled, scaled_le, signed_natAbs]
    exact fun hle => Int.ofNat_le.mpr (hgreatest j hj (Int.ofNat_le.mp hle))

/-- The next number of the format at or above `x`. -/
def NextAbove (f : Fmt) (x y : Rat) : Prop := x ≤ y ∧ ∀ (c : Nat) (w : Rat), ratBits f c = some w → x ≤ w → y ≤ w

/-- The next number of the format at or below `x`. -/
def NextBelow (f : Fmt) (x y : Rat) : Prop := y ≤ x ∧ ∀ (c : Nat) (w : Rat), ratBits f c = some w → w ≤ x → w ≤ y

/-- Inward of a negative number is above it, of a positive one below it. -/
theorem rounded_inward_side {x y : Rat} (hm : m ≠ 0) (hi : mode.inward n = true) (hx : ratOf (.fin n m e) = some x)
    (hy : ratBits f (rounded f mode sat n m e).1 = some y) : if n then NextAbove f x y else NextBelow f x y := by
  obtain ⟨u, a, s, he, hs⟩ := exists_unit f e
  obtain ⟨r, hr, hbelow, hgreatest⟩ := rounded_inward (f := f) (sat := sat) hm hi he hs
  obtain rfl := eq_of_ratOf he hx
  obtain rfl := Option.some.inj (hr.symm.trans hy)
  cases n with
  | true =>
    refine ⟨scaled_le.mpr (Int.neg_le_neg (Int.ofNat_le.mpr hbelow)), fun c w hw => ?_⟩
    obtain ⟨neg, j, hj, rfl⟩ := exists_of_ratBits hs hw
    have := hgreatest j hj
    have := signed_eq_or neg (f.rung s j)
    rw [scaled_le, scaled_le, signed_true, signed_true]
    omega
  | false =>
    refine ⟨scaled_le.mpr (Int.ofNat_le.mpr hbelow), fun c w hw => ?_⟩
    obtain ⟨neg, j, hj, rfl⟩ := exists_of_ratBits hs hw
    have := hgreatest j hj
    have := signed_eq_or neg (f.rung s j)
    rw [scaled_le, scaled_le, signed_false, signed_false]
    omega

/-- Outward of a negative number is below it, of a positive one above it. -/
theorem rounded_outward_side {x y : Rat} (hm : m ≠ 0) (hmode : mode ≠ .rne) (hi : mode.inward n = false)
    (hf : ¬(f = .e4m3 ∨ f = .e5m2)) (hx : ratOf (.fin n m e) = some x) (hy : ratBits f (rounded f mode sat n m e).1 = some y) :
    if n then NextBelow f x y else NextAbove f x y := by
  obtain ⟨u, a, s, he, hs⟩ := exists_unit f e
  obtain ⟨r, rfl, habove, hleast⟩ := rounded_outward hm hmode hi hf he hs hy
  obtain rfl := eq_of_ratOf he hx
  have hpos := multiples_pos a hm
  cases n with
  | true =>
    refine ⟨scaled_le.mpr (Int.neg_le_neg (Int.ofNat_le.mpr habove)), fun c w hw => ?_⟩
    obtain ⟨neg, j, -, rfl⟩ := exists_of_ratBits hs hw
    have := hleast j
    have := signed_eq_or neg (f.rung s j)
    rw [scaled_le, scaled_le, signed_true, signed_true]
    omega
  | false =>
    refine ⟨scaled_le.mpr (Int.ofNat_le.mpr habove), fun c w hw => ?_⟩
    obtain ⟨neg, j, -, rfl⟩ := exists_of_ratBits hs hw
    have := hleast j
    have := signed_eq_or neg (f.rung s j)
    rw [scaled_le, scaled_le, signed_false, signed_false]
    omega

/-- Toward +∞: inward for a negative number, outward for a positive one. -/
theorem rounded_up {x y : Rat} (hm : m ≠ 0) (hf : ¬(f = .e4m3 ∨ f = .e5m2)) (hx : ratOf (.fin n m e) = some x)
    (hy : ratBits f (rounded f .rup sat n m e).1 = some y) : NextAbove f x y := by
  cases n with
  | true => exact rounded_inward_side hm rfl hx hy
  | false => exact rounded_outward_side hm (by decide) rfl hf hx hy

/-- Toward −∞: outward for a negative number, inward for a positive one. -/
theorem rounded_down {x y : Rat} (hm : m ≠ 0) (hf : ¬(f = .e4m3 ∨ f = .e5m2)) (hx : ratOf (.fin n m e) = some x)
    (hy : ratBits f (rounded f .rdn sat n m e).1 = some y) : NextBelow f x y := by
  cases n with
  | true => exact rounded_outward_side hm (by decide) rfl hf hx hy
  | false => exact rounded_inward_side hm rfl hx hy

end Rounded

/-- Settles O16: the bits below the sign number the magnitudes of a format in rising order, and the one rounding of the model picks
a neighbour of the value on that ladder by the mode. -/
theorem roundedResults : Obligations.RoundedResults := by
  unfold Obligations.RoundedResults
  refine ⟨fun f sat n k e x y hk hx hy => ?nearest, fun f sat n k e x hk hx => ⟨rounded_towardZero hk hx, fun h4 h5 => ?directed⟩⟩
  case nearest =>
    obtain ⟨hnear, hnx⟩ := rounded_nearest hk hx hy
    exact ⟨fun c w _ hw => hnear c w hw, hnx⟩
  case directed =>
    have hf : ¬(f = .e4m3 ∨ f = .e5m2) := fun h => h.elim h4 h5
    exact ⟨fun y hy => rounded_up hk hf hx hy, fun y hy => rounded_down hk hf hx hy⟩

end Sys2Proof.Claims
end
